-- ==== Sys2Proof/Word.lean ====
section
/-! DEFINITION. The words of the DF-256T's wires and registers, and their plainest arithmetic: the widths of
Tables 2.1 and 2.3, little-endian bytes (R5), and a saturating count (R7). -/

namespace Sys2Proof

/-- One byte. -/
abbrev Byte := BitVec 8
/-- A 32-bit register (R6). -/
abbrev Word := BitVec 32
/-- A 6-bit device ID of the domain (R45). -/
abbrev DevId := BitVec 6
/-- A 12-bit endpoint ID (R47, R62). -/
abbrev Ep := BitVec 12
/-- A port of a device, named by its lowest lane (R25). -/
abbrev PortNo := BitVec 8
/-- A request tag (Table 2.1). -/
abbrev Tag := BitVec 16
/-- A sequence number of a pair (R88). -/
abbrev Seq := BitVec 16
/-- A byte address of the 58-bit fabric address space (R61). -/
abbrev Addr := BitVec 58
/-- A tenant ID (R582). -/
abbrev TenantId := BitVec 12
/-- An object ID (R331). -/
abbrev Oid := BitVec 40
/-- A traffic class (R63). -/
abbrev Cls := BitVec 3
/-- A composition ID; 0 means no composition (R453). -/
abbrev CompId := BitVec 10
/-- A quadrant of the package (R24). -/
abbrev Quad := BitVec 2
/-- An engine tile index, 64e + t (R169). -/
abbrev TileNo := BitVec 9
/-- A map epoch (R455). -/
abbrev Epoch := BitVec 8

/-- The byte at place `i`, zero beyond the end. -/
def byteAt (bs : List Byte) (i : Nat) : Byte := bs.getD i 0

/-- The little-endian number of `n` bytes from place `i` (R5). -/
def leAt (bs : List Byte) (i : Nat) : Nat → Nat
  | 0 => 0
  | n + 1 => (byteAt bs i).toNat + 256 * leAt bs (i + 1) n

/-- A number as `n` little-endian bytes (R5). -/
def leBytes (v : Nat) : Nat → List Byte
  | 0 => []
  | n + 1 => BitVec.ofNat 8 v :: leBytes (v / 256) n

/-- Bits [lo + width − 1 : lo] of a number. -/
def bitsOf (v lo width : Nat) : Nat := (v >>> lo) % 2 ^ width

/-- `n` bytes from place `i`, zero beyond the end. -/
def slice (bs : List Byte) (i n : Nat) : List Byte := (List.range n).map fun k => byteAt bs (i + k)

/-- Whether `n` bytes from place `i` are all zero. -/
def zerosAt (bs : List Byte) (i n : Nat) : Bool := (slice bs i n).all (· == 0)

/-- The quotient rounded up. -/
def ceilDiv (a b : Nat) : Nat := (a + b - 1) / b

/-- One more, stopping at the all-ones value of `width` bits (R7). -/
def satInc (width : Nat) (v : Nat) : Nat := min (v + 1) (2 ^ width - 1)

/-- A count raised by `k`, stopping at the all-ones value of `width` bits (R7). -/
def satAdd (width : Nat) (v k : Nat) : Nat := min (v + k) (2 ^ width - 1)

/-- A bit as a number. -/
def bit (b : Bool) : Nat := if b then 1 else 0

end Sys2Proof
end

