-- ==== Sys2Proof/Syntax.lean ====
section
/-! DEFINITION. The frames, messages and measured facts that commands carry, and the ONE inductive of commands:
one constructor for each row of the spec's table of operations and events. -/

namespace Sys2Proof

/-- Completion status (R17, Table 0.4). -/
inductive Status where
  | ok | retry | poison | remap | denied | noSlot | altDelivered | deadlineMiss | revoked | funcOff | busyRetry
  | format | quota | notOwner | pathLost | aborted
deriving DecidableEq, Repr

/-- A DMT request: the header of Table 2.1, the deadline extension (R54) and the payload. -/
structure Req where
  opcode : BitVec 8
  src : Ep
  dst : Ep
  tag : Tag
  seq : Seq
  epoch : Epoch
  tenant : TenantId
  cls : Cls
  chk : Bool
  addr : Addr
  len : BitVec 13
  pgen : BitVec 2
  bep : Bool
  rsnd : Bool
  seqd : Bool
  newp : Bool
  raw : Bool
  dlx : Bool
  subop : BitVec 4
  osz : BitVec 2
  ncmb : Bool
  dur : Bool
  hop : BitVec 4
  rsv : BitVec 13
  ext : BitVec 64
  payload : List Byte
deriving DecidableEq, Repr

/-- A DMT completion: the header of Table 2.3 and the data. -/
structure Cpl where
  opcode : BitVec 8
  dst : Ep
  src : Ep
  tag : Tag
  seq : Seq
  status : BitVec 5
  pgen : BitVec 2
  len : BitVec 13
  cls : Cls
  dura : Bool
  dupl : Bool
  hop : BitVec 4
  rsv : BitVec 3
  data : List Byte
deriving DecidableEq, Repr

/-- A DMT frame. -/
inductive Frame where
  | req (f : Req)
  | cpl (c : Cpl)
deriving DecidableEq, Repr

/-- A place where frames enter or leave: a fabric port, the host interface (R47), or the device's own functions. -/
inductive Port where
  | lane (p : PortNo)
  | host
  | own
deriving DecidableEq, Repr

/-- Where a request of an engine, object or ownership row stands: at its ingress port, or at the device that executes
it, which it entered through quadrant `q` (R199). -/
inductive Place where
  | ingress (p : Port)
  | device (q : Quad)
deriving DecidableEq, Repr

/-- The source of a management message: a TLS session (R609) or the host path (R694). -/
inductive Who where
  | session (i : BitVec 3)
  | hostPath
deriving DecidableEq, Repr

/-- The functions of ENG_FUNC_CTRL (R210). -/
inductive EngFn where
  | reduce | gs | filter | score | expand | compat
deriving DecidableEq, Repr

/-- A child accord's binding notice (R251). -/
structure Binding where
  parent : Word
  member : BitVec 10
  child : Word
  op : BitVec 4
  etype : BitVec 2
  elemBytes : Nat
deriving DecidableEq, Repr

/-- A window notice (R235). -/
structure WinNote where
  handle : Word
  round : BitVec 16
  b : Nat
  w : Nat
deriving DecidableEq, Repr

/-- A round's report (R253, Table 5.7): the lowest gap, the members lost and the saturation count. -/
structure Report where
  firstGap : Nat
  lost : Nat
  sat : Nat
deriving DecidableEq, Repr

/-- What the media decoder reports for a unit (R375): the highest rung its codewords needed (4: uncorrectable), the bits
corrected, codewords that needed rung 3, and whether the metadata match (R376). -/
structure Decoded where
  rung : BitVec 3
  corrected : Nat
  soft : Nat
  metaOk : Bool
deriving DecidableEq, Repr

/-- A NAND block, in the fields of Table 9.3. -/
structure BlkAddr where
  chan : BitVec 4
  ce : BitVec 3
  lun : BitVec 2
  plane : BitVec 2
  block : BitVec 16
deriving DecidableEq, Repr

/-- A NAND page, in the fields of Table 9.3. -/
structure PageAddr where
  blk : BlkAddr
  page : BitVec 12
deriving DecidableEq, Repr

/-- The geometry of the targets found (Table 9.1): the chip enables that carry one, by channel, and what all of them have alike. -/
structure Geom where
  ces : List (BitVec 8)
  luns : Nat
  planes : Nat
  pages : Nat
  blocks : Nat
  spare : Nat
deriving DecidableEq, Repr

/-- What flash discovery finds (Table 9.2): the targets left and their geometry, how many were excluded, whether an anchor exists and can
be read and names the same targets in the same order, whether every block 0 is blank, and factory-marked blocks. -/
structure Discovery where
  geom : Geom
  excluded : Nat
  anchorReadable : Bool
  anchorExists : Bool
  blockZeroBlank : Bool
  sameTargets : Bool
  factoryBad : List BlkAddr
deriving DecidableEq, Repr

/-- What the hold-up measurement samples (R427): whether the bank was at 30 V or more at the first sample, V_HU in mV,
and the time in µs from 30 V to V_TOP. -/
structure HoldMeas where
  startedAbove : Bool
  vHuMv : Nat
  riseUs : Nat
deriving DecidableEq, Repr

/-- A flit (Table 12.2). -/
structure Flit where
  fseq : BitVec 12
  ackseq : BitVec 12
  ackv : Bool
  nak : Bool
  ftype : BitVec 2
  kph : Bool
  enc : Bool
  rsvA : BitVec 2
  c0cls : Cls
  c0cnt : BitVec 12
  c1cls : Cls
  c1cnt : BitVec 12
  rsvB : BitVec 2
  tagpart : BitVec 32
  crc : BitVec 32
  payload : List Byte
deriving DecidableEq, Repr

/-- LINK_PARAM (Table 12.12). -/
structure LinkParam where
  role : BitVec 2
  width : BitVec 4
  cipher : BitVec 2
  dev : DevId
  ep : Ep
  classes : BitVec 8
  credits : List Nat
deriving DecidableEq, Repr

/-- AUTH_HELLO (Table 12.12). -/
structure AuthHello where
  dev : DevId
  port : BitVec 16
  domain : BitVec 64
  nonce : List Byte
deriving DecidableEq, Repr

/-- One AUTH_PROOF fragment (Table 12.12), with the root of trust's verdict on the whole proof, taken with the last
fragment (R507): whether the certificate chains to the domain root and the signature verifies. -/
structure AuthProof where
  index : BitVec 4
  countLess1 : BitVec 4
  total : BitVec 16
  bytes : List Byte
  chains : Bool
  verifies : Bool
deriving DecidableEq, Repr

/-- JOIN (Table 17.6). -/
structure JoinMsg where
  dev : DevId
  registrar : DevId
  host : DevId
  incarnation : BitVec 64
  digest : List Byte
deriving DecidableEq, Repr

/-- A bucket of a port: the port bucket, a class bucket, a policer, or the admission bucket (R558, R573, R577). -/
inductive BucketId where
  | port
  | cls (c : Cls)
  | pol (c : Cls)
  | adm
deriving DecidableEq, Repr

/-- A management role (R608). -/
inductive Role where
  | admin | operator | auditor
deriving DecidableEq, Repr

/-- A TLS handshake as the root of trust judges it (R607): the suite and group, the client's chain, and its role. -/
structure Handshake where
  suiteOk : Bool
  chainOk : Bool
  role : Option Role
deriving DecidableEq, Repr

/-- A window's registers (Tables 2.6 to 2.9). -/
structure Win where
  baseLo : Word
  baseHi : Word
  limitLo : Word
  limitHi : Word
  attr : Word
deriving DecidableEq, Repr

/-- One port of the image's PORTS section (Table 17.3). -/
structure PortCfg where
  lane : PortNo
  width : BitVec 4
  role : BitVec 2
  classes : BitVec 8
  cipher : BitVec 2
  degrade : Bool
  peerDev : DevId
  peerPort : PortNo
deriving DecidableEq, Repr

/-- One entry of the endpoint table (R540): the endpoint, its device, and what it is there. -/
structure EpEntry where
  ep : Ep
  dev : DevId
  at_ : Port
deriving DecidableEq, Repr

/-- One trunk link of the route set (R541). -/
structure LinkDef where
  devA : DevId
  portA : PortNo
  devB : DevId
  portB : PortNo
deriving DecidableEq, Repr

/-- One route entry (Table 13.2). -/
structure RouteEntry where
  dev : DevId
  dest : DevId
  tPri : PortNo
  tAlt : PortNo
  slots : List (PortNo × PortNo)
deriving DecidableEq, Repr

/-- One pool entry (R444). -/
structure PoolEntry where
  ep : Ep
  base : Addr
  limit : Addr
deriving DecidableEq, Repr

/-- The parts of the target profile the device computes with (R366, R411, R429, R433): the rated erase cycles, tPROG and the
pseudo-SLC program time in µs. -/
structure FlashProfile where
  endurance : Nat
  tProgUs : Nat
  pslcProgUs : Nat
deriving DecidableEq, Repr

/-- A configuration image as parsed (Tables 17.2 and 17.3), with the verdicts of the checks that rest on bytes and
signatures (R651): the header's form, the section table, signer and signature, route digest, and the domain certificate's key. -/
structure Image where
  formOk : Bool
  sectsOk : Bool
  signerOk : Bool
  digestOk : Bool
  certOk : Bool
  device : DevId
  contain : Bool
  mediaMode : Bool
  domain : BitVec 64
  seq : BitVec 64
  routeDigest : List Byte
  digest : List Byte
  rootsDigest : List Byte
  cert : List Byte
  registrar : DevId
  hostDev : DevId
  t1Base : Addr
  nandRate : Nat
  tcpPort : BitVec 16
  ports : List PortCfg
  eps : List EpEntry
  links : List LinkDef
  routes : List RouteEntry
  windows : List (Port × BitVec 8 × Win)
  pool : List PoolEntry
  quotas : List (TenantId × BitVec 2 × Nat)
  profile : FlashProfile
  huIchg : Nat
  huCmin : Nat
deriving DecidableEq, Repr

/-- A boot header (R646). -/
structure BootHdr where
  hseq : Nat
  bankB : Bool
  tryIt : Bool
deriving DecidableEq, Repr

/-- A firmware bank as the root of trust finds it: whether its signature verifies, its SVN, and the digests of its parts. -/
structure FwBank where
  verifies : Bool
  svn : Nat
  rotDigest : List Byte
  mgmtDigest : List Byte
  phyDigest : List Byte
deriving DecidableEq, Repr

/-- What power-up meets (Table 17.4): the boot headers with a good CRC, the two banks, the two image copies, the fused SVN
floor, the random INCARNATION, stack training, tiles that fail their test, and flash discovery. -/
structure BootInputs where
  hdr0 : Option BootHdr
  hdr1 : Option BootHdr
  bankA : FwBank
  bankB : FwBank
  imgA : Option Image
  imgB : Option Image
  svnFloor : Nat
  bootRom : List Byte
  incarnation : BitVec 64
  mgmtOk : Bool
  stacksOk : Bool
  badTiles : List TileNo
  disc : Discovery
deriving DecidableEq, Repr

/-- A row of the composition table (R454). -/
structure CompRow where
  comp : CompId
  state : BitVec 2
  home : DevId
  epoch : Epoch
  reach : BitVec 64
deriving DecidableEq, Repr

/-- Rows of the composition table and of the endpoint map that a notice carries: the registrar's whole tables to a joining
device, with the holder of the host interface (R660, R688), or what one change altered (R454). -/
structure SyncTable where
  full : Bool
  comps : List CompRow
  eps : List (Ep × CompId)
  holder : DevId
deriving DecidableEq, Repr

/-- What READY tells the home of a device's part in a change: the port bindings staged there, whether a LOST lease of the
composition stays, and whether the device holds a lease of it (R461, R468). -/
structure ReadyNote where
  binds : List (Ep × CompId)
  lost : Bool
  holds : Bool
deriving DecidableEq, Repr

/-- What a loss notice names: a lost device, or, to a home, a composition of which a lease became LOST (R466, R467). -/
inductive Loss where
  | device (d : DevId)
  | lease (c : CompId)
deriving DecidableEq, Repr

/-- What a stack granule belongs to (Table 18.1). -/
inductive StackPlace where
  | tier1
  | map (unit : Nat)
  | dryBuf (oid : Oid) (line : Nat)
  | table
  | cplLog (src dst : Ep) (cls : Cls) (seq : Seq)
  | tracker (src : Ep) (tag : Tag)
deriving DecidableEq, Repr

/-- The host-port shim (Table 19.1), with what the MAC reports: the host's MAC address, the EtherType, the Ethernet payload bytes and the
FCS. -/
structure Shim where
  mac : BitVec 48
  etype : BitVec 16
  bytes : Nat
  fcsOk : Bool
  ver : BitVec 4
  kind : BitVec 4
  nak : Bool
  ackv : Bool
  eseq : Word
  ackseq : Word
  crcls : Cls
  crcnt : BitVec 16
deriving DecidableEq, Repr

/-- A management message (Table 19.3), with its length in bytes. -/
structure MgmtMsg where
  mop : BitVec 7
  count : BitVec 7
  device : DevId
  status : BitVec 5
  mtag : Word
  addr : Word
  len : Nat
  data : List Word
deriving DecidableEq, Repr

/-- The host windows and host-interface SHP_ settings one holder hands to the next (R688, Table 19.2 step 3); none when the
old holder is lost. -/
structure HostHandover where
  handed : Bool
  wins : List (BitVec 8 × Win)
  shp : List (BitVec 7 × Word)
deriving DecidableEq, Repr

/-- What the receiver found of a coded flit: whether its group's tag verifies (R513), and the lanes on which the inner
code corrected a symbol (R484). -/
structure FlitCheck where
  tagOk : Bool
  fixed : List Nat
deriving DecidableEq, Repr

/-- A port's partition and the size fields that a write of its COH_AGENT_CFG gives (Table 3.9). -/
structure PortWays where
  port : PortNo
  ways : BitVec 4
  sets : BitVec 4
deriving DecidableEq, Repr

/-- A step of training that failed, and the lanes that locked when it is a step of the lanes (Table 12.3). -/
structure StepFail where
  step : Nat
  lanes : BitVec 8
deriving DecidableEq, Repr

/-- The commands of the DF-256T, one for each row of the spec's table; those without operands stand last. -/
inductive Instr where
  /-- RD_LINE (R65). -/
  | rdLine (p : Port) (f : Req)
  /-- WR_LINE (R66). -/
  | wrLine (p : Port) (f : Req)
  /-- WR_LINE_REL (R104). -/
  | wrLineRel (p : Port) (f : Req)
  /-- FENCE (R106). -/
  | fence (p : Port) (f : Req)
  /-- ATOM_ADD (R69). -/
  | atomAdd (p : Port) (f : Req)
  /-- ATOM_LOGIC (R69). -/
  | atomLogic (p : Port) (f : Req)
  /-- ATOM_SWAP (R69). -/
  | atomSwap (p : Port) (f : Req)
  /-- ATOM_CAS (R69). -/
  | atomCas (p : Port) (f : Req)
  /-- ATOM_MINMAX (R69). -/
  | atomMinmax (p : Port) (f : Req)
  /-- READ_SHARED (R155). -/
  | readShared (f : Req)
  /-- READ_OWN (R155). -/
  | readOwn (f : Req)
  /-- CLAIM (R155). -/
  | claim (f : Req)
  /-- PORT_BUFFER_RELEASE (R456). -/
  | portBufferRelease (p : Port)
  /-- TRUNK_REQUEST_ARRIVE (R85). -/
  | trunkRequestArrive (p : PortNo) (f : Req)
  /-- EGRESS_SEQUENCED_ARRIVE (R96). -/
  | egressSequencedArrive (f : Req)
  /-- EGRESS_READ_ARRIVE (R122). -/
  | egressReadArrive (f : Req)
  /-- DEST_ANSWER_RETURN (R728). -/
  | destAnswerReturn (c : Cpl)
  /-- COMPLETION_ARRIVE (R59). -/
  | completionArrive (c : Cpl)
  /-- WR_LINE_REL_RELEASE (R104). -/
  | wrLineRelRelease (src : Ep)
  /-- FENCE_COMPLETE (R107). -/
  | fenceComplete (src : Ep)
  /-- PATH_FAULT_NOTICE (R112). -/
  | pathFaultNotice (dev : DevId) (p : PortNo)
  /-- RESEND_TIMEOUT (R113). -/
  | resendTimeout (src : Ep) (tag : Tag)
  /-- PATH_LOST_TIMEOUT (R115). -/
  | pathLostTimeout (src : Ep) (tag : Tag)
  /-- TAG_HOLD_EXPIRE (R117). -/
  | tagHoldExpire (src : Ep) (tag : Tag)
  /-- SETTLING_END (R119). -/
  | settlingEnd (src dst : Ep) (cls : Cls)
  /-- COMPLETION_LOG_EVICT (R120). -/
  | completionLogEvict (src dst : Ep) (cls : Cls) (seq : Seq)
  /-- WINDOW_REGISTER_WRITE (R84). -/
  | windowRegisterWrite (w : Who) (p : Port) (win : BitVec 8) (reg : BitVec 3) (v : Word)
  /-- PROGRESS_NOTICE_SEND (R194). -/
  | progressNoticeSend (src : Ep) (tag : Tag)
  /-- PROGRESS_NOTICE_RECEIVE (R194). -/
  | progressNoticeReceive (src : Ep) (tag : Tag)
  /-- JOIN_WINDOW_EXPIRE (R128). -/
  | joinWindowExpire (e : Nat)
  /-- COMBINE_LEAD_COMPLETE (R131). -/
  | combineLeadComplete (e : Nat) (st : Status) (data : List Byte)
  /-- COMBINE_FOLLOWUP_COMPLETE (R132). -/
  | combineFollowupComplete (e : Nat) (st : Status) (data : List Byte)
  /-- COMBINE_DEST_TIMEOUT (R136). -/
  | combineDestTimeout (e : Nat)
  /-- SNOOP_ANSWER (R158). -/
  | snoopAnswer (p : PortNo) (tag : Tag) (data : Option (List Byte))
  /-- SNOOP_TIMEOUT (R161). -/
  | snoopTimeout (p : PortNo) (tag : Tag)
  /-- COH_ATTACH (R148). -/
  | cohAttach (w : Who) (p : PortNo) (ways sets : BitVec 4)
  /-- COH_DETACH (R163). -/
  | cohDetach (w : Who) (p : PortWays)
  /-- DETACH_FINISH (R163). -/
  | detachFinish (p : PortNo)
  /-- TILE_XFER (R205). -/
  | tileXfer (pl : Place) (f : Req)
  /-- PORTION_PLACE (R202). -/
  | portionPlace (q : Quad)
  /-- DESCRIPTOR_COMPLETE (R171). -/
  | descriptorComplete (t : TileNo)
  /-- DEVICE_FRAME_COMPLETE (R190). -/
  | deviceFrameComplete (src : Ep) (tag : Tag) (a : Addr) (st : Status) (data : List Byte)
  /-- DISPATCH_RETRY_TIMEOUT (R203). -/
  | dispatchRetryTimeout (src : Ep) (tag : Tag)
  /-- TILE_PARITY_ERROR (R173). -/
  | tileParityError (t : TileNo) (rereadOk : Bool)
  /-- FUNC_DISABLE (R211). -/
  | funcDisable (w : Who) (fn : EngFn)
  /-- FUNC_ENABLE (R214). -/
  | funcEnable (w : Who) (fn : EngFn)
  /-- FUNC_DRAIN_TIMEOUT (R211). -/
  | funcDrainTimeout (fn : EngFn)
  /-- TILE_T0_WRITE (R172). -/
  | tileT0Write (w : Who) (t : TileNo) (v : Word)
  /-- TILE_GATE (R204). -/
  | tileGate (t : TileNo)
  /-- ACC_OPEN (R223). -/
  | accOpen (pl : Place) (f : Req)
  /-- ACC_BINDING_NOTICE (R251). -/
  | accBindingNotice (child : DevId) (b : Binding)
  /-- ACC_BINDING_TIMEOUT (R251). -/
  | accBindingTimeout (slot : BitVec 12)
  /-- ACC_START (R230). -/
  | accStart (pl : Place) (f : Req)
  /-- ACC_SEGMENT_INGRESS (R233). -/
  | accSegmentIngress (p : Port) (f : Req)
  /-- ACC_SEGMENT (R234). -/
  | accSegment (f : Req)
  /-- ACC_WINDOW_NOTICE (R235). -/
  | accWindowNotice (member : Ep) (tag : Tag) (n : WinNote)
  /-- ACC_STRIPE_COMPLETE (R240). -/
  | accStripeComplete (slot : BitVec 12) (seg stripe : Nat)
  /-- ACC_RESULT (R252). -/
  | accResult (f : Req)
  /-- ACC_REPORT (R253). -/
  | accReport (handle : Word) (member : BitVec 10) (round : BitVec 16) (r : Report)
  /-- ACC_STALL_TIMEOUT (R247). -/
  | accStallTimeout (slot : BitVec 12) (member : BitVec 10)
  /-- ACC_ABORT_NOTICE (R254). -/
  | accAbortNotice (handle : Word) (round : BitVec 16)
  /-- ACC_CLOSE (R256). -/
  | accClose (pl : Place) (f : Req)
  /-- ACC_IDLE_TIMEOUT (R257). -/
  | accIdleTimeout (slot : BitVec 12)
  /-- GATHER_DIRECT (R260). -/
  | gatherDirect (pl : Place) (f : Req)
  /-- GATHER_INDEXED (R261). -/
  | gatherIndexed (pl : Place) (f : Req)
  /-- SCATTER_DIRECT (R260). -/
  | scatterDirect (pl : Place) (f : Req)
  /-- SCATTER_INDEXED (R261). -/
  | scatterIndexed (pl : Place) (f : Req)
  /-- FILTER (R274). -/
  | filter (pl : Place) (f : Req)
  /-- SCORE_SEL (R282). -/
  | scoreSel (pl : Place) (f : Req)
  /-- EXPAND (R312). -/
  | expand (pl : Place) (f : Req)
  /-- ZSK_BLOCK_EXPAND (R316). -/
  | zskBlockExpand (t : TileNo)
  /-- ZSK_REREAD_RESULT (R320). -/
  | zskRereadResult (t : TileNo) (bytes : List Byte)
  /-- CREATE (R336). -/
  | create (w : Who) (ten : TenantId)
  /-- PLACE (R337). -/
  | place (w : Who) (ten : TenantId)
  /-- UNPLACE (R339). -/
  | unplace (w : Who) (ten : TenantId)
  /-- SET_ALT (R338). -/
  | setAlt (w : Who) (ten : TenantId)
  /-- DELETE (R339). -/
  | delete (w : Who) (ten : TenantId)
  /-- QUERY (R336). -/
  | query (w : Who) (ten : TenantId)
  /-- PLAN_OPEN (R355). -/
  | planOpen (w : Who) (ten : TenantId)
  /-- PLAN_CLOSE (R356). -/
  | planClose (w : Who) (ten : TenantId)
  /-- OBJECT_SCRUB_FREE (R339). -/
  | objectScrubFree (oid : Oid)
  /-- T1_COPY_FILLED (R337). -/
  | t1CopyFilled (oid : Oid)
  /-- REPLICA_FILLED (R337). -/
  | replicaFilled (oid : Oid)
  /-- SEAL (R344). -/
  | seal (pl : Place) (f : Req)
  /-- RESEAL (R345). -/
  | reseal (pl : Place) (f : Req)
  /-- RD_OBJ (R347). -/
  | rdObj (pl : Place) (f : Req)
  /-- TIER3_FETCH_DONE (R358). -/
  | tier3FetchDone (oid : Oid) (unit : Nat) (d : Decoded)
  /-- TIER3_UNCORRECTABLE (R359). -/
  | tier3Uncorrectable (oid : Oid) (unit : Nat)
  /-- PLAN_STEP_FETCH (R356). -/
  | planStepFetch (plan : BitVec 8)
  /-- DISCARD (R405). -/
  | discard (pl : Place) (f : Req)
  /-- FORMAT (R413). -/
  | format (w : Who) (d : Discovery)
  /-- NAND_PROGRAM_COMPLETE (R381). -/
  | nandProgramComplete (a : PageAddr)
  /-- NAND_PROGRAM_FAIL (R383). -/
  | nandProgramFail (a : PageAddr)
  /-- GC_CYCLE_START (R393); what the decoder reports for the victim's pages, clean where the list ends (R375). -/
  | gcCycleStart (rs : List Decoded)
  /-- GC_VICTIM_ERASE (R393). -/
  | gcVictimErase (b : BlkAddr)
  /-- NAND_ERASE_COMPLETE (R393). -/
  | nandEraseComplete (b : BlkAddr)
  /-- NAND_ERASE_FAIL (R399). -/
  | nandEraseFail (b : BlkAddr)
  /-- PATROL_READ (R378). -/
  | patrolRead (b : BlkAddr) (rs : List Decoded)
  /-- FLASH_TEMP_SAMPLE (R414). -/
  | flashTempSample (celsius : Int)
  /-- FTL_GC_CFG_WRITE (R412). -/
  | ftlGcCfgWrite (w : Who) (v : Word)
  /-- HOLDUP_MEASURE_DONE (R427). -/
  | holdupMeasureDone (m : HoldMeas)
  /-- HOLDUP_RECOMPUTE (R431). -/
  | holdupRecompute (mv : Nat)
  /-- COMP_CREATE (R453). -/
  | compCreate (w : Who)
  /-- COMP_DESTROY (R469). -/
  | compDestroy (w : Who) (c : CompId)
  /-- GRANT (R448). -/
  | grant (w : Who) (c : CompId)
  /-- RENEW (R449). -/
  | renew (w : Who) (c : CompId)
  /-- RELEASE (R451). -/
  | release (w : Who) (c : CompId)
  /-- STAGE_WIN (R458). -/
  | stageWin (w : Who) (c : CompId)
  /-- STAGE_PORT (R458). -/
  | stagePort (w : Who) (c : CompId)
  /-- STAGE_LEASE (R459). -/
  | stageLease (w : Who) (c : CompId)
  /-- STAGE_CLEAR (R458). -/
  | stageClear (w : Who) (c : CompId)
  /-- COMMIT (R460). -/
  | commit (w : Who) (c : CompId)
  /-- QUERY_LEASE (R447). -/
  | queryLease (w : Who) (c : CompId)
  /-- OWN_REGISTER (R470). -/
  | ownRegister (w : Who) (c : CompId)
  /-- OWN_DROP (R479). -/
  | ownDrop (w : Who) (c : CompId)
  /-- EPOCH_PREPARE (R461). -/
  | epochPrepare (home : DevId) (c : CompId) (e : Epoch) (destroy : Bool)
  /-- EPOCH_READY (R461). -/
  | epochReady (dev : DevId) (c : CompId) (r : ReadyNote)
  /-- EPOCH_READY_TIMEOUT (R462). -/
  | epochReadyTimeout (c : CompId)
  /-- EPOCH_ABORT (R462). -/
  | epochAbort (c : CompId)
  /-- EPOCH_SWITCH (R461). -/
  | epochSwitch (c : CompId) (e : Epoch) (reach : BitVec 64) (binds : List (Ep × CompId))
  /-- EPOCH_SWITCH_RESEND (R462). -/
  | epochSwitchResend (c : CompId)
  /-- EPOCH_SWITCHED (R461). -/
  | epochSwitched (dev : DevId) (c : CompId)
  /-- SILLAGE_DRAIN (R461). -/
  | sillageDrain (c : CompId)
  /-- EPOCH_DRAINED (R461). -/
  | epochDrained (dev : DevId) (c : CompId)
  /-- EPOCH_CLOSE (R461). -/
  | epochClose (c : CompId)
  /-- LEASE_EXPIRE (R450). -/
  | leaseExpire (slot : BitVec 16)
  /-- LEASE_SCRUB_DONE (R452). -/
  | leaseScrubDone (slot : BitVec 16)
  /-- POOL_MEMBER_LOST (R466). -/
  | poolMemberLost (ep : Ep)
  /-- DEVICE_LOST (R466). -/
  | deviceLost (dev : DevId)
  /-- LOSS_NOTICE (R467). -/
  | lossNotice (l : Loss)
  /-- OFFER (R475). -/
  | offer (pl : Place) (f : Req)
  /-- WITHDRAW (R475). -/
  | withdraw (pl : Place) (f : Req)
  /-- CONFIRM (R477). -/
  | confirm (pl : Place) (f : Req)
  /-- OWN_ACCEPT (R475). -/
  | ownAccept (pl : Place) (f : Req)
  /-- OFFER_LEASE_EXPIRE (R475). -/
  | offerLeaseExpire (slot : BitVec 16)
  /-- GATE_UPDATE (R476). -/
  | gateUpdate (oid : Oid) (owner : Option CompId)
  /-- GATE_ACK (R476). -/
  | gateAck (oid : Oid) (found : Bool)
  /-- FLIT_DATA (R488). -/
  | flitData (p : PortNo) (fl : Flit) (tagOk : FlitCheck)
  /-- FLIT_IDLE (R489). -/
  | flitIdle (p : PortNo) (fl : Flit) (tagOk : FlitCheck)
  /-- REPLAY_TIMEOUT (R498). -/
  | replayTimeout (p : PortNo)
  /-- KEY_CHANGE_TIMER (R512). -/
  | keyChangeTimer (p : PortNo)
  /-- LINK_PARAM (R491). -/
  | linkParam (p : PortNo) (m : LinkParam)
  /-- AUTH_HELLO (R506). -/
  | authHello (p : PortNo) (m : AuthHello)
  /-- AUTH_PROOF (R507). -/
  | authProof (p : PortNo) (m : AuthProof)
  /-- KA_POINT (R510). -/
  | kaPoint (p : PortNo) (point : List Byte)
  /-- KA_CONFIRM (R510). -/
  | kaConfirm (p : PortNo) (value : List Byte) (verifies : Bool)
  /-- KEY_NEXT (R512). -/
  | keyNext (p : PortNo) (kph : Bool)
  /-- LINK_DOWN (R522). -/
  | linkDown (p : PortNo) (code : BitVec 4)
  /-- DRAIN (R522). -/
  | drain (p : PortNo)
  /-- RETRAIN_REQ (R491). -/
  | retrainReq (p : PortNo)
  /-- FRAME_VOID (R537). -/
  | frameVoid (p : PortNo) (src : Ep) (tag : Tag)
  /-- JOIN (R658). -/
  | join (p : PortNo) (m : JoinMsg)
  /-- JOIN_RESEND (R657). -/
  | joinResend (p : PortNo)
  /-- PRESENCE_DETECT (R502). -/
  | presenceDetect (p : PortNo) (present : Bool)
  /-- PORT_TRAIN_STEP_FAIL (R503). -/
  | portTrainStepFail (p : PortNo) (lanesOk : StepFail)
  /-- PORT_TRAINED (R502). -/
  | portTrained (p : PortNo)
  /-- SIGNAL_LOSS (R515). -/
  | signalLoss (p : PortNo) (lane : BitVec 3)
  /-- ACK_STALL_TIMEOUT (R515). -/
  | ackStallTimeout (p : PortNo)
  /-- NO_GOOD_FLIT_TIMEOUT (R486). -/
  | noGoodFlitTimeout (p : PortNo)
  /-- REPLAY_RATE_WINDOW (R515). -/
  | replayRateWindow (p : PortNo)
  /-- RETRAIN_BACKOFF_EXPIRE (R518). -/
  | retrainBackoffExpire (p : PortNo)
  /-- PORT_ENABLE (R518). -/
  | portEnable (w : Who) (p : PortNo)
  /-- PORT_DISABLE (R518). -/
  | portDisable (w : Who) (p : PortNo)
  /-- RETRAIN (R518). -/
  | retrain (w : Who) (p : PortNo)
  /-- PORT_DRAIN (R521). -/
  | portDrain (w : Who) (p : PortNo)
  /-- PORT_DRAIN_EMPTY (R521). -/
  | portDrainEmpty (p : PortNo)
  /-- PORT_DRAIN_TIMEOUT (R521). -/
  | portDrainTimeout (p : PortNo)
  /-- FRAME_ADMIT (R530). -/
  | frameAdmit (p : Port) (c : Cls)
  /-- RESIDENCY_EXPIRE (R534). -/
  | residencyExpire (id : Nat)
  /-- FRAME_SCHEDULE (R567). -/
  | frameSchedule (p : Port)
  /-- ROUTE_NOTICE (R550). -/
  | routeNotice (p : PortNo) (f : Req)
  /-- RESTORE_NOTICE_TIMER (R551). -/
  | restoreNoticeTimer (p : PortNo)
  /-- OCCUPANCY_WINDOW (R548). -/
  | occupancyWindow (p : PortNo)
  /-- SWC_CLS_CFG_WRITE (R531). -/
  | swcClsCfgWrite (w : Who) (c : Cls) (v : Word)
  /-- WHEEL_ENTRY_DUE (R564). -/
  | wheelEntryDue (p : Port) (b : BucketId)
  /-- SHAPER_CONFIG_WRITE (R571). -/
  | shaperConfigWrite (w : Who) (p : Port) (off : BitVec 7) (v : Word)
  /-- ACTIVATE (R597). -/
  | activate (w : Who) (ten : TenantId)
  /-- DEACTIVATE (R598). -/
  | deactivate (w : Who) (ten : TenantId)
  /-- REMOVE (R599). -/
  | remove (w : Who) (ten : TenantId)
  /-- REMOVE_NOTICE (R599). -/
  | removeNotice (coord : DevId) (ten : TenantId)
  /-- REMOVE_MARKED (R599). -/
  | removeMarked (dev : DevId) (ten : TenantId)
  /-- TENANT_DMA_DRAIN (R599). -/
  | tenantDmaDrain (ten : TenantId)
  /-- REMOVE_DRAINED (R599). -/
  | removeDrained (dev : DevId) (ten : TenantId)
  /-- SCRUB (R600). -/
  | scrub (coord : DevId) (ten : TenantId)
  /-- SCRUBBED (R599). -/
  | scrubbed (dev : DevId) (ten : TenantId)
  /-- REMOVE_RESEND (R602). -/
  | removeResend (ten : TenantId)
  /-- REMOVE_TIMEOUT (R602). -/
  | removeTimeout (ten : TenantId)
  /-- COORDINATOR_QUERY (R602). -/
  | coordinatorQuery (w : Who) (ten : TenantId)
  /-- QUOTE (R611). -/
  | quote (w : Who)
  /-- FW_STAGE (R613). -/
  | fwStage (w : Who)
  /-- FW_VERIFY_DONE (R613). -/
  | fwVerifyDone (ok : Bool) (svn : Word) (digest : List Byte)
  /-- FW_SWITCH (R614). -/
  | fwSwitch (w : Who)
  /-- FW_COMMIT (R616). -/
  | fwCommit (w : Who)
  /-- TLS_HANDSHAKE (R607). -/
  | tlsHandshake (h : Handshake)
  /-- SESSION_IDLE_TIMEOUT (R609). -/
  | sessionIdleTimeout (i : BitVec 3)
  /-- INTERVAL_END (R634). -/
  | intervalEnd (inW : Nat) (doms : List (Nat × Nat))
  /-- THERMAL_READ (R640). -/
  | thermalRead (temps : List Int)
  /-- NOTE_REQUEST_DECAY (R626). -/
  | noteRequestDecay (die : BitVec 3)
  /-- NOTE_RAMP_END (R631). -/
  | noteRampEnd (die : BitVec 3)
  /-- DROOP_DETECT (R630). -/
  | droopDetect (dom : BitVec 5)
  /-- DROOP_RECOVER (R631). -/
  | droopRecover (dom : BitVec 5)
  /-- DROOP_RECOVER_TIMEOUT (R631). -/
  | droopRecoverTimeout (dom : BitVec 5)
  /-- UNDERVOLTAGE (R632). -/
  | undervoltage (dom : BitVec 5)
  /-- PWR_CAP_WRITE (R633). -/
  | pwrCapWrite (w : Who) (v : Word)
  /-- PWR_PHASE_WRITE (R643). -/
  | pwrPhaseWrite (w : Who) (v : Word)
  /-- POWER_UP (R653). -/
  | powerUp (b : BootInputs)
  /-- SHUTDOWN (R662). -/
  | shutdown (w : Who)
  /-- FL_READ (R647). -/
  | flRead (w : Who)
  /-- FL_PROGRAM (R647). -/
  | flProgram (w : Who)
  /-- FL_ERASE (R647). -/
  | flErase (w : Who)
  /-- REGISTRAR_TABLE_SYNC (R660). -/
  | registrarTableSync (t : SyncTable)
  /-- STACK_CODE_ERROR (R667). -/
  | stackCodeError (stk : Quad) (granule : Nat) (place : StackPlace)
  /-- BUFFER_PARITY_ERROR (R667). -/
  | bufferParityError (frame : Option Nat) (block : BitVec 12)
  /-- REREAD_RESULT (R669). -/
  | rereadResult (stk : Quad) (granule : Nat) (place : StackPlace) (ok : Bool)
  /-- PARTIAL_RESET_COMPLETE (R675). -/
  | partialResetComplete (region : BitVec 5) (ok : Bool)
  /-- BLT_ARM (R679). -/
  | bltArm (w : Who)
  /-- BLT_DISARM (R679). -/
  | bltDisarm (w : Who)
  /-- HP_DATA (R685). -/
  | hpData (h : Shim) (body : List Byte)
  /-- HP_ACK (R686). -/
  | hpAck (h : Shim)
  /-- HP_MGMT (R694). -/
  | hpMgmt (h : Shim) (m : MgmtMsg)
  /-- HP_PARAM (R686). -/
  | hpParam (h : Shim) (classes : BitVec 8) (credits : List Nat)
  /-- MOVE_HERE (R688). -/
  | moveHere (w : Who)
  /-- HOST_MOVE_NOTICE (R688). -/
  | hostMoveNotice (new : DevId)
  /-- HOST_MOVE_OLD (R688). -/
  | hostMoveOld (new : DevId)
  /-- HOST_MOVE_LOAD (R688). -/
  | hostMoveLoad (h : HostHandover)
  /-- MGMT_READ (R691). -/
  | mgmtRead (w : Who) (m : MgmtMsg)
  /-- MGMT_WRITE (R691). -/
  | mgmtWrite (w : Who) (m : MgmtMsg)
  /-- REGISTER_WRITE (R698). -/
  | registerWrite (w : Who) (a v : Word)
  /-- DHCPV4_LEASE (R689). -/
  | dhcpv4Lease (ip : Word)
  /-- MGMT_SESSION_CLOSE (R693). -/
  | mgmtSessionClose (i : BitVec 3)
  /-- HOST_ENDPOINT_UPDATE (R688). -/
  | hostEndpointUpdate (holder origin : DevId) (nseq : Word)
  /-- COMP_ID_ASSIGN (R453). -/
  | compIdAssign (home : DevId) (granted : Option CompId)
  /-- TILE_UNGATE_COMPLETE (R635). -/
  | tileUngateComplete (t : TileNo)
  /-- ACC_BINDING_ANSWER (R251). -/
  | accBindingAnswer (slot : BitVec 12) (accepted : Bool) (depth : Nat)
  /-- FAST_RAMP_BAR_END (R631). -/
  | fastRampBarEnd (die : BitVec 3)
  /-- COORDINATOR_QUERY_RECEIVE (R602). -/
  | coordinatorQueryReceive (dev : DevId) (ten : TenantId)
  /-- COORDINATOR_ANSWER (R602). -/
  | coordinatorAnswer (dev : DevId) (ten : TenantId) (running : Option Bool)
  /-- FLIT_CTRL_RESERVED (R491). -/
  | flitCtrlReserved (p : PortNo) (fl : Flit)
  /-- ROT_SWITCH_DONE (R614). -/
  | rotSwitchDone (ok : Bool)
  /-- TENANT_SCRUB_DONE (R600). -/
  | tenantScrubDone (ten : TenantId)
  /-- MGMT_FORWARD_ANSWER (R694). -/
  | mgmtForwardAnswer (m : MgmtMsg)
  /-- INCARNATION_NOTICE (R659). -/
  | incarnationNotice (dev : DevId)
  /-- JOURNAL_COMMIT (R386). -/
  | journalCommit
  /-- HEALTH_PERSIST (R414). -/
  | healthPersist
  /-- DRY_COMPACT (R423). -/
  | dryCompact
  /-- PFAIL_ASSERT (R432). -/
  | pfailAssert
  /-- DRYDOWN_IMAGE_COMMIT (R434). -/
  | drydownImageCommit
  /-- HOLDUP_TIMEOUT (R655). -/
  | holdupTimeout
  /-- HP_REPLAY_TIMEOUT (R686). -/
  | hpReplayTimeout
  /-- HP_LINK_DOWN (R686). -/
  | hpLinkDown
  /-- HP_PARAM_RETRY (R686). -/
  | hpParamRetry
  /-- VIN_RISE (R706). -/
  | vinRise
  /-- VIN_LOW (R707). -/
  | vinLow
  /-- VIN_OVERVOLTAGE (R708). -/
  | vinOvervoltage
  /-- VIN_OVERVOLTAGE_TRIP (R708). -/
  | vinOvervoltageTrip
  /-- PWR_EN_FALL (R710). -/
  | pwrEnFall
  /-- REFCLK_LOSS (R716). -/
  | refclkLoss
  /-- HOLDOVER_END (R716). -/
  | holdoverEnd
  /-- HOST_PHY_LINK_UP (R686). -/
  | hostPhyLinkUp
  /-- MGMT_LINK_UP (R689). -/
  | mgmtLinkUp
  /-- MGMT_LINK_DOWN (R689). -/
  | mgmtLinkDown
  /-- HOST_MOVE_RETRY (R688). -/
  | hostMoveRetry
  /-- VIN_FALL (R707). -/
  | vinFall
  /-- REFCLK_RETURN (R716). -/
  | refclkReturn
  /-- QUOTE_DONE (R611). -/
  | quoteDone
deriving DecidableEq, Repr

end Sys2Proof
end

