-- ==== Sys2Proof/Config.lean ====
section
/-! DEFINITION. What one implementation fixes, and the free values: constants with no body, of which no proof can see
a value. Fixed capacities and bounds of the spec's tables stand here under their own names. -/

namespace Sys2Proof.Config

/-- A byte the spec leaves unspecified, by the count of free values taken: the data of a POISON completion (R671). -/
opaque freeByte : Nat → Byte
/-- A byte of an SM3 digest (R606, R610); the standard is named, not described. -/
opaque sm3Byte : List Byte → Nat → Byte
/-- A byte of the device's unique secret (R604). -/
opaque udsByte : Nat → Byte
/-- A byte of an SM2 signature or certificate the root of trust makes under a key over a message (R506, R611, R612). -/
opaque signByte : List Byte → List Byte → Nat → Byte
/-- A byte of the root of trust's random source, by the count of free values taken (R506, R510, R659). -/
opaque randomByte : Nat → Nat → Byte
/-- A byte of the SM2 point, shared secret or confirmation value of R510 from the two hellos and the peer's point. -/
opaque agreeByte : List Byte → List Byte → Nat → Byte
/-- A byte a cipher stage returns for a data unit written under one key and read under another, from the keys, the storage tweak,
the unit's plaintext and the byte's place in it (R586, R588). -/
opaque wrongKeyByte : List Byte → List Byte → BitVec 128 → List Byte → Nat → Byte
/-- A byte of a link payload under the link cipher (R511), from key, IV place and plaintext. -/
opaque linkEncByte : List Byte → Nat → List Byte → Nat → Byte
/-- A byte of the plaintext of a link payload (R511), from key, IV place and ciphertext. -/
opaque linkDecByte : List Byte → Nat → List Byte → Nat → Byte
/-- Part of a link-cipher tag (R511), from key and group counter. -/
opaque linkTag : List Byte → Nat → Nat → Word

/-- A byte of the digest of a firmware bank's root-of-trust part, from the bank's digest (R614, Table 15.4). -/
opaque rotDigestByte : List Byte → Nat → Byte

/-- A byte of the configuration flash as the board or an earlier start left it (R645). -/
opaque cflashByte : Nat → Byte
/-- What an erased byte of the configuration flash reads as (R645, R647). -/
opaque cflashErased : Byte
/-- What a byte of the configuration flash becomes when it is programmed without an erase, from the old byte and the new. -/
opaque cflashOver : Byte → Byte → Byte

/-- An SM3 digest, 32 bytes. -/
def sm3 (m : List Byte) : List Byte := (List.range 32).map (sm3Byte m)
/-- Unique device secret, 32 bytes (R604). -/
def uds : List Byte := (List.range 32).map udsByte
/-- The bytes of an ASCII label. -/
def label (s : String) : List Byte := s.toList.map fun c => BitVec.ofNat 8 c.toNat
/-- A 32-bit big-endian number, as GB/T 32918.4 encodes its counter (R606). -/
def be32 (n : Nat) : List Byte := (leBytes n 4).reverse
/-- `n` bytes of the key derivation function KDF(Z, 8n) of R606. -/
def kdf (z : List Byte) (n : Nat) : List Byte :=
  (((List.range (ceilDiv n 32)).map fun k => sm3 (z ++ be32 (k + 1))).flatten).take n
/-- The media key's seed (R604); modes take 32 or 64 bytes of it. -/
def mediaKey (n : Nat) : List Byte := kdf (uds ++ label "DF-MEDIA") n
/-- The identity key's scalar source (R604). -/
def identityKey : List Byte := kdf (uds ++ label "DF-ID") 32
/-- The attestation key's scalar source under a measurement (R604). -/
def attestationKey (mr0 : List Byte) : List Byte := kdf (uds ++ mr0 ++ label "DF-AK") 32
/-- The fingerprint of a storage key: the first 64 bits of KDF(key ‖ "DF-FP", 64) (R588). -/
def fingerprint (key : List Byte) : BitVec 64 := BitVec.ofNat 64 (leAt (kdf (key ++ label "DF-FP") 8) 0 8)
/-- A 64-byte SM2 signature. -/
def sign (key m : List Byte) : List Byte := (List.range 64).map (signByte key m)
/-- `n` random bytes, the `k`-th draw. -/
def random (k n : Nat) : List Byte := (List.range n).map (randomByte k)

/-- A parity symbol of the inner code RS(216,205) over GF(2^10), from the data symbols (R483). -/
opaque innerParity : List (BitVec 10) → Nat → BitVec 10

/-- The geometry fingerprint of a FORMAT record (Table 9.8). -/
opaque geomPrint : List Nat → BitVec 64

/-- Device identity (Table 0.1). -/
def devid : Word := 0x025600B0

end Sys2Proof.Config
end

