-- ==== Sys2Proof/Machine/Operands.lean ====
section
/-! DEFINITION. The operand forms: opcodes, status codes, frame headers as bits and bytes, windows' bounds, and CRC-32C. -/

namespace Sys2Proof.Machine

/-! ### Opcodes (Table 2.2 and the device frames of R232, R190, R549) -/

namespace Op
def rdLine : BitVec 8 := 0x01
def wrLine : BitVec 8 := 0x02
def wrLineRel : BitVec 8 := 0x03
def fence : BitVec 8 := 0x08
def atomAdd : BitVec 8 := 0x10
def atomLogic : BitVec 8 := 0x11
def atomSwap : BitVec 8 := 0x12
def atomCas : BitVec 8 := 0x13
def atomMinmax : BitVec 8 := 0x14
def rdObj : BitVec 8 := 0x20
def sealObj : BitVec 8 := 0x21
def discard : BitVec 8 := 0x22
def tileXfer : BitVec 8 := 0x28
def accOpen : BitVec 8 := 0x30
def accContrib : BitVec 8 := 0x31
def accClose : BitVec 8 := 0x32
def gather : BitVec 8 := 0x38
def scatter : BitVec 8 := 0x39
def filter : BitVec 8 := 0x3A
def scoreSel : BitVec 8 := 0x3B
def expand : BitVec 8 := 0x3C
def ownOffer : BitVec 8 := 0x40
def ownAccept : BitVec 8 := 0x41
def cpl : BitVec 8 := 0xE0
def cplData : BitVec 8 := 0xE1
def routeNotice : BitVec 8 := 0xF3
end Op

/-- Sequenced in Table 2.2. -/
def opSequenced (o : BitVec 8) : Bool :=
  o == Op.wrLine || o == Op.wrLineRel || o == Op.atomAdd || o == Op.atomLogic || o == Op.atomSwap || o == Op.atomCas ||
    o == Op.atomMinmax

/-- An atomic of Table 2.4. -/
def opAtomic (o : BitVec 8) : Bool :=
  o == Op.atomAdd || o == Op.atomLogic || o == Op.atomSwap || o == Op.atomCas || o == Op.atomMinmax

/-- A line write. -/
def opLineWrite (o : BitVec 8) : Bool := o == Op.wrLine || o == Op.wrLineRel

/-- A line request (R64). -/
def opLine (o : BitVec 8) : Bool := o == Op.rdLine || opLineWrite o

/-- Object, tile, accord, engine and ownership opcodes, codes 0x20 to 0x41 of Table 2.2 (R727). -/
def opOwn (o : BitVec 8) : Bool :=
  o == Op.rdObj || o == Op.sealObj || o == Op.discard || o == Op.tileXfer || o == Op.accOpen || o == Op.accContrib ||
    o == Op.accClose || o == Op.gather || o == Op.scatter || o == Op.filter || o == Op.scoreSel || o == Op.expand ||
    o == Op.ownOffer || o == Op.ownAccept

/-- A request opcode of Table 2.2 (R53, R55). -/
def opRequest (o : BitVec 8) : Bool := opLine o || opAtomic o || o == Op.fence || opOwn o

/-! ### Completion status (Table 0.4, R22) -/

/-- The 5-bit code of a status. -/
def Status.code : Status → BitVec 5
  | .ok => 0x00 | .retry => 0x01 | .poison => 0x02 | .remap => 0x03 | .denied => 0x04 | .noSlot => 0x05
  | .altDelivered => 0x06 | .deadlineMiss => 0x07 | .revoked => 0x08 | .funcOff => 0x09 | .busyRetry => 0x0A
  | .format => 0x0B | .quota => 0x0C | .notOwner => 0x0D | .pathLost => 0x0E | .aborted => 0x0F

/-- What a received code means; a reserved one is taken as ABORTED (R19). -/
def statusOf (c : BitVec 5) : Status :=
  match c.toNat with
  | 0 => .ok | 1 => .retry | 2 => .poison | 3 => .remap | 4 => .denied | 5 => .noSlot | 6 => .altDelivered
  | 7 => .deadlineMiss | 8 => .revoked | 9 => .funcOff | 10 => .busyRetry | 11 => .format | 12 => .quota | 13 => .notOwner
  | 14 => .pathLost | _ => .aborted

/-- The place of a status in the order of R22. -/
def statusRank : Status → Nat
  | .denied => 1 | .revoked => 2 | .notOwner => 3 | .funcOff => 4 | .remap => 5 | .format => 6 | .quota => 7 | .noSlot => 8
  | .busyRetry => 9 | .retry => 10 | .pathLost => 11 | .poison => 12 | .aborted => 13 | .deadlineMiss => 14
  | .altDelivered => 15 | .ok => 16

/-- The first applicable of two codes (R22). -/
def statusFirst (a b : Status) : Status := if statusRank a ≤ statusRank b then a else b

/-! ### Headers (Tables 2.1 and 2.3) -/

/-- The 192-bit request header (Table 2.1). -/
def reqHeader (f : Req) : BitVec 192 :=
  f.rsv ++ f.hop ++ BitVec.ofBool f.dur ++ BitVec.ofBool f.ncmb ++ f.osz ++ f.subop ++ BitVec.ofBool f.dlx ++
    BitVec.ofBool f.raw ++ BitVec.ofBool f.newp ++ BitVec.ofBool f.seqd ++ BitVec.ofBool f.rsnd ++ BitVec.ofBool f.bep ++
    f.pgen ++ f.len ++ f.addr ++ BitVec.ofBool f.chk ++ f.cls ++ f.tenant ++ f.epoch ++ f.seq ++ f.tag ++ f.dst ++ f.src ++
    f.opcode

/-- The request a 192-bit header reads as (Table 2.1), with an extension and a payload. -/
def reqOfHeader (h : BitVec 192) (ext : BitVec 64) (payload : List Byte) : Req :=
  { opcode := h.extractLsb' 0 8, src := h.extractLsb' 8 12, dst := h.extractLsb' 20 12, tag := h.extractLsb' 32 16,
    seq := h.extractLsb' 48 16, epoch := h.extractLsb' 64 8, tenant := h.extractLsb' 72 12, cls := h.extractLsb' 84 3,
    chk := h.getLsbD 87, addr := h.extractLsb' 88 58, len := h.extractLsb' 146 13, pgen := h.extractLsb' 159 2,
    bep := h.getLsbD 161, rsnd := h.getLsbD 162, seqd := h.getLsbD 163, newp := h.getLsbD 164, raw := h.getLsbD 165,
    dlx := h.getLsbD 166, subop := h.extractLsb' 167 4, osz := h.extractLsb' 171 2, ncmb := h.getLsbD 173,
    dur := h.getLsbD 174, hop := h.extractLsb' 175 4, rsv := h.extractLsb' 179 13, ext := ext, payload := payload }

/-- The 96-bit completion header (Table 2.3). -/
def cplHeader (c : Cpl) : BitVec 96 :=
  c.rsv ++ c.hop ++ BitVec.ofBool c.dupl ++ BitVec.ofBool c.dura ++ c.cls ++ c.len ++ c.pgen ++ c.status ++ c.seq ++ c.tag ++
    c.src ++ c.dst ++ c.opcode

/-- The completion a 96-bit header reads as (Table 2.3), with its data. -/
def cplOfHeader (h : BitVec 96) (data : List Byte) : Cpl :=
  { opcode := h.extractLsb' 0 8, dst := h.extractLsb' 8 12, src := h.extractLsb' 20 12, tag := h.extractLsb' 32 16,
    seq := h.extractLsb' 48 16, status := h.extractLsb' 64 5, pgen := h.extractLsb' 69 2, len := h.extractLsb' 71 13,
    cls := h.extractLsb' 84 3, dura := h.getLsbD 87, dupl := h.getLsbD 88, hop := h.extractLsb' 89 4,
    rsv := h.extractLsb' 93 3, data := data }

/-- Frame bytes: header, extension and payload (R492). -/
def frameBytes : Frame → Nat
  | .req f => 24 + (if f.dlx then 8 else 0) + 16 * f.len.toNat
  | .cpl c => 12 + 16 * c.len.toNat

/-- A frame's bytes in wire order (R5, R51, R54, R57). -/
def frameWire : Frame → List Byte
  | .req f => leBytes (reqHeader f).toNat 24 ++ (if f.dlx then leBytes f.ext.toNat 8 else []) ++
      slice f.payload 0 (16 * f.len.toNat)
  | .cpl c => leBytes (cplHeader c).toNat 12 ++ slice c.data 0 (16 * c.len.toNat)

/-- The bytes that a frame's header says it takes, once enough of them stand to tell; 0 while they do not. -/
def wireLength (bs : List Byte) : Nat :=
  if byteAt bs 0 == Op.cpl || byteAt bs 0 == Op.cplData then
    if bs.length < 12 then 0 else 12 + 16 * bitsOf (leAt bs 0 12) 71 13
  else if bs.length < 24 then 0
  else 24 + (if bitsOf (leAt bs 0 24) 166 1 == 1 then 8 else 0) + 16 * bitsOf (leAt bs 0 24) 146 13

/-- The frame that whole wire bytes read as (R51, R57). -/
def frameOfWire (bs : List Byte) : Frame :=
  if byteAt bs 0 == Op.cpl || byteAt bs 0 == Op.cplData then
    .cpl (cplOfHeader (BitVec.ofNat 96 (leAt bs 0 12)) (bs.drop 12))
  else
    let h := BitVec.ofNat 192 (leAt bs 0 24)
    if h.getLsbD 166 then .req (reqOfHeader h (BitVec.ofNat 64 (leAt bs 24 8)) (bs.drop 32))
    else .req (reqOfHeader h 0 (bs.drop 24))

/-- The class of a frame. -/
def frameCls : Frame → Cls
  | .req f => f.cls
  | .cpl c => c.cls

/-- HOP of a frame (R554). -/
def frameHop : Frame → BitVec 4
  | .req f => f.hop
  | .cpl c => c.hop

/-- A frame with HOP set. -/
def frameSetHop (fr : Frame) (h : BitVec 4) : Frame :=
  match fr with
  | .req f => .req { f with hop := h }
  | .cpl c => .cpl { c with hop := h }

/-- The endpoint a frame goes to. -/
def frameDst : Frame → Ep
  | .req f => f.dst
  | .cpl c => c.dst

/-- The source endpoint a frame names (SRC of its header). -/
def frameSrc : Frame → Ep
  | .req f => f.src
  | .cpl c => c.src

/-- The tag of a frame. -/
def frameTag : Frame → Tag
  | .req f => f.tag
  | .cpl c => c.tag

/-- A request frame that may be pushed out (R533): RD_LINE or sequenced. -/
def framePushable : Frame → Bool
  | .req f => f.opcode == Op.rdLine || opSequenced f.opcode
  | .cpl _ => false

/-- A request frame. -/
def frameIsReq : Frame → Bool
  | .req _ => true
  | .cpl _ => false

/-- Credits a frame occupies (R492). -/
def frameCredits (fr : Frame) : Nat := ceilDiv (frameBytes fr) 16

/-- Cells a frame occupies (R525). -/
def frameCells (fr : Frame) : Nat := ceilDiv (frameBytes fr) 256

/-- The width in bytes of an operand size (Table 2.1, OSZ). -/
def oszBytes (o : BitVec 2) : Nat := 4 * 2 ^ o.toNat

/-! ### Completions -/

/-- The completion of a request with a status and data, from a completer endpoint (R57, R58, R60). -/
def mkCpl (f : Req) (src : Ep) (st : Status) (data : List Byte) : Cpl :=
  { opcode := if data.isEmpty then Op.cpl else Op.cplData, dst := f.src, src := src, tag := f.tag, seq := f.seq,
    status := Status.code st, pgen := f.pgen, len := BitVec.ofNat 13 (ceilDiv data.length 16), cls := f.cls, dura := false,
    dupl := false, hop := 0, rsv := 0, data := data }

/-! ### Windows (Tables 2.6 to 2.9) -/

/-- First byte of a window. -/
def winBase (w : Win) : Nat := bitsOf w.baseHi.toNat 0 26 * 2 ^ 32 + bitsOf w.baseLo.toNat 12 20 * 4096
/-- Last byte of a window: bits [11:0] taken as 0xFFF. -/
def winLimit (w : Win) : Nat := bitsOf w.limitHi.toNat 0 26 * 2 ^ 32 + bitsOf w.limitLo.toNat 12 20 * 4096 + 4095
/-- VALID. -/
def winValid (w : Win) : Bool := w.attr.getLsbD 31
/-- PROT. -/
def winProt (w : Win) : Bool := w.attr.getLsbD 29
/-- COH. -/
def winCoh (w : Win) : Bool := w.attr.getLsbD 28
/-- OBJ. -/
def winObj (w : Win) : Bool := w.attr.getLsbD 27
/-- AT. -/
def winAt (w : Win) : Bool := w.attr.getLsbD 26
/-- WR. -/
def winWr (w : Win) : Bool := w.attr.getLsbD 25
/-- RD. -/
def winRd (w : Win) : Bool := w.attr.getLsbD 24
/-- TARGET. -/
def winTarget (w : Win) : Ep := w.attr.extractLsb' 12 12
/-- TENANT. -/
def winTenant (w : Win) : TenantId := w.attr.extractLsb' 0 12

/-- A value written to a window register, its RSVD fields kept zero (Tables 2.7 to 2.9, R7). -/
def winMask (reg : BitVec 3) (v : Word) : Word :=
  match reg.toNat with
  | 0 => v &&& 0xFFFFF000
  | 1 => v &&& 0x03FFFFFF
  | 2 => v &&& 0xFFFFF000
  | 3 => v &&& 0x03FFFFFF
  | 4 => v &&& 0xBFFFFFFF
  | _ => 0

/-- A window with one register written (Table 2.6). -/
def winWrite (w : Win) (reg : BitVec 3) (v : Word) : Win :=
  match reg.toNat with
  | 0 => { w with baseLo := winMask reg v }
  | 1 => { w with baseHi := winMask reg v }
  | 2 => { w with limitLo := winMask reg v }
  | 3 => { w with limitHi := winMask reg v }
  | 4 => { w with attr := winMask reg v }
  | _ => w

/-- A window register as it reads (Table 2.6). -/
def winRead (w : Win) (reg : Nat) : Word :=
  match reg with
  | 0 => w.baseLo | 1 => w.baseHi | 2 => w.limitLo | 3 => w.limitHi | 4 => w.attr | _ => 0

/-! ### CRC-32C (Table 12.2) -/

/-- Eight steps of the reflected CRC-32C register. -/
def crcStep : Nat → Word → Word
  | 0, c => c
  | n + 1, c => crcStep n (if c.getLsbD 0 then (c >>> 1) ^^^ 0x82F63B78 else c >>> 1)

/-- The CRC register after some bytes. -/
def crcRun (c : Word) : List Byte → Word
  | [] => c
  | b :: bs => crcRun (crcStep 8 (c ^^^ b.setWidth 32)) bs

/-- CRC-32C: initial value all ones, final value inverted (Table 12.2). -/
def crc32c (bs : List Byte) : Word := ~~~ (crcRun 0xFFFFFFFF bs)

/-! ### The stack code (R668) -/

/-- One bit taken into the CRC register, the most significant bit first. -/
def crc16Bit (c : BitVec 16) (b : Bool) : BitVec 16 := if c.getLsbD 15 == b then c <<< 1 else (c <<< 1) ^^^ 0x8BB7

/-- One byte taken in. -/
def crc16Byte (c : BitVec 16) (x : Byte) : BitVec 16 := (List.range 8).foldl (fun c k => crc16Bit c (x.getLsbD (7 - k))) c

/-- The stack code of a granule: over its 64 bytes and its fabric-address bits [57:6] as 7 little-endian bytes. -/
def stackCode (bs : List Byte) (a : Nat) : BitVec 16 := (slice bs 0 64 ++ leBytes (a / 64) 7).foldl crc16Byte 0

/-! ### Signed numbers -/

/-- `n` little-endian bytes from a place as a two's complement number. -/
def sleAt (bs : List Byte) (i n : Nat) : Int :=
  let v := leAt bs i n
  if v < 2 ^ (8 * n - 1) then (v : Int) else (v : Int) - 2 ^ (8 * n)

end Sys2Proof.Machine
end

