-- ==== Sys2Proof/Machine/Types.lean ====
section
/-! DEFINITION. The parts of the state, unit by unit: the tables, registers and queues the spec gives the DF-256T,
chapters 02 to 07.
Tables are association lists; a key that is not listed holds the entry's reset value. -/

namespace Sys2Proof.Machine

/-- A table: keys with their entries, oldest entry first. -/
abbrev Tbl (κ α : Type) := List (κ × α)

/-! ### Ingress (02) -/

/-- A pair: source, destination and class (R88). -/
abbrev PairKey := Ep × Ep × Cls

/-- A pair's counter at its ingress device (R88 to R95, R119, R547). -/
structure Pair where
  next : Seq            -- next sequence number (R88)
  newp : Bool           -- the next sequenced request carries NEWP (R93, R94, R115)
  gated : Bool          -- a request with NEWP = 1 is outstanding (R93)
  settleUntil : Nat     -- end of the settling period (R119)
  oldestResent : Option Seq
  slot : Nat            -- ingress slot of the pair (R547)
  lastUse : Nat         -- for eviction (Table 2.11)
deriving DecidableEq, Repr

/-- An outstanding request in the tracker, with its frame copy (Table 2.11). -/
structure Track where
  f : Req
  port : Port
  first : Nat           -- count of first forwarding (R115)
  latest : Nat          -- count of the latest sending (R113)
  order : Nat           -- issue order of the source (R103)
  scope : Nat           -- release scope it belongs to (R103)
  path : List (DevId × PortNo)  -- the links its latest copy's route crosses (R112)
  comp : CompId         -- the composition of its port when it was stamped (R455)
deriving DecidableEq, Repr

/-- A request held in a port buffer (R89, R106, R119, R456). -/
structure Held where
  f : Req
  port : Port
  order : Nat
  scope : Nat
  polHeld : Bool        -- already counted in SHP_POL_HELD (R574)
deriving DecidableEq, Repr

/-- How the requests of one release scope ended so far (R104, R107). -/
structure ScopeEnd where
  scope : Nat
  lost : Bool           -- one completed with PATH_LOST
  failed : Bool         -- one completed with another status than OK or ALT_DELIVERED
  notOk : Bool          -- one completed with another status than OK
deriving DecidableEq, Repr

/-- A source's issue order, scopes, and the FENCE and WR_LINE_RELs it waits on (R103 to R107). -/
structure SrcRec where
  order : Nat
  scope : Nat
  ends : List ScopeEnd
  fence : Option Held
  rels : List Held
deriving DecidableEq, Repr

/-- The ingress device's state (R84 to R119). -/
structure Ingress where
  wins : Tbl (Port × BitVec 8) Win     -- LNK_WIN_ and SWC_HWIN_ (R81)
  buf : List Held
  pairs : Tbl PairKey Pair
  trk : List Track
  holds : List (Ep × Tag × Nat)        -- SRC and TAG kept after PATH_LOST, until a count (R117)
  srcs : Tbl Ep SrcRec
deriving DecidableEq, Repr

/-! ### Egress (02) -/

/-- A request as the egress device took it, with the generation tag of its tenant's slot (R590). -/
structure EReq where
  f : Req
  gen : BitVec 16
deriving DecidableEq, Repr

/-- One pair in the egress order table (R96 to R99, R138). -/
structure Ord where
  e : Seq
  start : Seq           -- start recorded by a request with NEWP = 1 (R97)
  startAt : Option Nat  -- its count
  floor : Option Seq    -- log floor: sequence numbers up to it are evicted (R100, R120)
  held : List EReq
  raws : List EReq      -- RD_LINEs with RAW = 1 held (R99)
  joiner : Option Nat   -- a joiner of this combine entry is unanswered (R138)
  refusing : Bool       -- held and later requests complete with RETRY until NEWP (R422)
  lastUse : Nat
deriving DecidableEq, Repr

/-- What the completion log holds for an applied request (R100, R728). -/
inductive LogState where
  | done (c : Cpl)
  | pending (dups : List Req)
  | unknown
deriving DecidableEq, Repr

/-- One completion log entry (R100). -/
structure LogEnt where
  key : PairKey
  seq : Seq
  tenant : TenantId
  state : LogState
  at_ : Nat
deriving DecidableEq, Repr

/-- A request sent to a destination behind a port, not yet answered (R728). -/
structure DestReq where
  f : Req
  port : Port
  entry : Option Nat    -- the combine entry it leads, or whose follow-up it is
deriving DecidableEq, Repr

/-- The egress device's state. -/
structure Egress where
  ord : Tbl PairKey Ord
  log : List LogEnt
  dest : List DestReq
deriving DecidableEq, Repr

/-! ### Combining and coherence (03) -/

/-- The combine key (Table 3.1). -/
structure CKey where
  opcode : BitVec 8
  subop : BitVec 4
  osz : BitVec 2
  dst : Ep
  addr : Addr
  tenant : TenantId
  epoch : Epoch
  coherent : Bool
deriving DecidableEq, Repr

/-- A combine entry (R126 to R132). -/
structure CEntry where
  id : Nat
  slice : Quad
  key : CKey
  members : List EReq   -- lead first, in merge order
  isOpen : Bool
  res : Option (Status × List Byte)  -- what the lead or the follow-up returned, once it is known
  at_ : Nat             -- count of allocation (R128)
  followup : Bool       -- the follow-up atomic is outstanding (R131)
  sentAt : Nat          -- count at which the lead or follow-up was sent (R136)
  filling : Bool        -- the lead is answered; READ_SHARED joiners wait for their back-invalidations (R130, R165)
deriving DecidableEq, Repr

/-- The combine slices and their registers (R167). -/
structure Combine where
  ents : List CEntry
  nextId : Nat
  joinUs : BitVec 8
  readEn : Bool
  atomEn : Bool
  enable : Bool
  pass : Nat            -- SWC_CMB_PASS
deriving DecidableEq, Repr

/-- A snoop filter entry's state (R152). -/
inductive CohState where
  | shared | owned
deriving DecidableEq, Repr

/-- One line of a partition: line number, state and fill order (R152, R156). -/
structure CLine where
  line : Nat
  st : CohState
  fill : Nat
deriving DecidableEq, Repr

/-- A port's coherent agent: COH_ registers and its partition (R148 to R163). -/
structure Part where
  attach : Bool         -- ATTACH, WAYS_LOG2 and SETS_LOG2 as last written (Table 3.9)
  cfgWays : BitVec 4
  cfgSets : BitVec 4
  ways : BitVec 4       -- the geometry of the partition (R152)
  sets : BitVec 4
  attached : Bool
  detaching : Bool
  failed : Bool
  refused : Bool
  stray : Nat
  lines : List CLine
deriving DecidableEq, Repr

/-- What a coherent transaction does once its snoops are answered (Table 3.4). -/
inductive CohKind where
  | readShared | readOwn | claim | write | atomic | detach
  | join (data : List Byte)   -- a READ_SHARED joiner waiting for its back-invalidation (R165)
deriving DecidableEq, Repr

/-- A coherent transaction in progress, or waiting for its line (R154). -/
structure Txn where
  id : Nat
  line : Nat
  kind : CohKind
  port : PortNo         -- the requester's port
  f : EReq
  begun : Bool
  back : Option Tag     -- the back-invalidation it waits for (R156)
  wait : List Tag       -- the snoops it waits for
  lost : Bool           -- an owner failed (R161)
  entry : Option Nat    -- the combine entry it leads, or that its joiner waits in
  ran : Bool            -- a combined atomic's lead has run; the line is kept for the follow-up (R166)
deriving DecidableEq, Repr

/-- An outstanding snoop (R157 to R159). -/
structure Snoop where
  port : PortNo
  tag : Tag
  line : Nat
  inval : Bool
  txn : Nat
  sent : Bool           -- false while 256 snoops of the agent are outstanding before it (R159)
  at_ : Nat             -- count of its sending
deriving DecidableEq, Repr

/-- The coherence home (R145 to R166). -/
structure Coh where
  parts : Tbl PortNo Part
  txns : List Txn
  snoops : List Snoop
  nextTxn : Nat
  nextTag : Nat
  fillNo : Nat
deriving DecidableEq, Repr

/-! ### Engine (04 to 07) -/

/-- A work descriptor on a tile: the request it belongs to and which portion (R171, R201). -/
structure Desc where
  src : Ep
  tag : Tag
  portion : Nat
deriving DecidableEq, Repr

/-- What a format check of a zero-skip stream names, and a re-read reads again (Table 7.5, R320). -/
inductive ZskItem where
  | header
  | index
  | block (b : Nat)
  | group (g : Nat)
deriving DecidableEq, Repr

/-- A tile's part in a re-read (R320, R322): none, its own pending, or another tile's that it waits for. -/
inductive Reread where
  | none
  | asked (x : ZskItem)
  | follows (x : ZskItem)
deriving DecidableEq, Repr

/-- The zero-skip expansion of a tile's running portion (R316, R320): its blocks expanded so far, and how many bytes of the
stretch of blocks it is in have gone into the smoothing queue. -/
structure ZskRun where
  src : Ep
  tag : Tag
  portion : Nat
  blocks : Nat
  filled : Nat
  reread : Reread
deriving DecidableEq, Repr

/-- A tile (R170 to R173, Table 4.18). -/
structure TileRec where
  gated : Bool
  failed : Bool
  marked : Bool         -- marked for gating (R204)
  ungating : Bool       -- being ungated (R635)
  t0 : Nat              -- T0_UNITS
  queue : List Desc     -- the running descriptor first
  zsk : Option ZskRun
  tenants : List TenantId  -- whose work it ran since it was last zeroized (R600)
  smooth : List Byte    -- the expansion smoothing queue, oldest byte first (R316)
  sram : List Host.Cell -- what the tier-0 area holds, by offset in the tile SRAM (R172, R337)
deriving DecidableEq, Repr

/-- One selected position (Table 6.5). -/
structure Scored where
  pos : Nat
  score : Int
  exp : Int
deriving DecidableEq, Repr

/-- A portion of an engine request: its ranges of units of division, first and count (R201, R280, R291), whether it stands on a
tile (R202) and whether it is done, and the selection list that its tile holds in its working area (R293). -/
structure Portion where
  runs : List (Nat × Nat)
  placed : Bool
  done : Bool
  best : List Scored
deriving DecidableEq, Repr

/-- A tensor descriptor (Table 4.8). -/
structure Tensor where
  base : Nat
  rank : Nat
  etype : Nat
  planar : Bool
  zskip : Bool
  expAddr : Nat
  dims : List Nat
  strides : List Int
deriving DecidableEq, Repr

/-- A device frame outstanding (R190): its first byte, its length, and what it writes; none: it reads. -/
structure FarFrame where
  a : Nat
  n : Nat
  data : Option (List Byte)
deriving DecidableEq, Repr

/-- An engine request at its executing device (R194, R199 to R203). -/
structure EngReq where
  f : Req
  quad : Quad
  no : Nat              -- order of acceptance (R191 ORDERED)
  at_ : Nat             -- count of queue entry
  gen : BitVec 16       -- generation tag (R590)
  deadline : Option Nat -- R351
  own : Option Oid      -- the object whose expanding copy the device fills with it (R311)
  judged : Bool         -- its deadline has been decided (R296, R353)
  asked : Bool          -- the frames for what says which data it reads have gone out (R190, R285)
  started : Bool        -- its first portion has started on a tile (R210)
  portions : List Portion
  tiles : List TileNo   -- tiles that ran or run it
  alt : Option Tensor   -- the alternate, once that was chosen (R296, R353)
  frames : List FarFrame  -- its device frames outstanding
  closing : Bool        -- every portion is done and every write sent; their answers are awaited (R279)
  staged : Tbl Nat Byte -- bytes returned by device frames, or by a re-read (R190, R320)
  sat : Nat
  countA : Nat          -- OP_INFO bytes 8-11
  countB : Nat          -- OP_INFO bytes 12-15
  passes : List Nat     -- passing records found so far (R273)
  notice : Nat          -- count of the latest progress notice (R194)
deriving DecidableEq, Repr

/-- The ENG_ state (Tables 4.11 to 4.18, 6.7 to 6.9, 7.6, 7.7). -/
structure Eng where
  tiles : Tbl TileNo TileRec
  reqs : List EngReq
  nextNo : Nat
  maxTiles : BitVec 10
  splitLog2 : BitVec 5
  enabled : List EngFn
  draining : List (EngFn × Option Nat)  -- functions draining, and the count of the write; none: step 6 is cancelled (R211, R214)
  abortedSeen : List EngFn
  drainUs : BitVec 16
  satTotal : Nat
  selAllowUs : BitVec 8
  selAlt : Nat
  selMiss : Nat
  fltTrunc : Nat
  zskDamaged : Nat
  zskRecovered : Nat
  zskStall : Nat
deriving DecidableEq, Repr

/-! ### Accords (05) -/

/-- A member of an accord in a round (R229 to R234, R247). -/
structure MemberRec where
  ep : Ep
  startTag : Option Tag -- the start accepted in this round
  startNo : Nat         -- its order of acceptance (R191 ORDERED)
  cls : Cls
  expected : Nat        -- the segment expected next
  failed : Bool
  done : Bool           -- its start is completed
  last : Nat            -- count of its last frame
  notice : Nat          -- count of the latest progress notice (R194)
  child : Option Word   -- the child accord bound at this index (R251)
  report : Option Report
deriving DecidableEq, Repr

/-- One stripe's accumulator (R236, R237): the segment, the stripe, the members whose slice arrived, and the blocks. -/
structure Stripe where
  seg : Nat
  stripe : Nat
  tile : TileNo
  arrived : List Nat
  lanes : List (List Int)
  exps : List (Option Int)
  raw : List Byte
  done : Bool
deriving DecidableEq, Repr

/-- Slot state (Table 5.16). -/
inductive AccState where
  | free | idle | active | closing
deriving DecidableEq, Repr

/-- An accord slot (R218 to R258). -/
structure Accord where
  state : AccState
  gen : BitVec 14
  opener : Ep
  openTag : Tag
  tenant : TenantId
  cls : Cls
  epoch : Epoch
  quad : Quad
  op : BitVec 4
  etype : BitVec 2
  deliver : BitVec 2
  onFail : Bool
  elemBytes : Nat
  stallUs : Nat
  idleMs : Nat
  parent : Word
  parentMember : BitVec 10
  bound : Bool          -- the parent accepted (R251), or the accord is a root
  bindAt : Nat
  depth : Nat
  result : Option Tensor
  keyGen : BitVec 16    -- generation tag of the opening (R590)
  tiles : List TileNo
  allotted : Nat        -- T (R225)
  window : Nat          -- W (R226)
  nextRound : BitVec 16
  members : List MemberRec
  roundAt : Nat
  b : Nat               -- B: lowest segment whose result is not queued (R235)
  stripes : List Stripe
  sat : Nat
  upWait : List (Nat × List Byte) -- a child's result segments that wait for the parent's window (R235, R252)
  upSent : Bool         -- the child's report has been sent (R253)
  writes : List FarFrame  -- device frames that write RESULT and are not yet answered (R243, R245)
  idleSince : Nat
  no : Nat              -- the number of its opening among the engine requests (R339)
deriving DecidableEq, Repr

/-- The accord sequencers (R218, R267). -/
structure Acc where
  slots : Tbl (BitVec 12) Accord
  wins : Tbl (Ep × Tag) WinNote  -- window notices held at ingress (R235)
  units : BitVec 3
  noslot : Nat
  stray : Nat
deriving DecidableEq, Repr

end Sys2Proof.Machine
end

