-- ==== Sys2Proof/Machine/TypesObj.lean ====
section
/-! DEFINITION. The parts of the state of chapters 08 to 11: objects, flash, drydown, compositions and ownership. -/

namespace Sys2Proof.Machine

/-! ### Objects (08) -/

/-- A tier-1 copy of a home-tier-3 object (Table 8.2 T1STATE). -/
inductive T1State where
  | none | filling | valid
deriving DecidableEq, Repr

/-- A part of a tier-0 replica: its tile and the units of the tile's tier-0 area that hold it, in the order of its bytes
(R337). -/
structure T0Part where
  tile : TileNo
  units : List Nat
deriving DecidableEq, Repr

/-- An object descriptor (Table 8.2) with the object's work in flight. -/
structure Obj where
  tier : BitVec 2
  zskip : Bool          -- FORMAT
  prot : Bool
  isSealed : Bool
  damaged : Bool
  etype : BitVec 2
  t1 : T1State
  t0rep : Bool
  sealing : Bool
  cdense : Bool
  tenant : TenantId
  stackMask : BitVec 4
  qmask : BitVec 4
  size : Nat
  rows : Nat
  rowBytes : Nat
  addr : Nat
  alt : Oid
  deleted : Bool        -- DELETE took effect; space not yet freed (R339)
  runs : List (Nat × Nat)  -- logical runs of a sealed object: start and count (R371)
  t0tiles : List T0Part  -- the parts of the replica
  fillsT0 : Bool        -- a replica is loading
  fillGen : BitVec 16   -- generation tag of the copy that is filling (R590)
deriving DecidableEq, Repr

/-- An aperture page: its object, the stack that backs it and the 4 KiB frame there (R330), and for a page that was given up the
number below which engine requests may still use it (R339). -/
structure PageRec where
  oid : Oid
  stack : Quad
  frame : Nat
  gone : Option Nat
deriving DecidableEq, Repr

/-- A run of aperture pages of an object, backed by as many frames of one stack in the same order (R330), and as in `PageRec` whether
it was given up. -/
structure PageRun where
  first : Nat
  n : Nat
  oid : Oid
  stack : Quad
  frame : Nat
  gone : Option Nat
deriving DecidableEq, Repr

/-- A run of frames of a stack. -/
structure FrameRun where
  stack : Quad
  frame : Nat
  n : Nat
deriving DecidableEq, Repr

/-- A step of a stream plan (R355, R356). -/
structure PlanStep where
  oid : Oid
  first : Nat
  rows : Nat
  staged : Bool
  need : List Nat       -- units still being fetched
  got : Tbl Nat (List Byte) -- the units the staging holds
  served : List Nat     -- rows of the step delivered so far
  over_ : Bool          -- consumed, skipped, or larger than STAGE
deriving DecidableEq, Repr

/-- An open stream plan (R355). -/
structure Plan where
  oid : Oid
  tenant : TenantId
  stage : Nat           -- STAGE, in 64 KiB units
  count : Nat           -- steps of the plan
  frames : List FrameRun      -- the staging's pages
  waits : List Nat      -- units of the plan object still being fetched
  got : Tbl Nat (List Byte) -- and those fetched
  steps : List PlanStep -- empty until the plan object has been read
deriving DecidableEq, Repr

/-- A copy or a replica that fills (R337): the units of flash it awaits (R358), for an expanding copy those at hand and whether
its EXPAND has been issued (R311), and for a replica of a tray object the bytes it awaits. -/
structure Fill where
  oid : Oid
  t0 : Bool
  expand : Bool
  issued : Bool
  waits : List Nat
  got : Tbl Nat (List Byte)
  frames : List FarFrame
deriving DecidableEq, Repr

/-- A read of an object in progress: an RD_OBJ, and the units it waits for (R347, R358). -/
structure ObjRead where
  f : Req
  gen : BitVec 16
  deadline : Option Nat
  useAlt : Bool           -- the alternate's rows are read
  oid : Oid               -- the object that is read: the one named, or its alternate
  waits : List Nat        -- units not yet fetched
  got : Tbl Nat (List Byte) -- units fetched
  tray : Option Nat       -- first tray byte awaited (R190)
  retried : Bool          -- a format failure made it read once again (R320)
  done : Option (List Byte)  -- its record, while the answers to the writes of its rows are awaited (R361)
  frames : List FarFrame
  notice : Nat
deriving DecidableEq, Repr

/-- An outstanding tier-3 unit fetch (R358), with the page its map entry named when it was read (R394), or that the entry named
none and the unit is lost (R373). -/
structure Fetch where
  oid : Oid
  unit : Nat
  page : Option PageAddr
  lost : Bool
  at_ : Nat
deriving DecidableEq, Repr

/-- The object table and its neighbours (R331 to R363). -/
structure ObjSt where
  tab : Tbl Oid Obj
  nextSerial : Nat
  pages : List PageRun           -- the allocated aperture pages
  quotaLim : Tbl (TenantId × BitVec 2) Nat
  quotaUse : Tbl (TenantId × BitVec 2) Nat
  plans : Tbl (BitVec 8) Plan
  fills : List Fill
  reads : List ObjRead
  fetches : List Fetch
  damagedExt : List (Oid × Nat)
  t1BaseHi : BitVec 19
  t3LatUs : BitVec 12
  t3Rate : BitVec 12
  allowUs : BitVec 8
  dlAlt : Nat
  dlMiss : Nat
  dmg : Nat
deriving DecidableEq, Repr

/-! ### Flash tier (09) -/

/-- A map entry (Table 9.3): unmapped, mapped, discarded or damaged. -/
inductive MapEnt where
  | unmapped
  | mapped (a : PageAddr)
  | discarded
  | damaged
deriving DecidableEq, Repr

/-- What a block is used for. -/
inductive BlkUse where
  | free | sealOpen | relocOpen | closed | reserved | erasing | bad
deriving DecidableEq, Repr

/-- A NAND block (R381, R382, R392, R402, R403). -/
structure BlkRec where
  use : BlkUse
  erases : Nat
  nextPage : Nat
  soft : Nat            -- codewords that needed rung 3 since the last erase
  readAt : Nat          -- count of its latest patrol read
  cause : Nat           -- Table 9.11, when bad
deriving DecidableEq, Repr

/-- A delta of the map: the unit, the entry replaced and the new entry (R387, R388). -/
structure Delta where
  unit : Nat
  old : MapEnt
  new : MapEnt
deriving DecidableEq, Repr

/-- The body of a journal record (Table 9.8). -/
inductive JBody where
  | format (l : Nat)
  | sealRec (oid : Oid) (o : Obj) (target : Option Oid) (deltas : List Delta)
  | gc (victim : BlkAddr) (deltas : List Delta)
  | erase (b : BlkAddr) (erases : Nat)
  | discard (oid : Oid) (first count : Nat)
  | delete (oid : Oid)
  | retire (b : BlkAddr) (cause : Nat)
  | segment (index : Nat)
  | damage (oid : Oid) (unit : Nat)
  | serial (floor : Nat)
deriving DecidableEq, Repr

/-- A journal record (R385, R386): the pages it still needs programmed, and the request that waits on it. -/
structure JRec where
  jseq : Nat
  body : JBody
  needs : List PageAddr   -- pages of its units not yet reported programmed
  ready : Bool            -- false while a seal or a cycle has yet to write it
  waiter : Option Req
deriving DecidableEq, Repr

/-- A garbage-collection cycle (Table 9.9). -/
structure Cycle where
  victim : BlkAddr
  jseq : Nat
  copies : List (Nat × PageAddr × PageAddr)  -- unit, old page, new page
  bad : List Nat        -- units found uncorrectable (R398)
  committed : Bool
  erasing : Bool
deriving DecidableEq, Repr

/-- A seal in progress (Table 1.5). -/
structure SealRun where
  f : Req
  oid : Oid
  target : Option Oid
  gen : BitVec 16
  jseq : Nat              -- reserved for its record
  units : List (Nat × PageAddr)  -- unit of the object and the page it is placed on
  runs : List (Nat × Nat)
  notice : Nat
deriving DecidableEq, Repr

/-- The health registers (Table 9.21) that count events. -/
structure Health where
  corr : Nat
  retry : Nat
  soft : Nat
  uncorr : Nat
  pgmFail : Nat
  ersFail : Nat
  grown : Nat
  factory : Nat
  refresh : Nat
  temps : List Nat
  spareAtFormat : Nat
deriving DecidableEq, Repr

/-- A programmed page: its data as plaintext, the key it was encrypted under ([]: the media key), and LUNIT and WSEQ of
Table 9.4. -/
structure PageData where
  data : List Byte
  key : List Byte
  lunit : Nat
  wseq : Nat
deriving DecidableEq, Repr

/-- What the flash itself keeps through power loss: the anchor's FORMAT record, page contents, committed records and the
persisted health counters (R384, R389, R414). -/
structure FlashMedia where
  formatted : Option (Nat × Geom)
  pages : Tbl PageAddr PageData
  committed : List (Nat × JBody)  -- durable records, in JSEQ order
  tail : Nat                      -- the journal's tail (R389)
  health : Option Health
  imgSeq : Nat
  serial : Nat                    -- the model's own: the first serial never assigned, where no journal keeps it (R331)
  base : Tbl BlkAddr BlkRec       -- erase counts and bad-block table as the format left them (R402)
deriving DecidableEq, Repr

/-- FTL_STAT.STATE (Table 9.16). -/
inductive FtlState where
  | discovering | formatting | replaying | online | offline
deriving DecidableEq, Repr

/-- The translation layer (R364 to R415). -/
structure Ftl where
  state : FtlState
  rdonly : Bool
  geom : Geom
  targets : Nat
  l : Nat
  freeHi : BitVec 10
  freeLo : BitVec 10
  freeCrit : BitVec 10
  share : BitVec 7
  wlDelta : BitVec 16
  patrolH : BitVec 8
  refreshBits : BitVec 8
  profile : FlashProfile
  map : Tbl Nat MapEnt
  blocks : Tbl BlkAddr BlkRec
  journal : List JRec    -- not yet committed
  nextJ : Nat
  jBytes : Nat           -- bytes in the ring (R389, R390)
  gc : List Cycle
  refreshQ : List BlkAddr  -- refresh and relocation queue (R377, R383)
  gcOn : Bool            -- collection runs: free blocks fell below FREE_LO and have not reached FREE_HI (R391)
  wlTurn : Nat           -- victims to choose before the wear rule may choose again (R392)
  seals : List SealRun
  health : Health
  tempAt : Nat
  persistAt : Nat
  media : FlashMedia
deriving DecidableEq, Repr

/-! ### Drydown (10) -/

/-- A drydown buffer record (Table 10.1). -/
structure DryRec where
  oid : Oid
  line : Nat
  desc : Option Obj      -- KIND 2: the descriptor
  tenant : TenantId
  data : List Byte       -- KIND 1: the line
  key : List Byte        -- the key the line stands encrypted under in the stack
  live : Bool
  bad : Bool             -- both copies failed their code (R424)
deriving DecidableEq, Repr

/-- The drydown image (Tables 10.3 and 10.4). -/
structure DryImg where
  seq : Nat
  jseqFirst : Nat
  pend : List (Nat × JBody)
  recs : List DryRec
  chosen : Bool          -- steps 5 and 6 of Table 10.2 are done
  committed : Bool
  startAt : Nat
  durationUs : Nat
  crc : Word             -- of its commit page, over the header page and every data page
deriving DecidableEq, Repr

/-- The DRY_ state (Tables 10.8 to 10.12). -/
structure Dry where
  armed : Bool
  measured : Bool
  huLow : Bool
  exposed : Bool
  drying : Bool
  last : BitVec 2
  huE : Nat
  huC : Nat
  limit : Nat            -- DRY_LIMIT in bytes
  limitStart : Nat
  limitSet : Bool
  regionErased : Bool
  replayStep7 : Bool
  lastUs : Nat
  refuse : Nat
  buf : List DryRec
  image : Option DryImg
deriving DecidableEq, Repr

/-! ### Compositions, leases, ownership (11) -/

/-- Lease state (Table 11.2). -/
inductive LeaseState where
  | free | reserved | active | expired | lost | scrubbing
deriving DecidableEq, Repr

/-- A lease entry (Table 11.2), with the bits an ABORT restores (R462). -/
structure Lease where
  gen : BitVec 10
  comp : CompId
  target : Ep
  base : Nat
  limit : Nat
  state : LeaseState
  inPrev : Bool
  inCur : Bool
  leave : Bool
  cut : Bool
  termMs : Nat
  expiry : Nat
  saved : Option (LeaseState × Bool × Bool)
deriving DecidableEq, Repr

/-- Composition state (Table 11.14). -/
inductive CompState where
  | free | up | changing | down
deriving DecidableEq, Repr

/-- A composition as this device holds it (R454, R461). -/
structure CompRec where
  state : CompState
  home : DevId
  epoch : Epoch          -- newest epoch at this device
  stamp : Epoch          -- epoch that the ingress checks stamp: changes at step 5 of Table 11.3
  sillage : Bool
  reach : BitVec 64
  sentAt : Option Nat    -- count of the latest frame this device stamped with `stamp`
  oldAt : Option Nat     -- count of the latest frame it sent or resent with the previous epoch (R461)
  drained : Bool         -- DRAINED answered
  destroying : Bool      -- the change in progress is a COMP_DESTROY (R469)
  leaseDevs : BitVec 64  -- at the home: devices that hold leases of it (R468)
deriving DecidableEq, Repr

/-- A staged entry (R458). -/
inductive Staged where
  | win (c : CompId) (p : PortNo) (w : BitVec 8) (v : Win)
  | port (c : CompId) (p : PortNo) (bind : Bool)
  | lease (c : CompId) (slot : BitVec 16) (cut : Bool)
deriving DecidableEq, Repr

/-- A change as its home drives it (Table 11.3). -/
structure Change where
  w : Who
  devices : BitVec 64
  reach : BitVec 64
  epoch : Epoch
  prior : CompState
  destroy : Bool
  step : Nat
  at_ : Nat              -- count of step 2, or of the latest SWITCH sending
  firstSwitch : Nat
  ready : BitVec 64
  switched : BitVec 64
  drained : BitVec 64
  binds : List (Ep × CompId)  -- the bindings the devices reported
  lost : Bool            -- a LOST lease stays in the composition (R468)
  holders : BitVec 64    -- devices that hold leases of it
deriving DecidableEq, Repr

/-- What the registrar does once a gate is acknowledged (R476). -/
inductive OwnAnswer where
  | none
  | silent                 -- a transition no request waits for: an offer that expired
  | cpl (f : Req)
  | cmd (w : Who)
deriving DecidableEq, Repr

/-- An ownership record (Table 11.5), and the transition that waits for its gate (R476). -/
structure OwnRec where
  owner : CompId
  offerTo : CompId
  offered : Bool
  offerLease : Word
  rseq : Word
  line : Nat             -- its record number in the ownership table (R471)
  waiting : OwnAnswer
  queue : List Req       -- later requests for the record, in arrival order (R475)
  adding : Bool          -- the transition in progress is its OWN_REGISTER
  dropping : Bool        -- or its OWN_DROP
deriving DecidableEq, Repr

/-- The LSE_ state (R444 to R480). -/
structure Lse where
  pool : List PoolEntry
  leases : Tbl (BitVec 16) Lease
  comps : Tbl CompId CompRec
  epMap : Tbl Ep CompId
  portComp : Tbl PortNo CompId
  staged : List Staged
  changes : Tbl CompId Change
  own : Tbl Oid OwnRec
  gates : Tbl Oid CompId
  lostUs : BitVec 16
  lostDevs : List DevId
  lostMembers : List Ep
  noRouteDev : Tbl DevId Nat   -- counts since which a device has no route (R466)
  noRouteEp : Tbl Ep Nat
  creating : List Who          -- COMP_CREATEs waiting for an ID (R453)
  synced : Bool                -- the registrar's tables are held (R660)
  tabled : List DevId          -- at the registrar: devices to which it has sent its tables
deriving DecidableEq, Repr

end Sys2Proof.Machine
end

