-- ==== Sys2Proof/Machine/TypesSys.lean ====
section
/-! DEFINITION. The parts of the state of chapters 12 to 20: links, switch core, shaping, security, power, start-up, errors,
host and management ports, pins, memory, and what the device sends. -/

namespace Sys2Proof.Machine

/-! ### Links (12) -/

/-- A DATA or CTRL flit kept for replay (R496, R499), with its replays so far (R515 cause 2). -/
structure TxFlit where
  fseq : BitVec 12
  ctrl : Bool
  c0cls : Cls
  c0cnt : BitVec 12
  c1cls : Cls
  c1cnt : BitVec 12
  payload : List Byte
  replays : Nat
  sent : Bool             -- false while the replay buffer is full before it (R496)
deriving DecidableEq, Repr

/-- A lane of a port (Table 12.10). -/
structure LaneRec where
  lock : Bool
  trained : Bool
  corr : BitVec 16        -- inner-code symbols corrected in the last complete window
  fixed : Nat             -- and in the window in progress
deriving DecidableEq, Repr

/-- One direction of the link cipher (R510 to R513): key, salt, group counter, key phase, flits of the group in
progress, the count when the key was taken, and the previous key and its last group while their tag waits. -/
structure Cipher where
  key : List Byte
  salt : List Byte
  group : Nat
  kph : Bool
  inGroup : Nat
  since : Nat
  pend : Bool             -- KEY_NEXT was sent: the next group takes the next key
  prev : Option (List Byte × Nat)
deriving DecidableEq, Repr

/-- A frame being cut through from a port (R535 to R537): the output, the bytes still to come, and its SRC and TAG. -/
structure Cut where
  out : Port
  left : Nat
  src : Ep
  tag : Tag
deriving DecidableEq, Repr

/-- A control message (Table 12.12). -/
inductive Ctrl where
  | linkParam (m : LinkParam)
  | authHello (m : AuthHello)
  | authProof (index countLess1 : BitVec 4) (total : BitVec 16) (bytes : List Byte)
  | kaPoint (point : List Byte)
  | kaConfirm (value : List Byte)
  | keyNext (kph : Bool)
  | linkDown (code : BitVec 4)
  | drain
  | retrainReq
  | frameVoid (src : Ep) (tag : Tag)
  | join (m : JoinMsg)
deriving DecidableEq, Repr

/-- A port's link: registers (Tables 12.5 to 12.10), transmitter, receiver, training and join. -/
structure PortRec where
  width : BitVec 4
  role : BitVec 2
  classes : BitVec 8
  cipher : BitVec 2
  degrade : Bool
  peerDev : DevId
  peerPort : PortNo
  enable : Bool
  drain : Bool
  st : BitVec 3
  actWidth : BitVec 4
  auth : Bool
  enc : Bool
  lastFault : BitVec 4
  retrains : Nat
  replays : Nat
  crcErr : Nat
  tagErr : Nat
  lanes : List LaneRec
  -- transmitter
  nextF : BitVec 12
  rb : List TxFlit
  ackAt : Nat             -- count at which ACKSEQ last advanced, or the buffer was empty
  winReplays : Nat        -- replays in the 1 ms window (R515 cause 5)
  credits : List Nat      -- credits held, per class (R492)
  toReturn : List Nat     -- credits to return, per class (R494)
  tail : List Byte        -- bytes of frames being sent that wait for the flit they share with what follows (R41)
  hold : Bool             -- a frame cut through to it has ended: its next flit waits for the input's next (R537)
  late : List (List Byte) -- control messages that wait out such a hold
  reord : Option TxFlit   -- a flit an injection sends after the next DATA flit (Table 18.6)
  -- receiver
  rxF : Option (BitVec 12)
  gap : Bool
  nak : Bool              -- NAK to go in the next trailer (R497)
  part : List Byte        -- bytes of a frame not yet whole
  partAt : Nat            -- count at which its first byte arrived (R534)
  fresh : List (Frame × Nat)  -- whole frames whose last DATA flit is the latest flit accepted (R537)
  lastGood : Nat
  early : List (Ep × Tag) -- frames of the latest flit accepted that may be cut through (R535)
  held : List Flit        -- flits of the group whose tag has not arrived (R513)
  cut : Option Cut
  ended : Option Cut      -- the cut frame whose last DATA flit is the latest flit accepted (R537)
  -- training
  step : Nat              -- step of Table 12.3, 0 when down
  stepAt : Nat
  tries : Nat             -- failed attempts since STATE 3 last held 1 s (R518)
  waitUntil : Nat
  upAt : Nat
  lanesOk : BitVec 8      -- lanes that may train (R504)
  isolated : BitVec 8     -- lanes taken out of use (Table 18.2)
  nonce : List Byte
  hello : Option AuthHello
  proof : List (BitVec 4 × List Byte)
  accepted : Bool         -- the peer was accepted under R507
  point : Option (List Byte)
  tx : Option Cipher
  rx : Option Cipher
  drainAt : Nat
  -- join (17)
  joined : Bool
  gotJoin : Bool
  refused : Bool          -- the peer's JOIN did not match (R658)
  waitLoss : Bool         -- its restore notices wait for the loss notice of its peer (R659)
  noSend : Bool           -- the partner sent DRAIN: no DMT frame is sent (R522)
  joinAt : Nat
  restored : Bool         -- the restore notice of R551 was sent in this up period
  -- occupancy (13)
  samples : List Nat      -- samples of the window in progress (R548)
  mean : Nat
  windows : Nat
deriving DecidableEq, Repr

/-! ### Switch core and routing (13) -/

/-- A frame in a landing zone or an output queue (R529, R534). -/
structure QFrame where
  id : Nat
  inp : Port
  outp : Port
  cls : Cls
  f : Frame
  cells : Nat
  die : Quad
  res : Nat               -- count at which its residency starts
  override : Bool         -- a reorder injection lets the next frame of its class pass first (Table 18.6)
  grp : Option Nat        -- the answer of the Atomizer of which it is a copy (R140)
deriving DecidableEq, Repr

/-- What a notice record holds (R550). -/
structure NoteRec where
  nseq : Word
  link : BitVec 10
  restore : Bool
  endpoint : Bool
deriving DecidableEq, Repr

/-- The SWC_ state of the buffer and the routes (R525 to R557). -/
structure Swc where
  land : List QFrame
  queue : List QFrame
  nextId : Nat
  pool : List Nat         -- pool cells of each die (R526)
  clsMax : Tbl Cls (BitVec 16)
  clsMin : Tbl Cls (BitVec 16)
  dropPushed : Nat
  dropAged : Nat
  dropFlushed : Nat
  dropVoided : Nat
  ctEn : Bool
  poEn : Bool
  adaptEn : Bool
  margin : BitVec 16
  cover : Nat
  eps : List EpEntry
  links : List LinkDef
  routes : List RouteEntry
  failed : List Nat
  unroutable : List (DevId × PortNo)
  notes : Tbl (DevId × PortNo) NoteRec
  began : Tbl (Ep × Tag) Nat   -- requests on their way through this device, with the count at which their residency started (R534)
  shares : Tbl (Ep × Tag) Nat  -- copies of the Atomizer not yet queued, with the answer that each is a copy of (R140)
deriving DecidableEq, Repr

/-! ### Shaping and policing (14) -/

/-- A bucket (R558 to R564): its token count as it stood at wheel tick `at_`, and its wheel entry. -/
structure Bucket where
  rate : Nat
  burst : Nat
  t : Int
  at_ : Nat
  entry : Option Nat
deriving DecidableEq, Repr

/-- A port's SHP_ set (Tables 14.3 to 14.7) and its wheel, counted in 0.2 ns. -/
structure ShpSet where
  port : Bucket
  cls : Tbl Cls Bucket
  pol : Tbl Cls Bucket
  adm : Bucket
  ovh : BitVec 8
  prio : Tbl Cls (BitVec 2)
  weight : Tbl Cls (BitVec 8)
  deficit : Tbl Cls Nat
  turn : Option Cls       -- the class whose turn has begun (R568)
  act : BitVec 14
  held : Nat
  refused : Nat
  override : Nat
  units : Nat
deriving DecidableEq, Repr

/-- The SHP_ state. -/
structure Shp where
  level : BitVec 8
  sets : Tbl Port ShpSet
deriving DecidableEq, Repr

/-! ### Security (15) -/

/-- A tenant table entry (R582) with what its ERASE_PEND waits for (R601) and the coordinator recorded (R602). -/
structure TenantRec where
  removing : Bool
  slot : Option (BitVec 10)
  eraseBlocks : List BlkAddr
  coord : Option DevId
deriving DecidableEq, Repr

/-- A key slot (R583). -/
structure KeySlot where
  active : Bool
  mode : BitVec 2
  tenant : TenantId
  gen : BitVec 16
  key : List Byte
  fp : BitVec 64
deriving DecidableEq, Repr

/-- A removal as its coordinator drives it (R599, R602). -/
structure Removal where
  who : Who
  firstAt : Nat           -- first sending of the notice now awaited
  sentAt : Nat
  scrubbing : Bool        -- the SCRUB notices were sent
  marked : List DevId
  drained : List DevId
  scrubbed : List DevId
deriving DecidableEq, Repr

/-- A removal as a device runs it (Table 15.2). -/
structure RemStep where
  coord : DevId
  markedAt : Nat
  lastFrame : Nat         -- count of the last device frame or program of the tenant (step 6)
  drained : Bool
  scrubAsked : Bool
  scrubDone : Bool
deriving DecidableEq, Repr

/-- UPDATE (Table 15.10). -/
inductive UpdateState where
  | none | pending | staged | switching
deriving DecidableEq, Repr

/-- A QUOTE in progress (R611). -/
structure QuoteRun where
  w : Who
  nonce : List Byte
  cert : Bool
deriving DecidableEq, Repr

/-- One measurement log entry (R610). -/
structure Meas where
  reg : BitVec 3
  digest : List Byte
deriving DecidableEq, Repr

/-- The SEC_ state. -/
structure Sec where
  tenants : Tbl TenantId TenantRec
  slots : Tbl (BitVec 10) KeySlot
  removals : Tbl TenantId Removal
  runs : Tbl TenantId RemStep
  queries : List (TenantId × Who × Nat)  -- asked coordinators, and the count of asking (R602)
  mrs : List (List Byte)
  log : List Meas
  quotes : List QuoteRun
  update : UpdateState
  stager : Option Who       -- the source of the FW_STAGE or FW_SWITCH in progress
  stagedDigest : List Byte
  stagedSvn : Nat
  stagedRot : List Byte     -- digest of the staged root-of-trust firmware
  svn : Nat
  svnFloor : Nat
deriving DecidableEq, Repr

/-! ### Power (16) -/

/-- Notes (Table 16.2), fastest first. -/
inductive Note where
  | top | heart | base
deriving DecidableEq, Repr

/-- A ramp of an engine die (R629, R631). -/
structure Ramp where
  start : Note
  target : Note
  droops : Nat
  heldAt : Option Nat     -- count of the droop that holds it
  back : Bool             -- aborted: the rail returns to the starting note
deriving DecidableEq, Repr

/-- An engine die (R623 to R631). -/
structure EngDie where
  note : Note             -- granted note, or the starting note during a ramp
  ramp : Option Ramp
  barUntil : Nat          -- no ramp to a faster note before this count (Table 16.3 step 4b)
  asks : List (Note × Nat)  -- notes asked, with the count at which each was last asked
deriving DecidableEq, Repr

/-- The PWR_ state. -/
structure Pwr where
  cap : BitVec 16
  capNext : Option (BitVec 16)  -- a written cap that takes effect at the end of the interval (R633)
  fastPct : BitVec 8
  hystPm : BitVec 8
  upInt : BitVec 8
  avgInt : BitVec 8
  capUnmet : Bool
  unmetSeen : Bool
  critActive : Bool
  droopSeen : Bool
  hist : Nat
  history : List Nat      -- input power of past intervals, newest first, at most 255
  upCount : Nat           -- intervals of the capping loop towards a move up
  metCount : Nat          -- intervals with the average at or below the cap (R637)
  capPos : Nat
  thermPos : Nat
  thermUp : Nat
  thermHot : Bool         -- some die exceeded its THR in this interval
  thermWarm : Bool        -- some die was within 5 °C of its THR in this interval
  allowZeroAt : Nat       -- count at which the allowance reached 0 (R636)
  phase : Word
  tThr : BitVec 8
  avgW : Nat
  inW : Nat
  doms : Tbl (BitVec 5) (Nat × Nat)
  temps : Tbl Nat Int
  overShut : Tbl Nat Nat  -- die and the count since which it exceeds SHUT (R642)
  dies : Tbl (BitVec 3) EngDie
  droopAt : Tbl (BitVec 5) Nat
deriving DecidableEq, Repr

/-! ### Start-up (17) -/

/-- Why the device holds itself in reset. -/
inductive HoldCause where
  | none | off | failed | drydown | thermal | overVoltage | refclk | shutdown | chip
deriving DecidableEq, Repr

/-- The BOOT_ state. -/
structure Boot where
  ready : Bool
  failed : Bool
  contain : Bool
  imgSlotB : Bool
  bankB : Bool
  shutdown : Bool
  step : BitVec 4
  held : HoldCause
  heldNext : HoldCause    -- why the device will hold itself in reset once drydown ends
  image : Option Image
  hdrs : List BootHdr
  incarnation : BitVec 64
  incs : Tbl DevId (BitVec 64)
  mismatch : Nat
  cflash : Tbl Nat Byte   -- configuration flash bytes programmed through BOOT_FL_CMD since the erase of their block
  cfErased : List Nat     -- its 64 KiB blocks that BOOT_FL_CMD erased
  huTimer : Bool          -- the hold-up measurement of R427 has not ended
deriving DecidableEq, Repr

/-! ### Errors and the Blotter (18) -/

/-- SKIND and SUBJECT of an error record (Table 18.4). -/
inductive Subject where
  | none
  | oid (o : Oid)
  | addr (a : Addr)
  | port (p : PortNo)
  | tenant (t : TenantId)
  | dev (d : DevId)
deriving DecidableEq, Repr

/-- LOC of an error record (R677). -/
structure Loc where
  die : BitVec 5
  section_ : BitVec 3
  block : BitVec 12
  cell : BitVec 28
deriving DecidableEq, Repr

/-- An error record (Table 18.4). -/
structure ErrRec where
  rseq : Word
  counter : Nat
  level : BitVec 3
  extended : Bool
  action : BitVec 3
  inj : Bool
  source : BitVec 8
  status : Status
  subject : Subject
  loc : Loc
  repeats : Nat
deriving DecidableEq, Repr

/-- A Blotter entry (Table 18.13), and the eligible events since it last injected. -/
structure Blt where
  kind : BitVec 4
  action : BitVec 4
  every : BitVec 16
  portStack : BitVec 8
  sub : BitVec 8
  granule : Word
  count : BitVec 16
  seen : Nat
deriving DecidableEq, Repr

/-- An escalation event (R674): cell events by block, isolations and resets by region, with their counts. -/
structure EscEvent where
  die : BitVec 5
  section_ : BitVec 3
  block : BitVec 12
  at_ : Nat
deriving DecidableEq, Repr

/-- The ERR_ and BLT_ state. -/
structure Err where
  log : List ErrRec
  nextSeq : Word
  lost : Nat
  frameLost : Nat
  cellN : BitVec 8
  blockN : BitVec 8
  resetN : BitVec 8
  alert : BitVec 9
  alertEn : BitVec 9
  resetting : BitVec 26
  cells : List EscEvent
  blocks : List EscEvent
  resets : List EscEvent
  badBanks : List (Quad × BitVec 12)
  sticky : List (Quad × Nat)     -- granules that a sticky injection makes fail (Table 18.6)
  badCopies : List (StackPlace × Quad) -- copies in a stack of mirrored entries that failed and are not yet rewritten (R33)
  rereads : List (Quad × Nat × Bool)  -- granules being re-read, and whether the error was injected (R669, R680)
  arm : Bool
  blt : Tbl (BitVec 4) Blt
deriving DecidableEq, Repr

/-! ### Host port and management (19) -/

/-- A host-port frame kept for replay (R686). -/
structure HpFrame where
  eseq : Word
  kind : BitVec 4
  bytes : List Byte
  mgmt : Option MgmtMsg
  crcls : Cls             -- the credit return it carries, taken at its first sending
  crcnt : BitVec 16
  replays : Nat
  sent : Bool             -- false while 4 MiB stand unacknowledged before it
deriving DecidableEq, Repr

/-- The registrar's part in a move of the host interface (Table 19.2). -/
structure HostMove where
  new : DevId
  old : DevId
deriving DecidableEq, Repr

/-- The host port (R682 to R688). -/
structure Hp where
  etype : BitVec 16
  mtu : BitVec 14
  active : Bool
  link : Bool
  moving : Bool
  hostDev : DevId
  replays : Nat
  fcs : Nat
  phy : Bool              -- the PHY is powered and has link
  next : Word
  rx : Option Word        -- ESEQ last accepted
  gap : Bool
  rb : List HpFrame
  ackAt : Nat             -- count at which ACKSEQ last advanced, or the buffer was empty
  replayAt : Nat          -- count of the last replay
  peer : BitVec 48        -- source address of the last accepted frame (R684)
  credits : List Nat
  classes : BitVec 8
  toReturn : List Nat
  sentParam : Bool
  gotParam : Bool
  paramAt : Nat
  part : List Byte
  forwarded : List MgmtMsg  -- messages of the host sent to other devices, unanswered (R694)
  mover : Option Who        -- source of the MOVE_HERE in progress
  move : Option HostMove    -- the registrar's move in progress
  record : Option DevId     -- the registrar's host record
  nseqs : Tbl DevId Word    -- newest host endpoint update seen, by origin
deriving DecidableEq, Repr

/-- A source's private registers (Table 19.4). -/
structure Priv where
  objTenant : TenantId
  objStat : Status
  objData : Tbl (BitVec 4) Word
  quotaTier : BitVec 2
  quotaTenant : TenantId
  lseComp : CompId
  lseStat : Status
  lseData : Tbl (BitVec 3) Word
  secTenant : TenantId
  secStat : Status
  secSlot : BitVec 10
  secData : Tbl (BitVec 4) Word
  secKey : Tbl (BitVec 4) Word
  keyMask : BitVec 16     -- key registers written since the last command
  quote : List Byte
  flAddr : BitVec 26
  flData : Tbl (BitVec 6) Word
  logIdx : Word
deriving DecidableEq, Repr

/-- A message of a source in execution, stopped at a command that has not yet taken effect (R691). -/
structure MsgRun where
  m : MgmtMsg
  done : Nat
  data : List Word
  answer : Option Status   -- the status of the command it waited for, once known
deriving DecidableEq, Repr

/-- A management source: a session, or the host path to this device (R692, R693). -/
structure Source where
  w : Who
  role : Option Role      -- none: the host path
  priv : Priv
  last : Nat
  run : Option MsgRun
  waiting : List MgmtMsg
deriving DecidableEq, Repr

/-- A command that runs or waits its turn in its block (R693): whether it runs, whether a message waits for it, and whether
its source has closed since. -/
structure BlockCmd where
  block : BitVec 16
  off : BitVec 16
  w : Who
  v : Word
  started : Bool
  msg : Bool
  gone : Bool
deriving DecidableEq, Repr

/-- The management port (R689 to R699). -/
structure Mg where
  link : Bool
  v4 : Bool
  ip : Word
  sources : List Source
  blocks : List BlockCmd
deriving DecidableEq, Repr

/-! ### Pins and supply (20) -/

/-- VIN as the supervisor judges it (R620, R706 to R708). -/
inductive Vin where
  | off | low | operating | over
deriving DecidableEq, Repr

/-- The pins (R706 to R716). -/
structure Pins where
  vin : Vin
  pwrEn : Bool
  pfailN : Bool
  refclk : Bool
  holdoverAt : Option Nat
deriving DecidableEq, Repr

/-! ### Memory -/

/-- The stacks' object data: bytes of the tier-1 aperture, by offset from OBJ_T1_BASE, poison marks by line (R670), and the
key under which each line of a PROT object was written (R585, R588). -/
structure Mem where
  cells : List Host.Cell
  poison : List Nat
  keyTag : Tbl Nat (List Byte)
deriving DecidableEq, Repr

/-! ### What the device sends -/

/-- A class-7 notice whose bytes the spec does not lay out. -/
inductive Notice where
  | progress (src : Ep) (tag : Tag)
  | binding (b : Binding)
  | bindAnswer (child : Word) (accepted : Bool) (depth : Nat)
  | window (member : Ep) (tag : Tag) (n : WinNote)
  | accReport (handle : Word) (member : BitVec 10) (round : BitVec 16) (r : Report)
  | accAbort (handle : Word) (round : BitVec 16)
  | prepare (c : CompId) (e : Epoch) (destroy : Bool)
  | ready (c : CompId) (r : ReadyNote)
  | abort (c : CompId)
  | switch (c : CompId) (e : Epoch) (reach : BitVec 64) (binds : List (Ep × CompId))
  | switched (c : CompId)
  | drained (c : CompId)
  | close (c : CompId)
  | compIdAsk
  | compIdGrant (granted : Option CompId)
  | loss (l : Loss)
  | leaseExpired (c : CompId) (lease : Word)
  | gate (oid : Oid) (owner : Option CompId)
  | gateAck (oid : Oid) (found : Bool)
  | remove (t : TenantId)
  | marked (t : TenantId)
  | drainedTenant (t : TenantId)
  | scrub (t : TenantId)
  | scrubbed (t : TenantId)
  | coordQuery (t : TenantId)
  | coordAnswer (t : TenantId) (running : Bool)
  | incarnation (dev : DevId)
  | tables (t : SyncTable)
  | moveAsk (new : DevId)
  | moveOld (new : DevId)
  | moveRetry
  | moveState (wins : List (BitVec 8 × Win)) (shp : List (BitVec 7 × Word))
  | hostAt (holder origin : DevId) (nseq : Word)
  | mgmt (m : MgmtMsg)
  | mgmtAnswer (m : MgmtMsg)
deriving DecidableEq, Repr

/-- The header of a device frame: the request it serves, and TENANT, EPOCH and CHK (R190). -/
structure DevHead where
  src : Ep
  tag : Tag
  tenant : TenantId
  epoch : Epoch
  chk : Bool
deriving DecidableEq, Repr

/-- What the block sends, or hands on inside itself as a later command's operand. -/
inductive Out where
  | flit (p : PortNo) (fl : Flit) (lanes : List (List (BitVec 2)))   -- with the PAM4 symbols of each lane (R485)
  | hostFrame (h : Shim) (body : List Byte) (m : Option MgmtMsg)
  | toIngressPort (p : Port) (f : Req)     -- a request whole in the landing zone of an endpoint-facing port
  | toTrunk (p : PortNo) (f : Req)         -- a request whole in the landing zone of a trunk
  | toEgress (f : Req)                     -- a request for an endpoint of this device, at its egress
  | toOwn (q : Quad) (f : Req)             -- a request for the own functions, at its quadrant
  | toIngress (c : Cpl)                    -- a completion for a request this device's ingress holds
  | answer (c : Cpl)                       -- an endpoint's completion, at this device's egress
  | notice (dst : DevId) (n : Notice)
  | devRead (h : DevHead) (a : Addr) (bytes : Nat)
  | devWrite (h : DevHead) (a : Addr) (data : List Byte)
  | zeroRange (dst : Ep) (a : Addr) (pages : Nat)   -- device frames that write zeros over pages of a tray (R452)
  | nandRead (a : PageAddr) (unit : Nat)
  | nandProgram (a : PageAddr)
  | nandErase (b : BlkAddr)
  | journal (record entry : List Byte)   -- a record as the journal holds it, and its commit entry (R385)
  | image (pages commit : List Byte)     -- the drydown image: header and data pages, and its commit page (R434)
  | response (w : Who) (m : MgmtMsg)
  | tlsAlert
deriving DecidableEq, Repr

end Sys2Proof.Machine
end

