-- ==== Sys2Proof/Machine/State.lean ====
section
/-! DEFINITION. The state of one DF-256T, the reasons a step could stop, and the state right after reset. -/

namespace Sys2Proof.Machine

/-- Reasons to stop with a fault. The spec gives the block no stop: refused work completes with a status (R17). -/
inductive Fault where
  /-- Raised by no command. Safe: no run ends in it. -/
  | noFault
deriving DecidableEq, Repr

/-- Reasons to refuse a command. -/
inductive Refusal where
  /-- Raised by an arm of exec whose command has no meaning yet; safe, because the run stops there. -/
  | notModelled (mnemonic : String)
deriving DecidableEq, Repr

/-- One DF-256T: every register, table, queue and pin the spec gives it, the commands that wait, and what it has sent. -/
structure State where
  counter : Nat                 -- the interval counter (R11)
  ing : Ingress
  egr : Egress
  cmb : Combine
  coh : Coh
  eng : Eng
  acc : Acc
  obj : ObjSt
  ftl : Ftl
  dry : Dry
  lse : Lse
  lnk : Tbl PortNo PortRec
  swc : Swc
  shp : Shp
  sec : Sec
  pwr : Pwr
  boot : Boot
  err : Err
  hp : Hp
  mg : Mg
  pins : Pins
  mem : Mem
  free : Nat                    -- the model's own: how many free values have been taken
  out : List Out                -- the model's own: what the block sent, oldest first
  pending : List Instr          -- the model's own: the commands that wait, first in first out
deriving DecidableEq, Repr

/-- A window register set at reset: all zero, VALID = 0 (R82). -/
def noWin : Win := ⟨0, 0, 0, 0, 0⟩

/-- A tile at reset (Table 4.18): gated, its queue empty. -/
def TileRec.blank : TileRec := ⟨true, false, false, false, 0, [], none, [], [], []⟩

/-- A detached port of the coherence home (Tables 3.9 to 3.11). -/
def Part.blank : Part := ⟨false, 0, 0, 0, 0, false, false, false, false, 0, []⟩

/-- A bucket that is off (R562). -/
def Bucket.blank : Bucket := ⟨0, 0, 0, 0, none⟩

/-- A port's SHP_ set at reset with the given OVH (Tables 14.3 to 14.7). -/
def ShpSet.blank (ovh : BitVec 8) : ShpSet :=
  ⟨.blank, [], [], .blank, ovh, [], [], [], none, 0, 0, 0, 0, 0⟩

/-- A port that no image configures (Tables 12.5 to 12.10). -/
def PortRec.blank : PortRec :=
  { width := 0, role := 0, classes := 0, cipher := 0, degrade := false, peerDev := 0, peerPort := 0,
    enable := false, drain := false, st := 0, actWidth := 0, auth := false, enc := false, lastFault := 0, retrains := 0,
    replays := 0, crcErr := 0, tagErr := 0, lanes := [], nextF := 0, rb := [], ackAt := 0, winReplays := 0, credits := [],
    toReturn := [], tail := [], hold := false, late := [], reord := none, rxF := none, gap := false, nak := false, part := [], partAt := 0, fresh := [], lastGood := 0, early := [], held := [],
    cut := none, ended := none, step := 0, stepAt := 0, tries := 0, waitUntil := 0, upAt := 0, lanesOk := 0, isolated := 0, nonce := [], hello := none,
    proof := [], accepted := false, point := none, tx := none, rx := none, drainAt := 0, joined := false,
    gotJoin := false, refused := false, waitLoss := false, noSend := false, joinAt := 0, restored := false, samples := [], mean := 0, windows := 0 }

/-- A tenant at reset (R582). -/
def TenantRec.blank : TenantRec := ⟨false, none, [], none⟩

/-- A key slot at reset (R583): FREE, generation 1, zeroized. -/
def KeySlot.blank : KeySlot := ⟨false, 0, 0, 1, [], 0⟩

/-- An engine die at reset: Base (R638). -/
def EngDie.blank : EngDie := ⟨.base, none, 0, []⟩

/-- A Blotter entry at reset (Table 18.13). -/
def Blt.blank : Blt := ⟨0, 0, 1, 0, 0, 0, 0, 0⟩

/-- A composition at reset (R454): FREE, epoch 0. -/
def CompRec.blank : CompRec := ⟨.free, 0, 0, 0, false, 0, none, none, true, false, 0⟩

/-- A lease at reset (Table 11.2): FREE, generation 1. -/
def Lease.blank : Lease := ⟨1, 0, 0, 0, 0, .free, false, false, false, false, 0, 0, none⟩

/-- A source's private registers at their reset values (R693). -/
def Priv.blank : Priv :=
  { objTenant := 0, objStat := .ok, objData := [], quotaTier := 0, quotaTenant := 0, lseComp := 0, lseStat := .ok,
    lseData := [], secTenant := 0, secStat := .ok, secSlot := 0, secData := [], secKey := [], keyMask := 0, quote := [],
    flAddr := 0, flData := [], logIdx := 0 }

/-- Geometry before discovery: all zero (Tables 9.13 to 9.15). -/
def noGeom : Geom := ⟨[], 0, 0, 0, 0, 0⟩

/-- The accord slot as it stands free at reset: generation 1 (Table 5.16). -/
def Accord.blank : Accord :=
  { state := .free, gen := 1, opener := 0, openTag := 0, tenant := 0, cls := 0, epoch := 0, quad := 0, op := 0, etype := 0,
    deliver := 0, onFail := false, elemBytes := 0, stallUs := 0, idleMs := 0, parent := 0, parentMember := 0, bound := false,
    bindAt := 0, depth := 0, result := none, keyGen := 0, tiles := [], allotted := 0, window := 0, nextRound := 0, members := [],
    roundAt := 0, b := 0, stripes := [], sat := 0, upWait := [], upSent := false, writes := [], idleSince := 0, no := 0 }

/-- The state right after reset: each unit as the spec gives it, step 1 of Table 17.4 reached and no image loaded. -/
def State.reset : State :=
  { counter := 0
    ing := { wins := [], buf := [], pairs := [], trk := [], holds := [], srcs := [] }
    egr := { ord := [], log := [], dest := [] }
    cmb := { ents := [], nextId := 0, joinUs := 0x10, readEn := true, atomEn := true, enable := true, pass := 0 }
    coh := { parts := [], txns := [], snoops := [], nextTxn := 0, nextTag := 0, fillNo := 0 }
    eng := { tiles := [], reqs := [], nextNo := 0, maxTiles := 0x200, splitLog2 := 0x14,
             enabled := [.reduce, .gs, .filter, .score, .expand, .compat], draining := [], abortedSeen := [],
             drainUs := 0x07D0, satTotal := 0, selAllowUs := 2, selAlt := 0, selMiss := 0, fltTrunc := 0,
             zskDamaged := 0, zskRecovered := 0, zskStall := 0 }
    acc := { slots := [], wins := [], units := 4, noslot := 0, stray := 0 }
    obj := { tab := [], nextSerial := 1, pages := [], quotaLim := [], quotaUse := [], plans := [], fills := [], reads := [],
             fetches := [], damagedExt := [], t1BaseHi := 0, t3LatUs := 0x064, t3Rate := 0x028, allowUs := 2, dlAlt := 0,
             dlMiss := 0, dmg := 0 }
    ftl := { state := .discovering, rdonly := false, geom := noGeom, targets := 0, l := 0, freeHi := 50, freeLo := 30,
             freeCrit := 10, share := 25, wlDelta := 200, patrolH := 168, refreshBits := 80, profile := ⟨0, 0, 0⟩,
             map := [], blocks := [], journal := [], nextJ := 0, jBytes := 0, gc := [], refreshQ := [], gcOn := false, wlTurn := 0,
             seals := [], health := ⟨0, 0, 0, 0, 0, 0, 0, 0, 0, [], 0⟩, tempAt := 0, persistAt := 0,
             media := ⟨none, [], [], 0, none, 0, 1, []⟩ }
    dry := { armed := false, measured := false, huLow := false, exposed := false, drying := false, last := 0, huE := 0,
             huC := 0, limit := 0, limitStart := 0, limitSet := false, regionErased := false, replayStep7 := false,
             lastUs := 0, refuse := 0, buf := [], image := none }
    lse := { pool := [], leases := [], comps := [], epMap := [], portComp := [], staged := [], changes := [], own := [],
             gates := [], lostUs := 0x3E8, lostDevs := [], lostMembers := [], noRouteDev := [], noRouteEp := [],
             creating := [], synced := false, tabled := [] }
    lnk := []
    swc := { land := [], queue := [], nextId := 0, pool := [0, 0, 0, 0], clsMax := [], clsMin := [], dropPushed := 0,
             dropAged := 0, dropFlushed := 0, dropVoided := 0, ctEn := true, poEn := true, adaptEn := true,
             margin := 0x0200, cover := 0, eps := [], links := [], routes := [], failed := [], unroutable := [],
             notes := [], began := [], shares := [] }
    shp := { level := 0, sets := [] }
    sec := { tenants := [], slots := [], removals := [], runs := [], queries := [],
             mrs := List.replicate 8 (List.replicate 32 0), log := [], quotes := [], update := .none, stager := none,
             stagedDigest := [], stagedSvn := 0, stagedRot := [], svn := 0, svnFloor := 0 }
    pwr := { cap := 0x05DC, capNext := none, fastPct := 0x0A, hystPm := 0x1E, upInt := 0x08, avgInt := 0x10,
             capUnmet := false, unmetSeen := false, critActive := false, droopSeen := false, hist := 0, history := [],
             upCount := 0, metCount := 0, capPos := 1, thermPos := 0, thermUp := 0, thermHot := false, thermWarm := false,
             allowZeroAt := 0, phase := 0x55555555, tThr := 0x64, avgW := 0, inW := 0, doms := [], temps := [],
             overShut := [], dies := [], droopAt := [] }
    boot := { ready := false, failed := false, contain := false, imgSlotB := false, bankB := false, shutdown := false,
              step := 1, held := .none, heldNext := .none, image := none, hdrs := [], incarnation := 0, incs := [], mismatch := 0,
              cflash := [], cfErased := [], huTimer := false }
    err := { log := [], nextSeq := 1, lost := 0, frameLost := 0, cellN := 0x10, blockN := 4, resetN := 3, alert := 0,
             alertEn := 0x1FF, resetting := 0, cells := [], blocks := [], resets := [], badBanks := [], sticky := [],
             badCopies := [], rereads := [], arm := false, blt := [] }
    hp := { etype := 0x88B5, mtu := 9000, active := false, link := false, moving := false, hostDev := 0, replays := 0,
            fcs := 0, phy := false, next := 0, rx := none, gap := false, rb := [], ackAt := 0, replayAt := 0, peer := 0, credits := [], classes := 0,
            toReturn := [], sentParam := false, gotParam := false, paramAt := 0, part := [], forwarded := [],
            mover := none, move := none, record := none, nseqs := [] }
    mg := { link := false, v4 := false, ip := 0, sources := [], blocks := [] }
    pins := { vin := .operating, pwrEn := true, pfailN := true, refclk := true, holdoverAt := none }
    mem := { cells := [], poison := [], keyTag := [] }
    free := 0
    out := []
    pending := [] }

end Sys2Proof.Machine
end

