-- ==== Sys2Proof/Machine/Tbl.lean ====
section
/-! DEFINITION. Operations on tables: association lists in which an unlisted key holds a default entry. -/

namespace Sys2Proof.Machine

/-- The entry of a key, if it is listed. -/
def tget {κ α : Type} [DecidableEq κ] (t : Tbl κ α) (k : κ) : Option α :=
  match t with
  | [] => none
  | (k', v) :: rest => if k' = k then some v else tget rest k

/-- The entry of a key, or the default. -/
def tgetD {κ α : Type} [DecidableEq κ] (t : Tbl κ α) (k : κ) (d : α) : α := (tget t k).getD d

/-- The table with a key's entry set, in its place when it was listed and last otherwise. -/
def tset {κ α : Type} [DecidableEq κ] (t : Tbl κ α) (k : κ) (v : α) : Tbl κ α :=
  match t with
  | [] => [(k, v)]
  | (k', v') :: rest => if k' = k then (k, v) :: rest else (k', v') :: tset rest k v

/-- The table without a key. -/
def tdel {κ α : Type} [DecidableEq κ] (t : Tbl κ α) (k : κ) : Tbl κ α := t.filter fun e => !decide (e.1 = k)

/-- The table with a key's entry changed. -/
def tmod {κ α : Type} [DecidableEq κ] (t : Tbl κ α) (k : κ) (d : α) (f : α → α) : Tbl κ α := tset t k (f (tgetD t k d))

/-- Every entry changed. -/
def tmap {κ α : Type} (t : Tbl κ α) (f : κ → α → α) : Tbl κ α := t.map fun e => (e.1, f e.1 e.2)

/-- The list with one element that meets `p` removed: the first. -/
def eraseFirst {α : Type} (p : α → Bool) : List α → List α
  | [] => []
  | a :: l => if p a then l else a :: eraseFirst p l

/-- The list with the element at a place changed. -/
def modAt {α : Type} (l : List α) (i : Nat) (f : α → α) : List α :=
  match l, i with
  | [], _ => []
  | a :: l, 0 => f a :: l
  | a :: l, i + 1 => a :: modAt l i f

/-- The elements that meet `p` changed. -/
def modWhere {α : Type} (l : List α) (p : α → Bool) (f : α → α) : List α := l.map fun a => if p a then f a else a

/-- The least element by a measure, the earlier of equals. -/
def leastBy {α : Type} (m : α → Nat) : List α → Option α
  | [] => none
  | a :: l =>
    match leastBy m l with
    | none => some a
    | some b => if m a ≤ m b then some a else some b

end Sys2Proof.Machine
end

