-- ==== Sys2Proof/Machine/Ops.lean ====
section
/-! DEFINITION. The named operations over the whole state: what the block sends, who it is, the stacks' memory, and the
guard of a device held in reset. -/

namespace Sys2Proof.Machine

/-- The outcome of a meaning. -/
abbrev Res := Host.Outcome State Fault Refusal

/-- Appends to what the block has sent. -/
def emit (s : State) (o : Out) : State := { s with out := s.out ++ [o] }

/-- Appends several. -/
def emits (s : State) (os : List Out) : State := { s with out := s.out ++ os }

/-- A device that holds itself in reset, or that is off, takes no command but those of its supply and of power-up. -/
def isUp (s : State) : Bool := decide (s.boot.held = .none)

/-- A command's effect on a device that is not held in reset; held, it changes nothing. -/
def whenUp (s : State) (f : State → State) : Res := .next (if isUp s then f s else s)

/-- This device's ID in the domain, from the image in use (R45). -/
def devId (s : State) : DevId :=
  match s.boot.image with
  | some i => i.device
  | none => 0

/-- The endpoint table's entry of an endpoint (R540). -/
def epEntry (s : State) (e : Ep) : Option EpEntry := s.swc.eps.find? fun x => x.ep == e

/-- The own-functions endpoint of a device (R47). -/
def ownEpOf (s : State) (d : DevId) : Option Ep :=
  (s.swc.eps.find? fun x => x.dev == d && decide (x.at_ = .own)).map (·.ep)

/-- This device's own-functions endpoint. -/
def ownEp (s : State) : Ep := (ownEpOf s (devId s)).getD 0

/-- Whether an endpoint is the own functions of some device (R727). -/
def isOwnEp (s : State) (e : Ep) : Bool :=
  match epEntry s e with
  | some x => decide (x.at_ = .own)
  | none => false

/-- The device of an endpoint. -/
def epDev (s : State) (e : Ep) : Option DevId := (epEntry s e).map (·.dev)

/-- Where an endpoint of this device sits. -/
def localAt (s : State) (e : Ep) : Option Port :=
  match epEntry s e with
  | some x => if x.dev == devId s then some x.at_ else none
  | none => none

/-- The devices of the domain: those to which the endpoint table binds own functions. -/
def domainDevs (s : State) : List DevId := (s.swc.eps.filter fun x => decide (x.at_ = .own)).map (·.dev)

/-- The registrar's device ID (R50). -/
def registrarOf (s : State) : DevId :=
  match s.boot.image with
  | some i => i.registrar
  | none => 0

/-- Whether this device is the registrar. -/
def isRegistrar (s : State) : Bool := registrarOf s == devId s

/-- A class-7 notice to a device. -/
def notify (s : State) (d : DevId) (n : Notice) : State := emit s (.notice d n)

/-- A class-7 notice to every device of the domain. -/
def notifyAll (s : State) (n : Notice) : State := emits s ((domainDevs s).map fun d => .notice d n)

/-- A class-7 notice to the devices of a 64-bit set. -/
def notifySet (s : State) (m : BitVec 64) (n : Notice) : State :=
  emits s (((List.range 64).filter fun k => m.getLsbD k).map fun k => .notice (BitVec.ofNat 6 k) n)

/-- `n` free bytes: unspecified data, one draw (R671). -/
def freeBytes (s : State) (n : Nat) : List Byte := (List.range n).map fun k => Config.freeByte (s.free + k)

/-- The state after `n` free values were taken. -/
def takeFree (s : State) (n : Nat) : State := { s with free := s.free + n }

/-- The quadrant of a lane (R24). -/
def laneQuad (p : PortNo) : Quad := BitVec.ofNat 2 (p.toNat / 64)

/-- The quadrant of a port; the host interface counts as quadrant 0 (R526). -/
def portQuad : Port → Quad
  | .lane p => laneQuad p
  | .host => 0
  | .own => 0

/-- A port's record. -/
def portOf (s : State) (p : PortNo) : PortRec := tgetD s.lnk p PortRec.blank

/-- A port's record changed; a port no image configures has none. -/
def modPort (s : State) (p : PortNo) (f : PortRec → PortRec) : State :=
  match tget s.lnk p with
  | some r => { s with lnk := tset s.lnk p (f r) }
  | none => s

/-- Whether a port carries traffic: STATE 3 or 4 (R516). -/
def portCarries (r : PortRec) : Bool := r.st == 3 || r.st == 4

/-- A configured trunk port. -/
def isTrunk (s : State) (p : PortNo) : Bool := (portOf s p).role == 2

/-- A configured endpoint-facing port. -/
def isEndpointPort (s : State) (p : PortNo) : Bool := (portOf s p).role == 1

/-! ### The stacks' memory (R61, R68, R329, R670) -/

/-- The byte of a cell list at a place; an unlisted place holds zero, as power-up leaves it (R653 step 5). -/
def cellRead : List Host.Cell → Nat → Byte
  | [], _ => 0
  | (k, v) :: rest, a => if k = a then v else cellRead rest a

/-- A cell list with a byte written, kept in canonical form: places rising, no zero listed. -/
def cellWrite : List Host.Cell → Nat → Byte → List Host.Cell
  | [], a, b => if b = 0 then [] else [(a, b)]
  | (k, v) :: rest, a, b =>
    if a < k then (if b = 0 then (k, v) :: rest else (a, b) :: (k, v) :: rest)
    else if a = k then (if b = 0 then rest else (k, b) :: rest)
    else (k, v) :: cellWrite rest a b

/-- The canonical form: places strictly rising and no entry equal to what an unlisted place reads as. -/
def cellsWf : List Host.Cell → Bool
  | [] => true
  | [(_, v)] => v != 0
  | (k, v) :: (k', v') :: rest => decide (k < k') && v != 0 && cellsWf ((k', v') :: rest)

/-- The canonical form of the stacks' memory. -/
def Memory.wf (m : Mem) : Bool := cellsWf m.cells

/-- Bytes written from a place upward. -/
def cellWriteN (c : List Host.Cell) (a : Nat) : List Byte → List Host.Cell
  | [] => c
  | b :: bs => cellWriteN (cellWrite c a b) (a + 1) bs

/-- The places of a cell list outside a range. -/
def cellDrop (c : List Host.Cell) (a n : Nat) : List Host.Cell := c.filter fun e => decide (e.1 < a) || decide (a + n ≤ e.1)

/-- First byte of the tier-1 aperture (R329). -/
def t1Base (s : State) : Nat := s.obj.t1BaseHi.toNat * 2 ^ 39

/-- Whether a fabric address lies in the tier-1 aperture of this device (R329). -/
def inT1 (s : State) (a : Nat) : Bool := decide (t1Base s ≤ a) && decide (a < t1Base s + 2 ^ 39)

/-- The tier-1 byte at a fabric address. -/
def memByte (s : State) (a : Nat) : Byte := cellRead s.mem.cells (a - t1Base s)

/-- `n` tier-1 bytes from a fabric address. -/
def memBytes (s : State) (a n : Nat) : List Byte := (List.range n).map fun k => memByte s (a + k)

/-- Tier-1 bytes written from a fabric address. -/
def memWrite (s : State) (a : Nat) (bs : List Byte) : State :=
  { s with mem := { s.mem with cells := cellWriteN s.mem.cells (a - t1Base s) bs } }

/-- The line of a fabric address, within the aperture. -/
def lineOf (s : State) (a : Nat) : Nat := (a - t1Base s) / 128

/-- Whether a line carries a poison mark (R670). -/
def isPoisoned (s : State) (line : Nat) : Bool := s.mem.poison.contains line

/-- A line marked. -/
def poisonLine (s : State) (line : Nat) : State :=
  if isPoisoned s line then s else { s with mem := { s.mem with poison := s.mem.poison ++ [line] } }

/-- A line's mark cleared. -/
def unpoison (s : State) (line : Nat) : State :=
  { s with mem := { s.mem with poison := s.mem.poison.filter fun l => !(l == line) } }

/-- Zeroes written over a range of the aperture, its marks and key tags dropped (R339, R600). -/
def zeroRange (s : State) (off n : Nat) : State :=
  { s with mem :=
      { cells := cellDrop s.mem.cells off n
        poison := s.mem.poison.filter fun l => !(decide (off ≤ l * 128) && decide (l * 128 < off + n))
        keyTag := s.mem.keyTag.filter fun e => !(decide (off ≤ e.1 * 128) && decide (e.1 * 128 < off + n)) } }

end Sys2Proof.Machine
end

