-- ==== Sys2Proof/Machine/Flags.lean ====
section
/-! DEFINITION. Status and interrupt flags: the error log (R676, R677), ERR_ALERT and ALERT_N (R678). -/

namespace Sys2Proof.Machine

/-- Bits of ERR_ALERT (Table 18.10). -/
def alertRecord : Nat := 0
def alertHoldup : Nat := 1
def alertFlash : Nat := 2
def alertCap : Nat := 3
def alertTherm : Nat := 4
def alertLogLost : Nat := 5
def alertReset : Nat := 6
def alertSupply : Nat := 7
def alertBoot : Nat := 8

/-- Sets a bit of ERR_ALERT. -/
def setAlert (s : State) (k : Nat) : State := { s with err := { s.err with alert := s.err.alert ||| BitVec.ofNat 9 (2 ^ k) } }

/-- The pin ALERT_N, active low: low while an enabled bit of ERR_ALERT is 1 (R678). -/
def alertN (s : State) : Bool := s.err.alert &&& s.err.alertEn == 0

/-- LOC of an event with no place (R677: DIE 31). -/
def locNone : Loc := ⟨31, 0, 0, 0⟩

/-- LOC of a lane of its link die; SECTION is zero in Compact (R673, R677). -/
def locLane (s : State) (p : PortNo) : Loc :=
  ⟨BitVec.ofNat 5 (p.toNat / 32), if s.boot.contain then BitVec.ofNat 3 (p.toNat % 32 / 8) else 0,
    BitVec.ofNat 12 (p.toNat % 32), 0⟩

/-- LOC of a tile of its engine die; SECTION is zero in Compact (R673, R677). -/
def locTile (s : State) (t : TileNo) : Loc :=
  ⟨BitVec.ofNat 5 (12 + t.toNat / 64), if s.boot.contain then BitVec.ofNat 3 (t.toNat % 64 / 16) else 0,
    BitVec.ofNat 12 (t.toNat % 64), 0⟩

/-- LOC of a granule of a stack (R677). -/
def locGranule (stk : Quad) (g : Nat) : Loc :=
  ⟨BitVec.ofNat 5 (20 + stk.toNat), 0, BitVec.ofNat 12 (g / 64 % 4096), BitVec.ofNat 28 (g / 262144 * 64 + g % 64)⟩

/-- LOC of a page of a NAND target: channel × 8 + chip enable, and its first codeword within the target (R677; log entry 36). -/
def locPage (g : Geom) (a : PageAddr) : Loc :=
  let b := a.blk
  let blk := (b.lun.toNat * g.planes + b.plane.toNat) * g.blocks + b.block.toNat
  ⟨26, 0, BitVec.ofNat 12 (b.chan.toNat * 8 + b.ce.toNat), BitVec.ofNat 28 (4 * (blk * g.pages + a.page.toNat))⟩

/-- LOC of the control die. -/
def locCtl : Loc := ⟨24, 0, 0, 0⟩

/-- An error event as a chapter raises it. -/
structure Event where
  source : BitVec 8
  action : BitVec 3
  level : BitVec 3
  status : Status
  subject : Subject
  loc : Loc
  inj : Bool
deriving DecidableEq, Repr

/-- An event reported with no action of a containment tier. -/
def report (source : BitVec 8) (subject : Subject) (loc : Loc) : Event := ⟨source, 0, 0, .ok, subject, loc, false⟩

/-- Whether an event merges into a record: equal SOURCE, LOC, ACTION and INJ, within 1 ms of its first event (R676). -/
def recMatches (now : Nat) (e : Event) (r : ErrRec) : Bool :=
  r.source == e.source && decide (r.loc = e.loc) && r.action == e.action && r.inj == e.inj && decide (now ≤ r.counter + 1000)

/-- Appends or merges an error record (R676), with the alert bits it sets (Table 18.10). -/
def raise (s : State) (e : Event) : State :=
  let s := if e.action.toNat ≥ 2 then setAlert s alertRecord else s
  if s.err.log.any (recMatches s.counter e) then
    { s with err := { s.err with log := modWhere s.err.log (recMatches s.counter e) fun r =>
        { r with repeats := satInc 16 r.repeats } } }
  else
    let r : ErrRec := { rseq := s.err.nextSeq, counter := s.counter, level := e.level, extended := s.boot.contain,
                        action := e.action, inj := e.inj, source := e.source, status := e.status, subject := e.subject,
                        loc := e.loc, repeats := 0 }
    let next := if s.err.nextSeq == 0xFFFFFFFF then 1 else s.err.nextSeq + 1
    if s.err.log.length < 4096 then
      { s with err := { s.err with log := s.err.log ++ [r], nextSeq := next } }
    else
      setAlert { s with err := { s.err with log := s.err.log.drop 1 ++ [r], nextSeq := next,
                                            lost := satInc 16 s.err.lost } } alertLogLost

/-- SKIND of a subject (Table 18.4). -/
def subjectKind : Subject → Nat
  | .none => 0 | .oid _ => 1 | .addr _ => 2 | .port _ => 3 | .tenant _ => 4 | .dev _ => 5

/-- SUBJECT as a number (Table 18.4). -/
def subjectValue : Subject → Nat
  | .none => 0 | .oid o => o.toNat | .addr a => a.toNat | .port p => p.toNat | .tenant t => t.toNat | .dev d => d.toNat

/-- An error record's 32 bytes (Table 18.4). -/
def recBytes (dev : DevId) (r : ErrRec) : List Byte :=
  leBytes r.rseq.toNat 4 ++ leBytes r.counter 8 ++ [dev.setWidth 8] ++
    [BitVec.ofNat 8 (r.level.toNat + 8 * bit r.extended + 16 * r.action.toNat + 128 * bit r.inj)] ++ [r.source] ++
    [BitVec.ofNat 8 ((Status.code r.status).toNat + 32 * subjectKind r.subject)] ++
    leBytes (r.loc.die.toNat + 2 ^ 5 * r.loc.section_.toNat + 2 ^ 8 * r.loc.block.toNat + 2 ^ 20 * r.loc.cell.toNat) 6 ++
    leBytes r.repeats 2 ++ leBytes (subjectValue r.subject) 8

/-- The record shown in ERR_LOG_DATA for a number; all zeros when it is not held (Table 18.7). -/
def logShown (s : State) (idx : Word) : List Byte :=
  match s.err.log.find? fun r => r.rseq == idx with
  | some r => recBytes (devId s) r
  | none => List.replicate 32 0

end Sys2Proof.Machine
end

