-- ==== Sys2Proof/Machine/Blotter.lean ====
section
/-! DEFINITION. The Blotter's injections (R680): which entry fireOn on an eligible event. -/

namespace Sys2Proof.Machine

/-- The interval between an entry's injections: 0 acts as 1 (Table 18.13). -/
def bltEvery (b : Blt) : Nat := max 1 b.every.toNat

/-- Whether an entry is active: armed, KIND not 0, injections left (R679, R680). -/
def bltActive (s : State) (b : Blt) : Bool := s.err.arm && b.kind != 0 && b.count != 0

/-- An entry after an eligible event that does not yet reach EVERY. -/
def bltSeen (b : Blt) : Blt := { b with seen := b.seen + 1 }

/-- An entry after it injected. -/
def bltFired (b : Blt) : Blt := { b with seen := 0, count := b.count - 1 }

/-- Counts an eligible event at every active entry of a kind and target, and tells the action of the first that injects. -/
def bltEvent (s : State) (kind : BitVec 4) (hit : Blt → Bool) : State × Option (BitVec 4) :=
  let dueOn : Blt → Bool := fun b => bltActive s b && b.kind == kind && hit b
  let fireOn : Blt → Bool := fun b => dueOn b && decide (bltEvery b ≤ b.seen + 1)
  let act := (s.err.blt.find? fun e => fireOn e.2).map fun e => e.2.action
  let after : Blt → Blt := fun b => if fireOn b then bltFired b else if dueOn b then bltSeen b else b
  ({ s with err := { s.err with blt := tmap s.err.blt fun _ b => after b } }, act)

/-- The entry of a number. -/
def bltOf (s : State) (n : BitVec 4) : Blt := tgetD s.err.blt n Blt.blank

/-- KIND and ACTION combinations of Table 18.6; KIND 0 is off with any listed ACTION. -/
def bltListed (kind action : BitVec 4) : Bool :=
  match kind.toNat, action.toNat with
  | 0, a => decide (a ≤ 2)
  | 1, 0 => true | 1, 1 => true | 1, 2 => true
  | 2, 0 => true | 2, 2 => true
  | 3, 0 => true | 3, 1 => true
  | 4, 0 => true | 4, 1 => true
  | _, _ => false

end Sys2Proof.Machine
end

