-- ==== Sys2Proof/Machine/Forms.lean ====
section
/-! DEFINITION. The forms of the engine, accord, object and ownership requests: work header (Table 4.6), tensor descriptors
(Table 4.8), the address ranges a request names (R189), and what the ingress check refuses of a form. -/

namespace Sys2Proof.Machine

/-! ### The work header (Table 4.6) -/

/-- PHASE. -/
def hdrPhase (f : Req) : BitVec 4 := BitVec.ofNat 4 (leAt f.payload 0 1)
/-- TILES. -/
def hdrTiles (f : Req) : Nat := bitsOf (leAt f.payload 2 2) 0 10
/-- QMASK. -/
def hdrQmask (f : Req) : BitVec 4 := BitVec.ofNat 4 (leAt f.payload 4 1)
/-- ORDERED. -/
def hdrOrdered (f : Req) : Bool := (byteAt f.payload 5).getLsbD 0
/-- BODY_LEN. -/
def hdrBodyLen (f : Req) : Nat := leAt f.payload 6 2

/-- The work header's own checks (R192). -/
def hdrOk (f : Req) : Bool :=
  bitsOf (leAt f.payload 0 1) 4 4 == 0 && leAt f.payload 1 1 == 0 && bitsOf (leAt f.payload 2 2) 10 6 == 0 &&
    bitsOf (leAt f.payload 4 1) 4 4 == 0 && bitsOf (leAt f.payload 5 1) 1 7 == 0 && zerosAt f.payload 8 8 &&
    decide (hdrTiles f ≤ 512) && f.len.toNat == hdrBodyLen f + 1

/-! ### Tensor descriptors (Table 4.8, R196 to R198, R306 to R308) -/

/-- Element bytes of an interleaved or planar SIB block (Table 4.5). -/
def blockElemBytes (etype : Nat) : Nat := 16 * 2 ^ etype

/-- The descriptor at a place of the payload. -/
def tensorAt (bs : List Byte) (i : Nat) : Tensor :=
  { base := bitsOf (leAt bs i 8) 0 58, rank := bitsOf (leAt bs (i + 8) 1) 0 3, etype := bitsOf (leAt bs (i + 9) 1) 0 2
    planar := (byteAt bs (i + 9)).getLsbD 2, zskip := (byteAt bs (i + 9)).getLsbD 3, expAddr := bitsOf (leAt bs (i + 16) 8) 0 58
    dims := (List.range 6).map fun k => leAt bs (i + 24 + 4 * k) 4
    strides := (List.range 6).map fun k => sleAt bs (i + 48 + 8 * k) 8 }

/-- The reserved bits of the descriptor at a place are zero. -/
def tensorReserved (bs : List Byte) (i : Nat) : Bool :=
  bitsOf (leAt bs i 8) 58 6 == 0 && bitsOf (leAt bs (i + 8) 1) 3 5 == 0 && bitsOf (leAt bs (i + 9) 1) 4 4 == 0 &&
    zerosAt bs (i + 10) 6 && bitsOf (leAt bs (i + 16) 8) 58 6 == 0

/-- Size of dimension k. -/
def dimOf (t : Tensor) (k : Nat) : Nat := t.dims.getD k 0
/-- Stride of dimension k. -/
def strideOf (t : Tensor) (k : Nat) : Int := t.strides.getD k 0
/-- The product of the used dimensions. -/
def elemCount (t : Tensor) : Nat := ((List.range t.rank).map (dimOf t)).foldl (· * ·) 1
/-- The dimensions above the innermost. -/
def outerDims (t : Tensor) : List Nat := (List.range (t.rank - 1)).map (· + 1)
/-- Rows: the product of the dimensions above the innermost. -/
def rowCount (t : Tensor) : Nat := ((outerDims t).map (dimOf t)).foldl (· * ·) 1
/-- SIB blocks of a tensor; none for raw bytes. -/
def blockCount (t : Tensor) : Nat := if t.etype = 3 then 0 else elemCount t / 32
/-- Element bytes of a row of DIM[0]: what lies in the element plane, or the whole interleaved row. -/
def rowBytes (t : Tensor) : Nat :=
  if t.etype = 3 then dimOf t 0
  else if t.planar then dimOf t 0 / 32 * blockElemBytes t.etype
  else dimOf t 0 / 32 * (blockElemBytes t.etype + 1)
/-- Bytes of a tensor in its layout, exponents included. -/
def tensorBytes (t : Tensor) : Nat := rowCount t * rowBytes t + if t.planar then blockCount t else 0
/-- The packed stride of dimension k: the element bytes of the dimensions below it. -/
def packedStride (t : Tensor) (k : Nat) : Nat := ((List.range (k - 1)).map fun j => dimOf t (j + 1)).foldl (· * ·) (rowBytes t)

/-- Zero-skip blocks of a tensor (R307). -/
def zskBlocks (t : Tensor) : Nat := elemCount t / 256
/-- Groups of a zero-skip stream (R304). -/
def zskGroups (t : Tensor) : Nat := ceilDiv (zskBlocks t) 64
/-- The largest block of Table 7.2. -/
def zskCmax (etype : Nat) : Nat := if etype = 0 then 176 else if etype = 1 then 304 else 560

/-- The lowest byte of the element range, as a whole number. -/
def elemLow (t : Tensor) : Int :=
  (outerDims t).foldl (fun a k => a + min 0 (strideOf t k * ((dimOf t k : Int) - 1))) (t.base : Int)
/-- The highest byte of the element range. -/
def elemHigh (t : Tensor) : Int :=
  if t.zskip then (t.base + 32 + 16 * ceilDiv (zskGroups t) 2 + zskBlocks t * zskCmax t.etype : Nat) - 1
  else (outerDims t).foldl (fun a k => a + max 0 (strideOf t k * ((dimOf t k : Int) - 1))) ((t.base + rowBytes t : Nat) - 1 : Int)

/-- The ranges of a descriptor, first and last byte (R189, R308). -/
def tensorRanges (t : Tensor) : List (Int × Int) :=
  (elemLow t, elemHigh t) :: if t.planar then [((t.expAddr : Int), (t.expAddr + blockCount t : Nat) - 1)] else []

/-- A descriptor that R198 and R306 do not refuse. -/
def tensorOk (bs : List Byte) (i : Nat) : Bool :=
  let t := tensorAt bs i
  tensorReserved bs i && decide (1 ≤ t.rank) && decide (t.rank ≤ 6) &&
    ((List.range 6).all fun k => if k < t.rank then dimOf t k != 0 else dimOf t k == 0 && strideOf t k == 0) &&
    strideOf t 0 == 0 && (t.planar || t.expAddr == 0) && (t.etype == 3 || dimOf t 0 % 32 == 0) &&
    !(t.planar && t.etype == 3) && (!t.planar || (outerDims t).all fun k => strideOf t k == (packedStride t k : Int)) &&
    decide (elemCount t ≤ 2 ^ 40) && ((tensorRanges t).all fun r => decide (0 ≤ r.1) && decide (r.2 < (2 ^ 58 : Nat))) &&
    (!t.zskip || (t.etype != 3 && !t.planar && dimOf t 0 % 256 == 0 && ((List.range 6).all fun k => strideOf t k == 0) &&
      t.base % 16 == 0))

/-- Two ranges share a byte. -/
def rangesMeet (a b : Int × Int) : Bool := decide (a.1 ≤ b.2) && decide (b.1 ≤ a.2)

/-- Two descriptors share a byte. -/
def tensorsMeet (a b : Tensor) : Bool := (tensorRanges a).any fun x => (tensorRanges b).any fun y => rangesMeet x y

/-! ### What a request names (R189) -/

/-- Where an ACC_OPEN's RESULT descriptor stands: after the member list padded to 16 bytes (Table 5.2). -/
def accResultAt (f : Req) : Nat := 48 + ceilDiv (2 * bitsOf (leAt f.payload 18 2) 0 11) 16 * 16
/-- DELIVER of an ACC_OPEN. -/
def accDeliver (f : Req) : Nat := bitsOf (leAt f.payload 17 1) 2 2

/-- The descriptors of a request: their places, and whether each is an output (R593). -/
def descPlaces (f : Req) : List (Nat × Bool) :=
  if f.opcode = Op.gather ∨ f.opcode = Op.scatter then
    [(16, false), (112, true)] ++ if f.subop = 1 then [(208, false)] else []
  else if f.opcode = Op.expand then [(16, false), (112, true)]
  else if f.opcode = Op.filter then
    (288, false) :: if bitsOf (leAt f.payload 16 1) 4 2 = 2 then [] else [(384, true)]
  else if f.opcode = Op.scoreSel then (32, false) :: if (byteAt f.payload 18).getLsbD 0 then [(128, false)] else []
  else if f.opcode = Op.accOpen then (if accDeliver f = 1 ∨ accDeliver f = 2 then [(accResultAt f, true)] else [])
  else []

/-- SRC_ADDR, DST_ADDR, pitches and COUNT of a TILE_XFER (Table 4.9). -/
def xferSrc (f : Req) : Nat := bitsOf (leAt f.payload 0 8) 0 58
def xferDst (f : Req) : Nat := bitsOf (leAt f.payload 8 8) 0 58
def xferSrcPitch (f : Req) : Nat := leAt f.payload 16 4
def xferDstPitch (f : Req) : Nat := leAt f.payload 20 4
def xferCount (f : Req) : Nat := leAt f.payload 24 2

/-- The source and destination ranges of a TILE_XFER (R206). -/
def xferSrcRange (f : Req) : Int × Int := ((xferSrc f : Int), (xferSrc f + (64 * xferCount f - 1) * xferSrcPitch f + 63 : Nat))
def xferDstRange (f : Req) : Int × Int := ((xferDst f : Int), (xferDst f + (64 * xferCount f - 1) * xferDstPitch f + 63 : Nat))

/-- A TILE_XFER that R207 does not refuse. -/
def xferOk (f : Req) : Bool :=
  bitsOf (leAt f.payload 0 8) 58 6 == 0 && bitsOf (leAt f.payload 8 8) 58 6 == 0 && zerosAt f.payload 26 6 &&
    xferSrc f % 64 == 0 && xferDst f % 64 == 0 && xferSrcPitch f % 64 == 0 && xferDstPitch f % 64 == 0 &&
    xferSrcPitch f != 0 && xferDstPitch f != 0 && decide (1 ≤ xferCount f) && decide (xferCount f ≤ 256) && !f.dlx &&
    !rangesMeet (xferSrcRange f) (xferDstRange f)

/-- A range a request names: whether it is an output, whether its descriptor has ZSKIP = 1, and its first and last byte. -/
structure Named where
  out : Bool
  zskip : Bool
  lo : Nat
  hi : Nat
deriving DecidableEq, Repr

/-- DADDR of an RD_OBJ (Table 8.5). -/
def objDaddr (f : Req) : Nat := bitsOf (leAt f.payload 24 8) 0 58

/-- The ranges an engine or object request names (R189, R348); `bytes` is the length of an RD_OBJ's DADDR range. -/
def namedRanges (f : Req) (bytes : Nat) : List Named :=
  if f.opcode = Op.tileXfer then
    [⟨false, false, (xferSrcRange f).1.toNat, (xferSrcRange f).2.toNat⟩, ⟨true, false, (xferDstRange f).1.toNat, (xferDstRange f).2.toNat⟩]
  else if f.opcode = Op.rdObj then
    (if objDaddr f = 0 then [] else [⟨true, false, objDaddr f, objDaddr f + bytes - 1⟩])
  else (descPlaces f).flatMap fun x =>
    let t := tensorAt f.payload x.1
    (tensorRanges t).map fun r => ⟨x.2, t.zskip, r.1.toNat, r.2.toNat⟩

/-! ### What the form itself breaks at ingress -/

/-- Opcodes that name an address through a descriptor and start with a work header (R171 ff., R191). -/
def opHeaded (o : BitVec 8) : Bool :=
  o == Op.accOpen || o == Op.accContrib || o == Op.accClose || o == Op.gather || o == Op.scatter || o == Op.filter ||
    o == Op.scoreSel || o == Op.expand

/-- Engine opcodes (R188). -/
def opEngine (o : BitVec 8) : Bool := opHeaded o || o == Op.tileXfer

/-- Opcodes refused without a window of the source's port under R221's condition (R221, R335, R406, R474). -/
def opAnyWindow (o : BitVec 8) : Bool :=
  o == Op.accOpen || o == Op.accContrib || o == Op.accClose || o == Op.rdObj || o == Op.sealObj || o == Op.discard ||
    o == Op.ownOffer || o == Op.ownAccept

/-- Opcodes that may carry the deadline extension (R350). -/
def opDeadline (o : BitVec 8) : Bool := o == Op.rdObj || o == Op.gather || o == Op.scatter || o == Op.scoreSel

/-- Whether SUBOP has a meaning for the opcode (R53, Table 2.4, R153, R229, R259, R312, R343, R474). -/
def subopOk (f : Req) : Bool :=
  let n := f.subop.toNat
  if f.opcode = Op.rdLine then decide (n ≤ 2)
  else if f.opcode = Op.atomLogic then decide (n ≤ 2)
  else if f.opcode = Op.atomMinmax then decide (n ≤ 3)
  else if f.opcode = Op.accContrib ∨ f.opcode = Op.gather ∨ f.opcode = Op.scatter ∨ f.opcode = Op.sealObj then decide (n ≤ 1)
  else if f.opcode = Op.ownOffer then decide (n ≤ 2)
  else n == 0

/-- Whether OSZ is among the widths of an atomic's row (R53, R70). -/
def oszOk (f : Req) : Bool :=
  if f.opcode = Op.atomCas then f.osz == 1 || f.osz == 2
  else if opAtomic f.opcode then decide (f.osz.toNat ≤ 1)
  else f.osz != 3

/-- Whether LEN is one Table 2.2 or the opcode's chapter allows (R53). -/
def lenOk (f : Req) : Bool :=
  let n := f.len.toNat
  if f.opcode = Op.rdLine ∨ f.opcode = Op.fence then n == 0
  else if opLineWrite f.opcode then n == if f.bep then 9 else 8
  else if f.opcode = Op.atomCas then n == if f.osz = 2 then 2 else 1
  else if opAtomic f.opcode then n == 1
  else if f.opcode = Op.rdObj ∨ f.opcode = Op.discard ∨ f.opcode = Op.tileXfer ∨ f.opcode = Op.ownOffer ∨ f.opcode = Op.accClose
    then n == 2
  else if f.opcode = Op.accContrib then (if f.subop = 1 then decide (1 ≤ n) else n == 2)
  else if f.opcode = Op.sealObj ∨ f.opcode = Op.ownAccept then n == 1
  else if f.opcode = Op.gather ∨ f.opcode = Op.scatter then n == if f.subop = 1 then 19 else 13
  else if f.opcode = Op.filter then n == 30
  else if f.opcode = Op.expand then n == 13
  else decide (1 ≤ n)

/-- DUR on a request that R418 never honours; a segment frame is no request. -/
def durBad (f : Req) : Bool :=
  f.dur && !opLine f.opcode && !opAtomic f.opcode && !(f.opcode == Op.accContrib && f.subop == 1)

/-- What R53 and R54 refuse: reserved opcode, reserved header bits, SUBOP, OSZ, LEN, DLX where it may not travel (R350), and DUR
where it may not (R418). -/
def headerBad (f : Req) : Bool :=
  !opRequest f.opcode || f.rsv != 0 || !subopOk f || !oszOk f || !lenOk f || (f.dlx && !opDeadline f.opcode) || durBad f

/-- What R64, R71 and R72 refuse of a line or atomic request. -/
def addrBad (f : Req) : Bool :=
  if opLine f.opcode then f.addr.toNat % 128 != 0
  else if opAtomic f.opcode then
    let w := oszBytes f.osz
    let used := if f.opcode = Op.atomCas then 2 * w else w
    f.addr.toNat % w != 0 || !zerosAt f.payload used (16 * f.len.toNat - used)
  else false

/-- What R188, R191, R192, R198 and R306 refuse of an engine request. -/
def engineBad (f : Req) : Bool :=
  (opEngine f.opcode && f.addr != 0) || (opHeaded f.opcode && !hdrOk f) ||
    (descPlaces f).any (fun x => !tensorOk f.payload x.1) || (f.opcode == Op.tileXfer && !xferOk f)

end Sys2Proof.Machine
end

