-- ==== Sys2Proof/Machine/Shaper.lean ====
section
/-! DEFINITION. Buckets, the timing wheel and the buckets of a port (R558 to R565, R571, R577). -/

namespace Sys2Proof.Machine

/-- A bucket's depth in units of 1/400 byte; BURST 0 acts as 1 (R558, R560). -/
def bucketDepth (b : Bucket) : Int := (max 1 b.burst * 256 * 400 : Nat)

/-- A bucket's tokens as they stand at a wheel tick: 3 × RATE units a tick, never above the depth (R560). -/
def bucketT (b : Bucket) (tick : Nat) : Int :=
  if b.rate = 0 then 0 else min (bucketDepth b) (b.t + (3 * b.rate * (tick - b.at_) : Nat))

/-- A bucket is eligible when it is off or when T ≥ 0 (R561). -/
def bucketEligible (b : Bucket) (tick : Nat) : Bool := b.rate == 0 || decide (0 ≤ bucketT b tick)

/-- The wheel tick at which a negative T falls due, at most 4,095 ahead (R564). -/
def bucketEntry (b : Bucket) (t : Int) (tick : Nat) : Option Nat :=
  if t < 0 then some (tick + min 4095 (ceilDiv (-t).toNat (3 * b.rate))) else none

/-- A charge of a counted length, stopping at the floor (R560), and the wheel entry it makes (R564). -/
def bucketCharge (b : Bucket) (tick bytes : Nat) : Bucket :=
  if b.rate = 0 then b
  else
    let t := max (-bucketDepth b) (bucketT b tick - (400 * bytes : Nat))
    { b with t := t, at_ := tick, entry := bucketEntry b t tick }

/-- A bucket after a configuration write: T = 0 and no wheel entry (R571). -/
def bucketReset (b : Bucket) (tick : Nat) : Bucket := { b with t := 0, at_ := tick, entry := none }

/-- A bucket whose wheel slot is reached: the entry is computed again (R564). -/
def bucketDue (b : Bucket) (tick : Nat) : Bucket :=
  match b.entry with
  | some e => if e ≤ tick then
      let t := bucketT b tick
      { b with t := t, at_ := tick, entry := bucketEntry b t tick }
    else b
  | none => b

/-- A port's wheel tick: 0.6 ns each (R563). -/
def wheelTick (x : ShpSet) : Nat := x.units / 3

/-- OVH at reset: 24 on the host interface (Table 14.4). -/
def ovhReset (p : Port) : BitVec 8 := if p = .host then 0x18 else 0

/-- A port's SHP_ set. -/
def shpOf (s : State) (p : Port) : ShpSet := tgetD s.shp.sets p (ShpSet.blank (ovhReset p))

/-- A port's SHP_ set changed. -/
def modShp (s : State) (p : Port) (f : ShpSet → ShpSet) : State :=
  { s with shp := { s.shp with sets := tset s.shp.sets p (f (shpOf s p)) } }

/-- The class bucket of a class. -/
def clsBucket (x : ShpSet) (c : Cls) : Bucket := tgetD x.cls c Bucket.blank
/-- The policer bucket of a class. -/
def polBucket (x : ShpSet) (c : Cls) : Bucket := tgetD x.pol c Bucket.blank
/-- PRIO of a class (Table 14.5). -/
def prioOf (x : ShpSet) (c : Cls) : Nat := (tgetD x.prio c 0).toNat
/-- The quantum of a class in bytes; WEIGHT resets to 1 and 0 acts as 1 (Table 14.5). -/
def quantumOf (x : ShpSet) (c : Cls) : Nat := max 1 (tgetD x.weight c 1).toNat * 256
/-- The deficit of a class (R568). -/
def deficitOf (x : ShpSet) (c : Cls) : Nat := tgetD x.deficit c 0
/-- The policer action of a class (Table 14.6). -/
def polAct (x : ShpSet) (c : Cls) : Nat := bitsOf x.act.toNat (2 * c.toNat) 2

/-- Counted length of a frame on a port (R559). -/
def countedLength (x : ShpSet) (fr : Frame) : Nat := frameBytes fr + x.ovh.toNat

/-- Every bucket of a set changed. -/
def mapBuckets (x : ShpSet) (f : Bucket → Bucket) : ShpSet :=
  { x with port := f x.port, cls := tmap x.cls fun _ b => f b, pol := tmap x.pol fun _ b => f b, adm := f x.adm }

/-- Active lanes of a port; the host interface's 1.6 Tbit/s (R682) are those of 4 lanes. -/
def activeLanes (s : State) : Port → Nat
  | .lane p => (portOf s p).actWidth.toNat
  | .host => 4
  | .own => 0

/-- RATE of an admission bucket: LEVEL ÷ 256 of the port's payload rate at ACT_WIDTH, in 100 Mbit/s (R577). -/
def admRate (s : State) (p : Port) (level : BitVec 8) : Nat := level.toNat * 4000 * activeLanes s p / 256

/-- The admission bucket of a port under a level, as a change of LEVEL leaves it: T = 0 (R577, R578). -/
def admReset (s : State) (p : Port) (level : BitVec 8) (x : ShpSet) : ShpSet :=
  { x with adm := bucketReset { x.adm with rate := admRate s p level, burst := 256 } (wheelTick x) }

/-- LEVEL set by the power controller, 0 or 16 to 255, with every admission bucket reset (R578). -/
def setLevel (s : State) (level : BitVec 8) : State :=
  if s.shp.level = level then s
  else
    let s := modShp s .host fun x => x
    { s with shp := { level := level, sets := tmap s.shp.sets fun p x => admReset s p level x } }

/-- The buckets of a port at step 7 of training: T = 0, wheel empty (R562). -/
def shpTrained (s : State) (p : Port) : State :=
  modShp s p fun x => admReset s p s.shp.level (mapBuckets x fun b => bucketReset b (wheelTick x))

/-- The wheel of a port advanced by 1 µs: 5,000 fifths of a nanosecond (R563). -/
def wheelAdvance (x : ShpSet) : ShpSet := { x with units := x.units + 5000 }

/-- Whether a port's wheel advances: a port at STATE 3 or 4, or the host interface with its link up (R562). -/
def wheelRuns (s : State) : Port → Bool
  | .lane p => portCarries (portOf s p)
  | .host => s.hp.link
  | .own => false

/-! ### Registers (R571, R580) -/

/-- RATE and BURST of a bucket written: T = 0 and its wheel entry removed, even for the same value (R571). -/
def bucketWrite (b : Bucket) (v : Word) (tick : Nat) : Bucket :=
  bucketReset { b with rate := bitsOf v.toNat 0 16, burst := bitsOf v.toNat 16 16 } tick

/-- RATE and BURST as they read (Table 14.3). -/
def bucketRead (b : Bucket) : Word := BitVec.ofNat 32 (b.burst * 2 ^ 16 + b.rate)

/-- The class a per-class register names, when its offset lies in a row of seven. -/
def clsAt (base off : Nat) : Option Cls :=
  if base ≤ off && decide (off < base + 28) then some (BitVec.ofNat 3 ((off - base) / 4)) else none

/-- A counter field written: cleared by all ones only (R7). -/
def clearW1 (v : Word) (n : Nat) : Nat := if v = 0xFFFFFFFF then 0 else n

/-- The policers whose ACT a write changes, reset (Table 14.6). -/
def writeAct (x : ShpSet) (v : Word) : ShpSet :=
  let act : BitVec 14 := v.extractLsb' 0 14
  let y := { x with act := act }
  let k := wheelTick x
  { y with pol := tmap x.pol fun c b => if polAct x c = polAct y c then b else bucketReset b k }

/-- A write to a register of a port's SHP_ set (R571, R580): a trunk port has no policers. -/
def writeShp (s : State) (p : Port) (off : Nat) (v : Word) : State × Status :=
  let trunk := match p with
    | .lane q => isTrunk s q
    | _ => false
  let x := shpOf s p
  let k := wheelTick x
  if trunk && ((clsAt 0x50 off).isSome || off == 0x6C) then (s, .denied)
  else
    let y :=
      if off = 0x00 then { x with port := bucketWrite x.port v k }
      else if off = 0x04 then mapBuckets { x with ovh := v.setWidth 8 } fun b => bucketReset b k
      else if off = 0x6C then writeAct x v
      else if off = 0x70 then { x with held := clearW1 v x.held }
      else if off = 0x74 then { x with refused := clearW1 v x.refused }
      else if off = 0x78 then { x with override := clearW1 v x.override }
      else match clsAt 0x10 off, clsAt 0x30 off, clsAt 0x50 off with
        | some c, _, _ => { x with cls := tset x.cls c (bucketWrite (clsBucket x c) v k) }
        | _, some c, _ => { x with prio := tset x.prio c (v.extractLsb' 8 2), weight := tset x.weight c (v.setWidth 8)
                                   deficit := tset x.deficit c 0 }
        | _, _, some c => { x with pol := tset x.pol c (bucketWrite (polBucket x c) v k) }
        | _, _, _ => x
    (modShp s p fun _ => y, .ok)

/-- A register of a port's SHP_ set as it reads (Tables 14.3 to 14.8). -/
def readShp (s : State) (p : Port) (off : Nat) : Word :=
  let trunk := match p with
    | .lane q => isTrunk s q
    | _ => false
  let x := shpOf s p
  if off = 0x00 then bucketRead x.port
  else if off = 0x04 then x.ovh.setWidth 32
  else if off = 0x6C then (if trunk then 0 else x.act.setWidth 32)
  else if off = 0x70 then BitVec.ofNat 32 x.held
  else if off = 0x74 then BitVec.ofNat 32 x.refused
  else if off = 0x78 then BitVec.ofNat 32 x.override
  else match clsAt 0x10 off, clsAt 0x30 off, clsAt 0x50 off with
    | some c, _, _ => bucketRead (clsBucket x c)
    | _, some c, _ => BitVec.ofNat 32 (prioOf x c * 256 + (tgetD x.weight c 1).toNat)
    | _, _, some c => if trunk then 0 else bucketRead (polBucket x c)
    | _, _, _ => 0

/-- A bucket of a port changed by its name. -/
def modBucket (s : State) (p : Port) (b : BucketId) (f : Bucket → Bucket) : State :=
  modShp s p fun x =>
    match b with
    | .port => { x with port := f x.port }
    | .cls c => { x with cls := tset x.cls c (f (clsBucket x c)) }
    | .pol c => { x with pol := tset x.pol c (f (polBucket x c)) }
    | .adm => { x with adm := f x.adm }

end Sys2Proof.Machine
end

