-- ==== Sys2Proof/Machine/Power.lean ====
section
/-! DEFINITION. The power controller: notes and ramps (R623 to R631), the ladder, the capping and thermal loops (R633 to R642),
and tiles gated and ungated (R635). -/

namespace Sys2Proof.Machine

/-! ### Notes -/

/-- The code of a note, fastest 0 (Table 16.2). -/
def noteCode : Note → Nat
  | .top => 0
  | .heart => 1
  | .base => 2

/-- The note of a code; code 3 is never held (Table 16.10). -/
def noteOfCode (n : Nat) : Note := if n = 0 then .top else if n = 1 then .heart else .base

/-- The slower of two notes (R627, R628). -/
def slower (a b : Note) : Note := if noteCode a ≤ noteCode b then b else a

/-- The fastest of some notes, Base when there are none (R626). -/
def fastest (l : List Note) : Note := l.foldl (fun a b => if noteCode b < noteCode a then b else a) .base

/-- The preferred note of a phase (R625). -/
def phaseNote (s : State) (ph : BitVec 4) : Note := noteOfCode (bitsOf s.pwr.phase.toNat (2 * ph.toNat) 2)

/-- A tile's record. -/
def tileOf (s : State) (t : TileNo) : TileRec := tgetD s.eng.tiles t TileRec.blank

/-- A tile's record changed. -/
def modTile (s : State) (t : TileNo) (f : TileRec → TileRec) : State :=
  { s with eng := { s.eng with tiles := tset s.eng.tiles t (f (tileOf s t)) } }

/-- The engine die of a tile (R169): 64e + t. -/
def tileDie (t : TileNo) : BitVec 3 := BitVec.ofNat 3 (t.toNat / 64)

/-- The quadrant of a tile: dies 2q and 2q + 1 (R24). -/
def tileQuad (t : TileNo) : Quad := BitVec.ofNat 2 (t.toNat / 128)

/-- Every tile number. -/
def allTiles : List TileNo := (List.range 512).map (BitVec.ofNat 9)

/-- An engine request by source and tag. -/
def engReq (s : State) (src : Ep) (tag : Tag) : Option EngReq := s.eng.reqs.find? fun r => r.f.src == src && r.f.tag == tag

/-- The preferred note of a descriptor. -/
def descNote (s : State) (d : Desc) : Note :=
  match engReq s d.src d.tag with
  | some r => phaseNote s (hdrPhase r.f)
  | none => .base

/-- An engine die's record. -/
def dieOf (s : State) (e : BitVec 3) : EngDie := tgetD s.pwr.dies e EngDie.blank

/-- An engine die's record changed. -/
def modDie (s : State) (e : BitVec 3) (f : EngDie → EngDie) : State :=
  { s with pwr := { s.pwr with dies := tset s.pwr.dies e (f (dieOf s e)) } }

/-- The requested note of a die: the fastest asked by descriptors on its tiles or within the last 1 ms (R626). -/
def requestedNote (s : State) (e : BitVec 3) : Note :=
  let queued := (s.eng.tiles.filter fun x => tileDie x.1 == e).flatMap fun x => x.2.queue.map (descNote s)
  let asked := ((dieOf s e).asks.filter fun a => decide (s.counter < a.2 + 1000)).map (·.1)
  fastest (queued ++ asked)

/-- The ceiling of a ladder position (Table 16.4). -/
def posCeil (pos : Nat) : Note := if pos = 0 then .top else if pos = 1 then .heart else .base

/-- The tile allowance of a ladder position (Table 16.4). -/
def posAllow (pos : Nat) : Nat := if pos ≤ 2 then 512 else 512 - 64 * (min pos 10 - 2)

/-- The admission LEVEL of a ladder position (Table 16.4). -/
def posLevel (pos : Nat) : BitVec 8 :=
  if pos ≤ 10 then 0 else if pos ≥ 18 then 16 else BitVec.ofNat 8 (224 - 32 * (pos - 11))

/-- The applied ladder position: the lower of the two loops on the ladder (R640). -/
def appliedPos (s : State) : Nat := max s.pwr.capPos s.pwr.thermPos

/-- The device-wide ceiling: capping loop, thermal loop and the start rule (R627, R638). -/
def ceiling (s : State) : Note :=
  slower (posCeil (appliedPos s)) (if s.pwr.hist < 64 then .heart else .top)

/-- The granted note of a die (R627). -/
def grantedNote (s : State) (e : BitVec 3) : Note := slower (requestedNote s e) (ceiling s)

/-- The current note of a die: during a ramp the slower of the two notes involved (R628). -/
def currentNote (s : State) (e : BitVec 3) : Note :=
  match (dieOf s e).ramp with
  | some r => slower r.start r.target
  | none => (dieOf s e).note

/-- A ramp begins on a die whose granted note changed, once no ramp runs and no bar stands (R629, Table 16.3 step 1). -/
def startRamp (s : State) (e : BitVec 3) : State :=
  let d := dieOf s e
  let g := grantedNote s e
  if d.ramp.isSome || g = d.note || (decide (noteCode g < noteCode d.note) && decide (s.counter < d.barUntil)) then s
  else modDie s e fun d => { d with ramp := some ⟨d.note, g, 0, none, false⟩ }

/-- Every engine die's granted note followed. -/
def followNotes (s : State) : State := ((List.range 8).map (BitVec.ofNat 3)).foldl startRamp s

/-- A note asked for by a descriptor now (R626). -/
def askNote (s : State) (e : BitVec 3) (n : Note) : State :=
  let now := s.counter
  modDie s e fun d => { d with asks := (d.asks.filter fun a => a.1 != n) ++ [(n, now)] }

/-- NOTE_REQUEST_DECAY (R626): notes not asked for 1 ms leave a die's request, and the granted note follows. -/
def noteRequestDecay (s : State) (e : BitVec 3) : State :=
  let now := s.counter
  startRamp (modDie s e fun d => { d with asks := d.asks.filter fun a => decide (now < a.2 + 1000) }) e

/-- NOTE_RAMP_END (Table 16.3 step 5): the ramp ends in its target, or back at its start, and a next ramp may begin. -/
def noteRampEnd (s : State) (e : BitVec 3) : State :=
  match (dieOf s e).ramp with
  | some r =>
    if r.heldAt.isSome then s
    else startRamp (modDie s e fun d => { d with note := if r.back then r.start else r.target, ramp := none }) e
  | none => s

/-- DROOP_DETECT (R630, Table 16.3 step 2): DROOP_SEEN is set and a ramp on the die's domain holds its setpoint. -/
def droopDetect (s : State) (dom : BitVec 5) : State :=
  let s := { s with pwr := { s.pwr with droopSeen := true, droopAt := tset s.pwr.droopAt dom s.counter } }
  if dom < 8 then
    let now := s.counter
    modDie s (dom.setWidth 3) fun d =>
      { d with ramp := d.ramp.map fun r => { r with droops := r.droops + 1, heldAt := some now } }
  else s

/-- A ramp aborted: the rail returns to the starting note, and no ramp to a faster note begins for 1 ms (Table 16.3 4b). -/
def abortRamp (s : State) (e : BitVec 3) : State :=
  let now := s.counter
  modDie s e fun d => { d with ramp := d.ramp.map fun r => { r with heldAt := none, back := true }, barUntil := now + 1000 }

/-- Whether a held ramp resumes: towards a slower note always, towards a faster one with fewer than 3 droops and its target
still granted (Table 16.3 4a). -/
def rampResumes (s : State) (e : BitVec 3) (r : Ramp) : Bool :=
  decide (noteCode r.start < noteCode r.target) ||
    (decide (r.droops < 3) && decide (noteCode (grantedNote s e) ≤ noteCode r.target))

/-- DROOP_RECOVER (Table 16.3 steps 3 and 4): a held ramp resumes or aborts. -/
def droopRecover (s : State) (dom : BitVec 5) : State :=
  let s := { s with pwr := { s.pwr with droopAt := tdel s.pwr.droopAt dom } }
  let e := dom.setWidth 3
  if dom < 8 then
    match (dieOf s e).ramp with
    | some r =>
      if r.heldAt.isNone then s
      else if rampResumes s e r || r.back then modDie s e fun d => { d with ramp := some { r with heldAt := none } }
      else abortRamp s e
    | none => s
  else s

/-- LOC of a regulator domain's die (Table 16.1, R677). -/
def locDomain (dom : BitVec 5) : Loc :=
  let n := dom.toNat
  let die := if n < 8 then 12 + n else if n < 16 then n - 8 else if n < 20 then 8 + (n - 16) else if n < 24 then n
    else if n < 26 then 24 else if n < 30 then 2 * (n - 26) else 24
  ⟨BitVec.ofNat 5 die, 0, 0, 0⟩

/-- DROOP_RECOVER_TIMEOUT (Table 16.3 step 4c): no recovery within 100 µs aborts the ramp and raises an error record. -/
def droopRecoverTimeout (s : State) (dom : BitVec 5) : State :=
  let e := dom.setWidth 3
  match (dieOf s e).ramp with
  | some r =>
    match r.heldAt with
    | some t =>
      if dom < 8 && decide (t + 100 ≤ s.counter) then raise (abortRamp s e) (report 12 .none (locDomain dom)) else s
    | none => s
  | none => s

/-- FAST_RAMP_BAR_END (Table 16.3 step 4b): the bar ends and a ramp to a still-granted faster note may start. -/
def fastRampBarEnd (s : State) (e : BitVec 3) : State :=
  if (dieOf s e).barUntil ≤ s.counter then startRamp s e else s

/-! ### Tiles (R202, R204, R635) -/

/-- Ungated tiles, those being ungated included. -/
def ungatedCount (s : State) : Nat := (s.eng.tiles.filter fun x => !x.2.gated || x.2.ungating).length

/-- The tile allowance (R635, R638). -/
def allowance (s : State) : Nat := posAllow (appliedPos s)

/-- Tiles allotted to accords. -/
def accordTiles (s : State) : List TileNo := s.acc.slots.flatMap fun x => if x.2.state = .free then [] else x.2.tiles

/-- Whether an engine die is under partial reset (Table 18.3). -/
def dieResetting (s : State) (e : BitVec 3) : Bool := s.err.resetting.getLsbD (14 + e.toNat)

/-- A tile that can be ungated. -/
def canUngate (s : State) (t : TileNo) : Bool :=
  (tileOf s t).gated && !(tileOf s t).ungating && !(tileOf s t).failed && !dieResetting s (tileDie t)

/-- An idle ungated tile: nothing queued, in no accord (R635). -/
def idleTile (s : State) (t : TileNo) : Bool :=
  !(tileOf s t).gated && (tileOf s t).queue.isEmpty && !(accordTiles s).contains t

/-- One tile asked of the power controller for some quadrants (R635): ungated while the count is below the allowance, or
in exchange for the highest-numbered idle ungated tile of another quadrant; none when it refuses. -/
def askTile (s : State) (quads : List Quad) : Option State :=
  match allTiles.find? fun t => quads.contains (tileQuad t) && canUngate s t with
  | none => none
  | some t =>
    let ungate : State → State := fun s => modTile s t fun r => { r with ungating := true }
    if ungatedCount s < allowance s then some (ungate s)
    else match allTiles.reverse.find? fun u => !quads.contains (tileQuad u) && idleTile s u with
      | some u => some (ungate (modTile s u fun r => { r with gated := true, marked := false }))
      | none => none

/-- A number of tiles asked, one by one, until the number is met or one is refused (R635); with how many were given. -/
def askTiles (s : State) (quads : List Quad) : Nat → State × Nat
  | 0 => (s, 0)
  | n + 1 =>
    match askTile s quads with
    | none => (s, 0)
    | some s' => let r := askTiles s' quads n; (r.1, r.2 + 1)

/-- Tiles beyond the allowance marked for gating, highest index first; a marked tile with nothing to do is gated at once. -/
def markTiles (s : State) : State :=
  let excess := ungatedCount s - allowance s
  let marked := (s.eng.tiles.filter fun x => x.2.marked && !x.2.gated).length
  let go := (allTiles.reverse.filter fun t => !(tileOf s t).gated && !(tileOf s t).marked).take (excess - marked)
  go.foldl (fun s t => modTile s t fun r => { r with marked := true }) s

/-- A tile with an accord's stripe that is not complete (R242). -/
def hasStripe (s : State) (t : TileNo) : Bool := s.acc.slots.any fun x => x.2.stripes.any fun y => y.tile == t && !y.done

/-- TILE_GATE (R204, R242, R635): a marked tile whose queue is empty and whose stripes are complete is gated. -/
def tileGate (s : State) (t : TileNo) : State :=
  let r := tileOf s t
  if r.marked && !r.gated && r.queue.isEmpty && !hasStripe s t then modTile s t fun r => { r with gated := true, marked := false } else s

/-- TILE_UNGATE_COMPLETE (R635): a tile being ungated becomes available; the allowance may have fallen meanwhile. -/
def tileUngateComplete (s : State) (t : TileNo) : State :=
  let r := tileOf s t
  if r.ungating then markTiles (modTile s t fun r => { r with gated := false, ungating := false }) else s

/-! ### The loops -/

/-- The cap in force: values under 400 act as 400, over 1,500 as 1,500 (Table 16.6). -/
def capW (s : State) : Nat := min 1500 (max 400 s.pwr.cap.toNat)
/-- UP_INT; 0 acts as 1 (Table 16.7). -/
def upInt (s : State) : Nat := max 1 s.pwr.upInt.toNat
/-- The intervals averaged (R634): AVG_INT, 0 acting as 1, or all collected when there are fewer. -/
def avgCount (s : State) : Nat := min (max 1 s.pwr.avgInt.toNat) s.pwr.history.length
/-- The sum of the averaged intervals. -/
def avgSum (s : State) : Nat := (s.pwr.history.take (avgCount s)).sum

/-- Whether the capping loop moves down (R634). -/
def capDown (s : State) : Bool :=
  decide (capW s < s.pwr.inW) &&
    (decide (capW s * avgCount s < avgSum s) || decide (capW s * (100 + s.pwr.fastPct.toNat) < s.pwr.inW * 100))

/-- Whether the average stands below the cap less HYST_PM per mille (R634). -/
def capBelow (s : State) : Bool :=
  decide (avgSum s * 1000 < capW s * (1000 - s.pwr.hystPm.toNat) * avgCount s)

/-- Whether every tile is gated. -/
def allGated (s : State) : Bool := s.eng.tiles.all fun x => x.2.gated && !x.2.ungating

/-- The floor of the ladder (Table 16.4). -/
def floorPos : Nat := 18

/-- The step from position 10 to 11 waits until every tile is gated, or 2 ms after the allowance reached 0 (R636). -/
def mayPass10 (s : State) : Bool := allGated s || decide (s.pwr.allowZeroAt + 2000 ≤ s.counter)

/-- The capping loop at the end of an interval (R634, R636, R637). -/
def capLoop (s : State) : State :=
  let pos := s.pwr.capPos
  if pos = floorPos && decide (capW s < s.pwr.inW) then
    let p := { s.pwr with capUnmet := true, unmetSeen := true, metCount := 0, upCount := 0 }
    setAlert (raise { s with pwr := p } (report 12 .none locCtl)) alertCap
  else
    let met := if avgSum s ≤ capW s * avgCount s then s.pwr.metCount + 1 else 0
    let unmet := s.pwr.capUnmet && decide (met < upInt s)
    let s := { s with pwr := { s.pwr with metCount := met, capUnmet := unmet } }
    if capDown s then
      if pos < floorPos && (pos != 10 || mayPass10 s) then
        { s with pwr := { s.pwr with capPos := pos + 1, upCount := 0 } }
      else { s with pwr := { s.pwr with upCount := 0 } }
    else if capBelow s then
      if upInt s ≤ s.pwr.upCount + 1 && 0 < pos && !unmet then
        { s with pwr := { s.pwr with capPos := pos - 1, upCount := 0 } }
      else { s with pwr := { s.pwr with upCount := s.pwr.upCount + 1 } }
    else { s with pwr := { s.pwr with upCount := 0 } }

/-- The thermal loop at the end of an interval (R640, R641). -/
def thermLoop (s : State) : State :=
  let p := s.pwr
  let p :=
    if p.critActive then { p with thermPos := floorPos, thermUp := 0 }
    else if p.thermHot then { p with thermPos := min floorPos (p.thermPos + 1), thermUp := 0 }
    else if p.thermWarm then { p with thermUp := 0 }
    else if upInt s ≤ p.thermUp + 1 && 0 < p.thermPos then { p with thermPos := p.thermPos - 1, thermUp := 0 }
    else { p with thermUp := p.thermUp + 1 }
  { s with pwr := { p with thermHot := false, thermWarm := false } }

/-- What a change of the applied position brings: LEVEL, tiles marked, notes followed, the count at which the allowance
reached 0 (R627, R635, R636, R578). -/
def applyPos (s : State) (before : Nat) : State :=
  let zero := posAllow (appliedPos s) = 0 && posAllow before ≠ 0
  let s := if zero then { s with pwr := { s.pwr with allowZeroAt := s.counter } } else s
  followNotes (markTiles (setLevel s (posLevel (appliedPos s))))

/-- INTERVAL_END (R622, R633, R634, R637, R640): power is read, a written cap takes effect, and both loops move. -/
def intervalEnd (s : State) (inW : Nat) (doms : List (Nat × Nat)) : State :=
  let before := appliedPos s
  let table := doms.zipIdx.map fun x => (BitVec.ofNat 5 x.2, x.1)
  let p := { s.pwr with inW := inW, doms := table, cap := s.pwr.capNext.getD s.pwr.cap, capNext := none
                        history := (inW :: s.pwr.history).take 255, hist := min 64 (s.pwr.hist + 1) }
  let s := { s with pwr := p }
  let s := { s with pwr := { s.pwr with avgW := avgSum s / avgCount s } }
  applyPos (thermLoop (capLoop s)) before

/-- THR of a die in 1/8 °C (Table 16.5): stacks 85 °C, others T_THR held within 60 to 105. -/
def thrOf (s : State) (die : Nat) : Int :=
  if 20 ≤ die && die ≤ 23 then 85 * 8 else (8 * min 105 (max 60 s.pwr.tThr.toNat) : Nat)
/-- CRIT of a die in 1/8 °C (Table 16.5). -/
def critOf (die : Nat) : Int := if 20 ≤ die && die ≤ 23 then 95 * 8 else 110 * 8
/-- SHUT of a die in 1/8 °C (Table 16.5). -/
def shutOf (die : Nat) : Int := if 20 ≤ die && die ≤ 23 then 105 * 8 else 120 * 8

/-- THERMAL_READ (R639 to R641) but for the shutdown of R642: temperatures kept in 1/8 °C, the thermal loop told, CRIT acted
on, with a record as it comes into force. -/
def thermalRead (s : State) (temps : List Int) : State :=
  let before := appliedPos s
  let dies := temps.zipIdx
  let any : (Nat → Int) → Bool := fun th => dies.any fun x => decide (th x.2 < x.1)
  let hotDies := (dies.filter fun x => decide (shutOf x.2 < x.1)).map fun x => (x.2, tgetD s.pwr.overShut x.2 s.counter)
  let hot := any (thrOf s)
  let crit := any critOf
  let cool := dies.all fun x => decide (x.1 < thrOf s x.2)
  let p := { s.pwr with temps := dies.map (fun (x : Int × Nat) => (x.2, x.1)), overShut := hotDies, thermHot := s.pwr.thermHot || hot }
  let p := { p with thermWarm := p.thermWarm || any fun d => thrOf s d - 40 }
  let p := { p with critActive := crit || (p.critActive && !cool), thermPos := if crit then floorPos else p.thermPos }
  let enters := crit && !s.pwr.critActive
  let s := { s with pwr := p }
  let s := if enters then setAlert (raise s (report 12 .none locCtl)) alertTherm else s
  applyPos s before

/-- Whether a die has exceeded its SHUT for 100 µs (R642). -/
def overShut (s : State) : Bool := s.pwr.overShut.any fun x => decide (x.2 + 100 ≤ s.counter)

/-! ### Registers -/

/-- A write of PWR_PHASE: code 3 in any field is refused with DENIED (Table 16.10). -/
def writePhase (s : State) (v : Word) : State × Status :=
  if (List.range 16).any fun k => bitsOf v.toNat (2 * k) 2 == 3 then (s, .denied)
  else (followNotes { s with pwr := { s.pwr with phase := v } }, .ok)

/-- A write of PWR_CAP: it takes effect at the end of the interval (R633). -/
def writeCap (s : State) (v : Word) : State × Status :=
  ({ s with pwr := { s.pwr with capNext := some (v.extractLsb' 0 16) } }, .ok)

/-- PWR_STAT as it reads (Table 16.8). -/
def readPwrStat (s : State) : Word :=
  let p := s.pwr
  BitVec.ofNat 32 (noteCode (ceiling s) * 2 ^ 30 + bit p.capUnmet * 2 ^ 29 + bit p.unmetSeen * 2 ^ 28 +
    bit (decide (0 < p.thermPos)) * 2 ^ 27 + bit p.critActive * 2 ^ 26 + bit p.droopSeen * 2 ^ 25 + allowance s * 2 ^ 13 +
    appliedPos s * 2 ^ 7 + p.hist)

/-- PWR_NOTE as it reads (Table 16.11). -/
def readPwrNote (s : State) : Word :=
  BitVec.ofNat 32 (((List.range 8).map fun e =>
    let d := dieOf s (BitVec.ofNat 3 e)
    (noteCode d.note + 4 * bit d.ramp.isSome) * 16 ^ e).sum)

/-! ### Rows -/

/-- INTERVAL_END (R634). -/
def execIntervalEnd (inW : Nat) (doms : List (Nat × Nat)) (s : State) : Res := whenUp s fun s => intervalEnd s inW doms
/-- NOTE_REQUEST_DECAY (R626). -/
def execNoteRequestDecay (die : BitVec 3) (s : State) : Res := whenUp s fun s => noteRequestDecay s die
/-- NOTE_RAMP_END (R631). -/
def execNoteRampEnd (die : BitVec 3) (s : State) : Res := whenUp s fun s => noteRampEnd s die
/-- DROOP_DETECT (R630). -/
def execDroopDetect (dom : BitVec 5) (s : State) : Res := whenUp s fun s => droopDetect s dom
/-- DROOP_RECOVER (R631). -/
def execDroopRecover (dom : BitVec 5) (s : State) : Res := whenUp s fun s => droopRecover s dom
/-- DROOP_RECOVER_TIMEOUT (R631). -/
def execDroopRecoverTimeout (dom : BitVec 5) (s : State) : Res := whenUp s fun s => droopRecoverTimeout s dom
/-- FAST_RAMP_BAR_END (R631). -/
def execFastRampBarEnd (die : BitVec 3) (s : State) : Res := whenUp s fun s => fastRampBarEnd s die
/-- TILE_GATE (R204). -/
def execTileGate (t : TileNo) (s : State) : Res := whenUp s fun s => tileGate s t
/-- TILE_UNGATE_COMPLETE (R635). -/
def execTileUngateComplete (t : TileNo) (s : State) : Res := whenUp s fun s => tileUngateComplete s t

end Sys2Proof.Machine
end

