-- ==== Sys2Proof/Machine/MgmtBase.lean ====
section
/-! DEFINITION. Management sources and their private registers (R692, R693), rights (R608, R696), and how a command's status
returns to its source (R691). -/

namespace Sys2Proof.Machine

/-- Block indexes of Table 19.6. -/
def blkBoot : BitVec 16 := 0x0000
def blkErr : BitVec 16 := 0x0001
def blkBlt : BitVec 16 := 0x0002
def blkPwr : BitVec 16 := 0x0003
def blkSec : BitVec 16 := 0x0004
def blkSwc : BitVec 16 := 0x0005
def blkShp : BitVec 16 := 0x0006
def blkCoh : BitVec 16 := 0x0007
def blkEng : BitVec 16 := 0x0008
def blkAcc : BitVec 16 := 0x0009
def blkObj : BitVec 16 := 0x000A
def blkFtl : BitVec 16 := 0x000B
def blkDry : BitVec 16 := 0x000C
def blkLse : BitVec 16 := 0x000D

/-- A source, when it is open; the host path is always there. -/
def sourceOf (s : State) (w : Who) : Option Source :=
  match s.mg.sources.find? fun x => decide (x.w = w) with
  | some x => some x
  | none => if w = .hostPath then some ⟨.hostPath, none, .blank, 0, none, []⟩ else none

/-- A source's record put back. -/
def setSource (s : State) (x : Source) : State :=
  let l := s.mg.sources
  let l := if l.any fun y => decide (y.w = x.w) then modWhere l (fun y => decide (y.w = x.w)) fun _ => x else l ++ [x]
  { s with mg := { s.mg with sources := l } }

/-- A source's private registers (R693). -/
def privOf (s : State) (w : Who) : Priv :=
  match sourceOf s w with
  | some x => x.priv
  | none => .blank

/-- A source's private registers changed. -/
def modPriv (s : State) (w : Who) (f : Priv → Priv) : State :=
  match sourceOf s w with
  | some x => setSource s { x with priv := f x.priv }
  | none => s

/-- The role of a session. -/
def roleOf (s : State) (w : Who) : Option Role := (sourceOf s w).bind (·.role)

/-- A session of role ADMIN. -/
def isAdmin (s : State) (w : Who) : Bool := decide (roleOf s w = some .admin)

/-- A management session, not the host path. -/
def isSession : Who → Bool
  | .session _ => true
  | .hostPath => false

/-- A response to a command given by itself, as a WRITE of one register (R691). -/
def respondOne (s : State) (w : Who) (addr : Word) (st : Status) : State :=
  emit s (.response w { mop := 2, count := if st = .ok then 1 else 0, device := devId s, status := Status.code st, mtag := 0,
                        addr := addr, len := 16, data := [] })

/-- The CMD_STAT of a block in a source's private registers (Tables 8.10, 11.10, 15.9). -/
def setCmdStat (s : State) (w : Who) (block : BitVec 16) (st : Status) : State :=
  modPriv s w fun p =>
    if block = blkObj then { p with objStat := st }
    else if block = blkLse then { p with lseStat := st }
    else if block = blkSec then { p with secStat := st, secKey := [], keyMask := 0 }
    else p

/-- A running command of a source ends with a status: its CMD_STAT is set and the message that wrote it may go on; a
command written by itself is answered (R691, R693). -/
def finishCmd (s : State) (w : Who) (block : BitVec 16) (st : Status) : State :=
  let mine : BlockCmd → Bool := fun b => b.block == block && decide (b.w = w) && b.started
  match s.mg.blocks.find? mine with
  | none => s
  | some b =>
    let s := { s with mg := { s.mg with blocks := eraseFirst mine s.mg.blocks } }
    if b.gone then s
    else
      let s := setCmdStat s w block st
      if b.msg then
        match sourceOf s w with
        | some x => setSource s { x with run := x.run.map fun r => { r with answer := some st } }
        | none => s
      else respondOne s w (block ++ b.off) st

/-- A source closed: its private registers go with it; what it has running ends unanswered (R693). -/
def closeSource (s : State) (w : Who) : State :=
  let bs := (s.mg.blocks.filter fun b => b.started || !decide (b.w = w)).map fun b => if b.w = w then { b with gone := true } else b
  { s with mg := { s.mg with sources := s.mg.sources.filter fun x => !decide (x.w = w), blocks := bs } }

end Sys2Proof.Machine
end

