-- ==== Sys2Proof/Machine/Security.lean ====
section
/-! DEFINITION. Tenants and key slots (R582 to R591), the security commands (R597 to R617), the coordinator's part of a
removal (R599, R602), measurements and quotes (R610 to R612). -/

namespace Sys2Proof.Machine

/-! ### Tenants and slots -/

/-- A tenant's entry. -/
def tenantOf (s : State) (t : TenantId) : TenantRec := tgetD s.sec.tenants t TenantRec.blank

/-- A tenant's entry changed. -/
def modTenant (s : State) (t : TenantId) (f : TenantRec → TenantRec) : State :=
  { s with sec := { s.sec with tenants := tset s.sec.tenants t (f (tenantOf s t)) } }

/-- Whether a tenant is REMOVING. -/
def isRemoving (s : State) (t : TenantId) : Bool := (tenantOf s t).removing

/-- A key slot. -/
def slotOf (s : State) (n : BitVec 10) : KeySlot := tgetD s.sec.slots n KeySlot.blank

/-- A key slot set. -/
def setSlot (s : State) (n : BitVec 10) (k : KeySlot) : State := { s with sec := { s.sec with slots := tset s.sec.slots n k } }

/-- The ACTIVE slot of a tenant. -/
def activeSlot (s : State) (t : TenantId) : Option (BitVec 10) :=
  (tenantOf s t).slot.bind fun n => if (slotOf s n).active && (slotOf s n).tenant == t then some n else none

/-- A generation's successor: from 65,535 to 1 (R583). -/
def nextGen (g : BitVec 16) : BitVec 16 := if g = 0xFFFF then 1 else g + 1

/-- The tag that a tenant's work takes: its slot's generation, or 0 with no ACTIVE slot (R590). -/
def genTag (s : State) (t : TenantId) : BitVec 16 :=
  match activeSlot s t with
  | some n => (slotOf s n).gen
  | none => 0

/-- The key under which a tenant's PROT data pass the cipher (R585). -/
def tenantKey (s : State) (t : TenantId) : List Byte :=
  match activeSlot s t with
  | some n => (slotOf s n).key
  | none => []

/-- The check of one data unit at a cipher stage (R591): none when it passes. -/
def cipherCheck (s : State) (t : TenantId) (prot : Bool) (tag : BitVec 16) : Option Status :=
  if isRemoving s t then some .revoked
  else if prot && tag == 0 then some .denied
  else if prot && tag != genTag s t then some .revoked
  else none

/-- A slot freed: its generation advances and its key is zeroized (R583, R598, R599 step 2). -/
def freeSlot (s : State) (t : TenantId) : State :=
  match activeSlot s t with
  | some n =>
    let k := slotOf s n
    modTenant (setSlot s n { KeySlot.blank with gen := nextGen k.gen }) t fun r => { r with slot := none }
  | none => s

/-- The lowest-numbered FREE slot (R597). -/
def freeSlotNo (s : State) : Option (BitVec 10) :=
  (((List.range 1024).map (BitVec.ofNat 10)).find? fun n => !(slotOf s n).active)

/-- Key bytes of a mode: 32 for SM4-XTS, 64 for AES-256-XTS (R585, R597). -/
def keyBytes (mode : BitVec 2) : Nat := if mode = 0 then 32 else 64

/-- The bytes of a source's key registers. -/
def keyData (p : Priv) (n : Nat) : List Byte :=
  ((List.range (n / 4)).map fun k => leBytes (tgetD p.secKey (BitVec.ofNat 4 k) 0).toNat 4).flatten

/-- Whether the key registers of a mode were written in full since the last command (R597). -/
def keyFull (p : Priv) (mode : BitVec 2) : Bool :=
  (List.range (keyBytes mode / 4)).all fun k => p.keyMask.getLsbD k

/-- The bytes of a source's SEC_CMD_DATA registers. -/
def secDataBytes (p : Priv) (first n : Nat) : List Byte :=
  ((List.range n).map fun k => leBytes (tgetD p.secData (BitVec.ofNat 4 (first + k)) 0).toNat 4).flatten

/-- ACTIVATE (R597). -/
def activateCmd (s : State) (w : Who) (t : TenantId) : State × Option Status :=
  let p := privOf s w
  let mode : BitVec 2 := (tgetD p.secData 0 0).extractLsb' 0 2
  if isRemoving s t || (activeSlot s t).isSome || decide (1 < mode.toNat) || !keyFull p mode || !isSession w then
    (s, some .denied)
  else match freeSlotNo s with
    | none => (s, some .noSlot)
    | some n =>
      let key := keyData p (keyBytes mode)
      let k : KeySlot := { active := true, mode := mode, tenant := t, gen := nextGen (slotOf s n).gen, key := key,
                           fp := Config.fingerprint key }
      let s := modTenant (setSlot s n k) t fun r => { r with slot := some n }
      (modPriv s w fun p => { p with secSlot := n }, some .ok)

/-- DEACTIVATE (R598). -/
def deactivateCmd (s : State) (t : TenantId) : State × Option Status :=
  if (activeSlot s t).isNone || isRemoving s t then (s, some .denied) else (freeSlot s t, some .ok)

/-! ### Removing a tenant: the coordinator (R599, R602) -/

/-- A removal begins or resumes at this device as coordinator: the notice goes to every device (Table 15.2 step 1). -/
def beginRemoval (s : State) (w : Who) (t : TenantId) : State :=
  let r : Removal := { who := w, firstAt := s.counter, sentAt := s.counter, scrubbing := false, marked := [], drained := [],
                       scrubbed := [] }
  notifyAll { s with sec := { s.sec with removals := tset s.sec.removals t r } } (.remove t)

/-- REMOVE (R599, R602): starts the removal; BUSY_RETRY while it runs here; for a tenant held REMOVING the recorded
coordinator is asked first. -/
def removeCmd (s : State) (w : Who) (t : TenantId) : State × Option Status :=
  if (tget s.sec.removals t).isSome then (s, some .busyRetry)
  else match isRemoving s t, (tenantOf s t).coord with
    | true, some c =>
      if c = devId s then (beginRemoval s w t, none)
      else (notify { s with sec := { s.sec with queries := s.sec.queries ++ [(t, w, s.counter)] } } c (.coordQuery t), none)
    | _, _ => (beginRemoval s w t, none)

/-- A removal this device coordinates, changed. -/
def modRemoval (s : State) (t : TenantId) (f : Removal → Removal) : State :=
  match tget s.sec.removals t with
  | some r => { s with sec := { s.sec with removals := tset s.sec.removals t (f r) } }
  | none => s

/-- Whether every device of the domain stands in a list. -/
def allIn (s : State) (l : List DevId) : Bool := (domainDevs s).all fun d => l.contains d

/-- A device added to a list once. -/
def addDev (l : List DevId) (d : DevId) : List DevId := if l.contains d then l else l ++ [d]

/-- REMOVE_MARKED (Table 15.2 step 2): the coordinator notes MARKED. -/
def removeMarked (s : State) (d : DevId) (t : TenantId) : State :=
  modRemoval s t fun r => { r with marked := addDev r.marked d }

/-- REMOVE_DRAINED (Table 15.2 steps 6 and 7): SCRUB goes out once every device has drained. -/
def removeDrained (s : State) (d : DevId) (t : TenantId) : State :=
  match tget s.sec.removals t with
  | some r =>
    let r := { r with drained := addDev r.drained d }
    if allIn s r.drained && !r.scrubbing then
      notifyAll (modRemoval s t fun _ => { r with scrubbing := true, firstAt := s.counter, sentAt := s.counter }) (.scrub t)
    else modRemoval s t fun _ => r
  | none => s

/-- Quotas of a tenant, limits and uses, set to 0 in every tier, and the tenant NORMAL (Table 15.2 step 8). -/
def endRemoval (s : State) (t : TenantId) : State :=
  let keep : (TenantId × BitVec 2) × Nat → Bool := fun e => e.1.1 != t
  let s := { s with obj := { s.obj with quotaLim := s.obj.quotaLim.filter keep, quotaUse := s.obj.quotaUse.filter keep } }
  modTenant { s with sec := { s.sec with runs := tdel s.sec.runs t } } t fun r => { r with removing := false, coord := none }

/-- SCRUBBED at the coordinator (Table 15.2 step 8): once all have scrubbed, REMOVE completes with OK. -/
def removeScrubbed (s : State) (d : DevId) (t : TenantId) : State :=
  match tget s.sec.removals t with
  | some r =>
    let r := { r with scrubbed := addDev r.scrubbed d }
    if allIn s r.scrubbed then
      let s := endRemoval { s with sec := { s.sec with removals := tdel s.sec.removals t } } t
      finishCmd s r.who blkSec .ok
    else modRemoval s t fun _ => r
  | none => s

/-- The devices whose answer to the present notice is missing. -/
def unanswered (s : State) (r : Removal) : List DevId :=
  (domainDevs s).filter fun d => !(if r.scrubbing then r.scrubbed.contains d else r.marked.contains d && r.drained.contains d)

/-- REMOVE_RESEND (R602): the unanswered notice goes out again every 200 µs. -/
def removeResend (s : State) (t : TenantId) : State :=
  match tget s.sec.removals t with
  | some r =>
    if r.sentAt + 200 ≤ s.counter then
      let n : Notice := if r.scrubbing then .scrub t else .remove t
      emits (modRemoval s t fun r => { r with sentAt := s.counter }) ((unanswered s r).map fun d => .notice d n)
    else s
  | none => s

/-- REMOVE_TIMEOUT (R602): a device unanswered 800 µs after the first sending ends REMOVE with PATH_LOST; the tenant stays
REMOVING. -/
def removeTimeout (s : State) (t : TenantId) : State :=
  match tget s.sec.removals t with
  | some r =>
    let late := if r.scrubbing then true else !allIn s r.marked || !allIn s r.drained
    if r.firstAt + 800 ≤ s.counter && late && !(unanswered s r).isEmpty then
      finishCmd { s with sec := { s.sec with removals := tdel s.sec.removals t } } r.who blkSec .pathLost
    else s
  | none => s

/-- COORDINATOR_QUERY_RECEIVE (R602): the recorded coordinator answers whether the removal runs. -/
def coordinatorQueryReceive (s : State) (d : DevId) (t : TenantId) : State :=
  notify s d (.coordAnswer t (tget s.sec.removals t).isSome)

/-- COORDINATOR_ANSWER (R602): BUSY_RETRY while the removal runs; with no removal running, or no answer within 800 µs, this
device takes over from step 1. -/
def coordinatorAnswer (s : State) (t : TenantId) (run : Option Bool) : State :=
  match s.sec.queries.find? fun q => q.1 == t with
  | some q =>
    let gone := { s with sec := { s.sec with queries := eraseFirst (fun x => x.1 == t) s.sec.queries } }
    match run with
    | some true => finishCmd gone q.2.1 blkSec .busyRetry
    | some false => beginRemoval gone q.2.1 t
    | none => if q.2.2 + 800 ≤ s.counter then beginRemoval gone q.2.1 t else s
  | none => s

/-! ### Measurements and quotes (R610 to R612) -/

/-- A measurement register extended with a digest and logged: MR = SM3(MR ‖ digest) (R610). -/
def extend (s : State) (reg : BitVec 3) (digest : List Byte) : State :=
  let mr := Config.sm3 (s.sec.mrs.getD reg.toNat [] ++ digest)
  { s with sec := { s.sec with mrs := modAt s.sec.mrs reg.toNat (fun _ => mr), log := s.sec.log ++ [⟨reg, digest⟩] } }

/-- Code of UPDATE (Table 15.10). -/
def updateCode : UpdateState → Nat
  | .none => 0
  | .pending => 1
  | .staged => 2
  | .switching => 3

/-- QUOTE (R611, R615): BUSY_RETRY during a switch-over, RETRY with 4 in progress. -/
def quoteCmd (s : State) (w : Who) : State × Option Status :=
  if s.sec.update = .switching then (s, some .busyRetry)
  else if 4 ≤ s.sec.quotes.length then (s, some .retry)
  else
    let p := privOf s w
    let q : QuoteRun := { w := w, nonce := secDataBytes p 0 8, cert := (tgetD p.secData 8 0).getLsbD 0 }
    ({ s with sec := { s.sec with quotes := s.sec.quotes ++ [q] } }, none)

/-- Domain ID of the image in use. -/
def domainId (s : State) : Nat :=
  match s.boot.image with
  | some i => i.domain.toNat
  | none => 0

/-- Bytes 0 to 383 of a quote (Table 15.5). -/
def quoteBody (s : State) (nonce : List Byte) : List Byte :=
  let staged := s.sec.update = .staged
  leBytes 0x51544644 4 ++ leBytes 1 2 ++ [(devId s).setWidth 8, 0] ++ leBytes (domainId s) 8 ++
    leBytes Config.devid.toNat 4 ++ [0, 0, 0, 0] ++ slice nonce 0 32 ++ leBytes s.counter 8 ++
    (s.sec.mrs.map fun m => slice m 0 32).flatten ++ [BitVec.ofNat 8 (updateCode s.sec.update + 4 * bit s.err.arm), 0, 0, 0] ++
    leBytes s.err.resetting.toNat 4 ++ slice (if staged then s.sec.stagedDigest else []) 0 32 ++ leBytes s.sec.svn 4 ++
    leBytes (if staged then s.sec.stagedSvn else 0) 4 ++ List.replicate 16 0

/-- The 512 bytes of a quote: body, signature under the AK, zeros (Table 15.5). -/
def quoteBytes (s : State) (nonce : List Byte) : List Byte :=
  let body := quoteBody s nonce
  body ++ Config.sign (Config.attestationKey (s.sec.mrs.getD 0 [])) body ++ List.replicate 64 0

/-- The AK certificate under the identity key (R612), as SEC_QUOTE_BUF holds it. -/
def akCertificate (s : State) : List Byte :=
  (List.range 512).map (Config.signByte Config.identityKey (Config.attestationKey (s.sec.mrs.getD 0 [])))

/-- QUOTE_DONE (R611): the oldest quote in progress is written to its source's SEC_QUOTE_BUF. -/
def quoteDone (s : State) : State :=
  match s.sec.quotes with
  | [] => s
  | q :: rest =>
    let bs := if q.cert then akCertificate s else quoteBytes s q.nonce
    finishCmd (modPriv { s with sec := { s.sec with quotes := rest } } q.w fun p => { p with quote := bs }) q.w blkSec .ok

/-! ### Firmware (R613 to R616) -/

/-- FW_STAGE (R613): the root of trust begins to verify the bank not running; UPDATE is PENDING. -/
def fwStageCmd (s : State) (w : Who) : State × Option Status :=
  if !isAdmin s w then (s, some .denied)
  else if s.sec.update = .switching then (s, some .busyRetry)
  else ({ s with sec := { s.sec with update := .pending, stager := some w } }, none)

/-- The boot header written when it changes: HSEQ one more, over the older copy (R646). -/
def writeHeader (s : State) (bankB tryIt : Bool) : State :=
  let top := (s.boot.hdrs.map (·.hseq)).foldl max 0
  let h : BootHdr := { hseq := top + 1, bankB := bankB, tryIt := tryIt }
  { s with boot := { s.boot with hdrs := (s.boot.hdrs.filter fun x => x.hseq == top) ++ [h] } }

/-- FW_VERIFY_DONE (R613, R646): STAGED and a header naming the bank with TRY = 1, or NONE, DENIED and an error record; MR5
takes the FW_STAGE. -/
def fwVerifyDone (s : State) (ok : Bool) (svn : Word) (digest : List Byte) : State :=
  match s.sec.update, s.sec.stager with
  | .pending, some w =>
    let s := extend { s with sec := { s.sec with stager := none } } 5 digest
    if ok && decide (s.sec.svnFloor ≤ svn.toNat) then
      let rot := (List.range 32).map (Config.rotDigestByte digest)
      let s := { s with sec := { s.sec with update := .staged, stagedDigest := digest, stagedSvn := svn.toNat, stagedRot := rot } }
      finishCmd (writeHeader s (!s.boot.bankB) true) w blkSec .ok
    else
      let s := { s with sec := { s.sec with update := .none, stagedDigest := [], stagedSvn := 0, stagedRot := [] } }
      finishCmd (raise s (report 13 .none locCtl)) w blkSec .denied
  | _, _ => s

/-- FW_SWITCH (R614, Table 15.6 step 1). -/
def fwSwitchCmd (s : State) (w : Who) : State × Option Status :=
  if !isAdmin s w || s.sec.update = .none || s.sec.update = .pending then (s, some .denied)
  else if s.sec.update = .switching then (s, some .busyRetry)
  else ({ s with sec := { s.sec with update := .switching, stager := some w } }, none)

/-- A register's value from the measurement log (R610, Table 15.6 step 5). -/
def replayLog (log : List Meas) (reg : BitVec 3) : List Byte :=
  (log.filter fun m => m.reg == reg).foldl (fun mr m => Config.sm3 (mr ++ m.digest)) (List.replicate 32 0)

/-- ROT_SWITCH_DONE (Table 15.6 steps 2 to 6): MR0 from boot ROM and the firmware now running, MR1 to MR5 from the log, the
previous bank restored and an error record when the second verification failed. -/
def rotSwitchDone (s : State) (ok : Bool) : State :=
  match s.sec.update, s.sec.stager with
  | .switching, some w =>
    let rom := (s.sec.log.find? fun m => m.reg == 0).map (·.digest)
    let log0 : List Meas := (rom.map fun d => (⟨0, d⟩ : Meas)).toList ++ [⟨0, s.sec.stagedRot⟩]
    let log := if ok then log0 ++ s.sec.log.filter (fun m => m.reg != 0) else s.sec.log
    let mrs := (List.range 8).map fun k => replayLog log (BitVec.ofNat 3 k)
    let s := { s with sec := { s.sec with update := .staged, stager := none, log := log, mrs := mrs } }
    let s := if ok then s else raise s (report 13 .none locCtl)
    finishCmd s w blkSec (if ok then .ok else .denied)
  | _, _ => s

/-- FW_COMMIT (R616): the SVN floor rises to the running SVN; MR5 takes the event. -/
def fwCommitCmd (s : State) (w : Who) : State × Option Status :=
  if !isAdmin s w || decide (s.sec.svn ≤ s.sec.svnFloor) then (s, some .denied)
  else if s.sec.update = .switching then (s, some .busyRetry)
  else (extend { s with sec := { s.sec with svnFloor := s.sec.svn } } 5 (Config.sm3 (leBytes s.sec.svn 4)), some .ok)

/-- The security command of an OP (Table 15.7); 0 and 8 to 15 complete with DENIED (Table 15.8). -/
def secCommand (s : State) (w : Who) (op : Nat) (t : TenantId) : State × Option Status :=
  match op with
  | 1 => activateCmd s w t
  | 2 => deactivateCmd s t
  | 3 => removeCmd s w t
  | 4 => quoteCmd s w
  | 5 => fwStageCmd s w
  | 6 => fwSwitchCmd s w
  | 7 => fwCommitCmd s w
  | _ => (s, some .denied)

/-- A security command whose rule answers at once while others of the block run (R602, R611, R615). -/
def secAtOnce (s : State) (op : Nat) (t : TenantId) : Bool :=
  (s.sec.update = .switching && decide (4 ≤ op)) || (op == 3 && (tget s.sec.removals t).isSome) ||
    (op == 4 && !s.sec.quotes.isEmpty)

end Sys2Proof.Machine
end

