-- ==== Sys2Proof/Machine/Coding.lean ====
section
/-! DEFINITION. A flit on the lanes of a port: its 256 bytes (R487), the inner code and its PAM4 symbols (R483, R484), and the dealing
of the symbols over the lanes (R485). -/

namespace Sys2Proof.Machine

/-- A ten-bit symbol of the inner code. -/
abbrev Sym := BitVec 10

/-- A PAM4 symbol: two bits. -/
abbrev Pam4 := BitVec 2

/-- The 256 bytes of a flit: payload, trailer bits 95 to 0, CRC (R487, Table 12.2). -/
def flitBytes (payload : List Byte) (trailer : BitVec 96) (crc : Word) : List Byte :=
  slice payload 0 240 ++ leBytes trailer.toNat 12 ++ leBytes crc.toNat 4

/-- Ten-bit symbols of a number's bits, lowest first. -/
def symbolsOf (n : Nat) : Nat → List Sym
  | 0 => []
  | k + 1 => BitVec.ofNat 10 n :: symbolsOf (n / 1024) k

/-- The 205 data symbols of a flit: its 2,048 bits and two zero bits (R483). DESIGN CHOICE (log entry 42): bits go in byte order, the
lowest bit of a byte first. -/
def dataSymbols (bytes : List Byte) : List Sym := symbolsOf (leAt bytes 0 256) 205

/-- The 216 symbols of a coded flit: the data symbols and 11 parity symbols (R483). The spec names the code RS(216,205) over GF(2^10)
and gives neither field polynomial nor generator: the parity is a free value (log entry 42). -/
def codedSymbols (bytes : List Byte) : List Sym :=
  let d := dataSymbols bytes
  d ++ (List.range 11).map (Config.innerParity d)

/-- The 1,080 PAM4 symbols of a coded flit, in the order of its symbols (R483). -/
def pam4Symbols (cs : List Sym) : List Pam4 :=
  cs.flatMap fun c => [c.extractLsb' 0 2, c.extractLsb' 2 2, c.extractLsb' 4 2, c.extractLsb' 6 2, c.extractLsb' 8 2]

/-- Every n-th symbol from the first on. -/
def everyNth (n : Nat) : Nat → List Pam4 → List Pam4
  | 0, _ => []
  | _ + 1, [] => []
  | k + 1, x :: xs => x :: everyNth n k (xs.drop (n - 1))

/-- The symbols dealt over `n` lanes: symbol i on lane i mod n (R485). -/
def dealLanes (n : Nat) (xs : List Pam4) : List (List Pam4) := (List.range n).map fun k => everyNth n xs.length (xs.drop k)

/-- What the lanes of a port of `n` lanes carry for a flit (R483, R485). -/
def flitLanes (n : Nat) (bytes : List Byte) : List (List Pam4) := dealLanes n (pam4Symbols (codedSymbols bytes))

/-- Symbols in error between a codeword as sent and as received. -/
def symbolErrors (sent got : List Sym) : Nat := ((sent.zip got).filter fun x => x.1 != x.2).length

/-- The bytes that the inner decoder passes up: as sent with up to 5 symbols in error; else as received, unchanged (R484). -/
def innerDecode (sent : List Byte) (got : List Sym) : List Byte :=
  if symbolErrors (codedSymbols sent) got ≤ 5 then slice sent 0 256
  else leBytes ((got.take 205).foldr (fun d n => d.toNat + 1024 * n) 0) 256

end Sys2Proof.Machine
end

