-- ==== Sys2Proof/Machine/Routes.lean ====
section
/-! DEFINITION. Routes: the effective routes of R542, ingress slots (R544 to R547), and where a frame leaves. -/

namespace Sys2Proof.Machine

/-- A device decided by R542: its transit port and hops. -/
structure Decided where
  dev : DevId
  port : PortNo
  hops : Nat
deriving DecidableEq, Repr

/-- The far end of a trunk port and the index of its link. -/
def farEnd (links : List LinkDef) (d : DevId) (p : PortNo) : Option (Nat × DevId × PortNo) :=
  (links.zipIdx.findSome? fun (l, i) =>
    if l.devA == d && l.portA == p then some (i, l.devB, l.portB)
    else if l.devB == d && l.portB == p then some (i, l.devA, l.portA) else none)

/-- The route entry of a device towards a destination (Table 13.2). -/
def routeEntry (routes : List RouteEntry) (y d : DevId) : Option RouteEntry :=
  routes.find? fun r => r.dev == y && r.dest == d

/-- The hops of a decided device. -/
def hopsOf (dec : List Decided) (z : DevId) : Option Nat := (dec.find? fun x => x.dev == z).map (·.hops)

/-- One device tried in a phase of R542: its T_PRI, then its T_ALT in phase 2. -/
def decideDev (links : List LinkDef) (routes : List RouteEntry) (failed : List Nat) (d : DevId) (alt : Bool)
    (dec : List Decided) (y : DevId) : List Decided :=
  if (hopsOf dec y).isSome then dec
  else match routeEntry routes y d with
    | none => dec
    | some r =>
      let ports := if alt then [r.tPri, r.tAlt] else [r.tPri]
      let step := ports.findSome? fun p =>
        match farEnd links y p with
        | some (i, z, _) =>
          match hopsOf dec z with
          | some h => if !failed.contains i && decide (h < 7) then some (⟨y, p, h + 1⟩ : Decided) else none
          | none => none
        | none => none
      match step with
      | some x => dec ++ [x]
      | none => dec

/-- Eight passes of a phase over the devices in ascending ID (R542). -/
def decidePhase (links : List LinkDef) (routes : List RouteEntry) (failed : List Nat) (d : DevId) (alt : Bool)
    (devs : List DevId) (dec : List Decided) : List Decided :=
  (List.range 8).foldl (fun dec _ => devs.foldl (decideDev links routes failed d alt) dec) dec

/-- The devices decided towards a destination, from the route set and a failed-link set (R542). -/
def routeTree (links : List LinkDef) (routes : List RouteEntry) (failed : List Nat) (d : DevId) : List Decided :=
  let devs := ((List.range 64).map (BitVec.ofNat 6)).filter fun y => routes.any fun r => r.dev == y && r.dest == d
  decidePhase links routes failed d true devs
    (decidePhase links routes failed d false devs [⟨d, 0, 0⟩])

/-- The tree towards a destination as this device holds it. -/
def treeTo (s : State) (d : DevId) : List Decided := routeTree s.swc.links s.swc.routes s.swc.failed d

/-- This device's effective route to a destination: port and hops (R542). -/
def effRoute (s : State) (d : DevId) : Option Decided :=
  if d == devId s then none else (treeTo s d).find? fun x => x.dev == devId s

/-- The (device, destination) pairs of a route set that R542 decides with no link failed and leaves undecided with one
link failed, over every single link (R543). -/
def coverCount (links : List LinkDef) (routes : List RouteEntry) : Nat :=
  let lost : Nat → Nat := fun l => (routes.filter fun r =>
    !(r.dev == r.dest) && (hopsOf (routeTree links routes [] r.dest) r.dev).isSome &&
      (hopsOf (routeTree links routes [l] r.dest) r.dev).isNone).length
  ((List.range links.length).map lost).sum

/-- Whether a port's link qualifies towards a destination: not failed, and leading to it or to a device whose hops value is
6 or less (R544). -/
def slotPortOk (s : State) (y d : DevId) (p : PortNo) : Bool :=
  match farEnd s.swc.links y p with
  | some (i, z, _) => !s.swc.failed.contains i &&
      (z == d || match hopsOf (treeTo s d) z with
        | some h => decide (h ≤ 6)
        | none => false)
  | none => false

/-- The port a slot uses, when the slot is usable: PRI when it qualifies, ALT otherwise (R544). -/
def slotPort (s : State) (y d : DevId) (sl : PortNo × PortNo) : Option PortNo :=
  if slotPortOk s y d sl.1 then some sl.1 else if slotPortOk s y d sl.2 then some sl.2 else none

/-- The static hash of a frame (R545). -/
def staticHash (src dst : Ep) (c : Cls) : Nat :=
  (crc32c (leBytes (src.toNat + dst.toNat * 2 ^ 12 + c.toNat * 2 ^ 24) 4)).toNat

/-- The slots of a device towards a destination. -/
def slotsFrom (s : State) (y d : DevId) : List (PortNo × PortNo) :=
  match routeEntry s.swc.routes y d with
  | some r => r.slots
  | none => []

/-- The slots of this device towards a destination. -/
def slotsTo (s : State) (d : DevId) : List (PortNo × PortNo) := slotsFrom s (devId s) d

/-- The first usable slot of a device at or after a place, wrapping (R545). -/
def usableFrom (s : State) (y d : DevId) (slots : List (PortNo × PortNo)) (k : Nat) : Option (Nat × PortNo) :=
  (List.range slots.length).findSome? fun j =>
    let i := (k + j) % slots.length
    match slots[i]? with
    | some sl => (slotPort s y d sl).map fun p => (i, p)
    | none => none

/-- The static slot of a frame at the device where it enters the domain, and its port (R545, R546). -/
def staticSlotAt (s : State) (y d : DevId) (src dst : Ep) (c : Cls) : Option (Nat × PortNo) :=
  let slots := slotsFrom s y d
  if slots.isEmpty then none else usableFrom s y d slots (staticHash src dst c % slots.length)

/-- The static slot of a frame and its port at this device. -/
def staticSlot (s : State) (d : DevId) (src dst : Ep) (c : Cls) : Option (Nat × PortNo) := staticSlotAt s (devId s) d src dst c

/-- The slot a pair takes when it is chosen again (R547): static while adaptation is off or history is missing, otherwise
the least mean occupancy, the present slot kept within the margin. -/
def chooseSlot (s : State) (d : DevId) (src dst : Ep) (c : Cls) (present : Option Nat) : Option (Nat × PortNo) :=
  let slots := slotsTo s d
  let usable := (slots.zipIdx.filterMap fun (sl, i) => (slotPort s (devId s) d sl).map fun p => (i, p))
  if !s.swc.adaptEn || usable.any (fun x => (portOf s x.2).windows < 16) then staticSlot s d src dst c
  else match leastBy (fun x : Nat × PortNo => (portOf s x.2).mean) usable with
    | none => none
    | some best =>
      match present.bind fun k => usable.find? fun x => x.1 == k with
      | some cur => if (portOf s cur.2).mean ≤ (portOf s best.2).mean + s.swc.margin.toNat then some cur else some best
      | none => some best

/-- Whether an endpoint can be reached: its device is decided, it sits behind no unroutable port, and a port of this device
is up (R539, R542, R552). -/
def hasRoute (s : State) (e : Ep) : Bool :=
  match epEntry s e with
  | none => false
  | some x =>
    let portOk := match x.at_ with
      | .lane p => !s.swc.unroutable.contains (x.dev, p) && (!(x.dev == devId s) || portCarries (portOf s p))
      | .host => !(x.dev == devId s) || s.hp.link
      | .own => true
    portOk && (x.dev == devId s || (effRoute s x.dev).isSome)

/-- Where a frame leaves: the trunk's effective transit port, or the port of an ingress slot for a frame that enters the
domain here (R540, R544, R546). -/
def outPort (s : State) (inp : Port) (fr : Frame) : Option Port :=
  match epEntry s (frameDst fr) with
  | none => none
  | some x =>
    if x.dev == devId s then some x.at_
    else
      match inp with
      | .lane p =>
        if isTrunk s p then (effRoute s x.dev).map fun r => .lane r.port
        else (staticSlot s x.dev (frameSrc fr) (frameDst fr) (frameCls fr)).map fun r => .lane r.2
      | _ => (staticSlot s x.dev (frameSrc fr) (frameDst fr) (frameCls fr)).map fun r => .lane r.2

/-- The links a route crosses from this device towards a destination, as (device, port) at the sending side (R112). -/
def pathFrom (s : State) (d : DevId) : Nat → DevId → PortNo → List (DevId × PortNo)
  | 0, _, _ => []
  | n + 1, y, p =>
    (y, p) :: match farEnd s.swc.links y p with
      | some (_, z, zp) => (z, zp) ::
          (if z == d then [] else match (treeTo s d).find? fun x => x.dev == z with
            | some x => pathFrom s d n z x.port
            | none => [])
      | none => []

/-- The links that frames of an endpoint of another device cross to an endpoint of this one, as (device, port) at each end: from its
device's static slot on. DEDUCED (log entry 25): while slots adapt, that device's choice is not known here. -/
def pathHere (s : State) (src dst : Ep) (c : Cls) : List (DevId × PortNo) :=
  match epDev s src with
  | none => []
  | some y =>
    if y == devId s then []
    else match staticSlotAt s y (devId s) src dst c with
      | some r => pathFrom s (devId s) 8 y r.2
      | none => []

end Sys2Proof.Machine
end

