-- ==== Sys2Proof/Machine/Send.lean ====
section
/-! DEFINITION. How a frame enters the switch core or is handed on inside the device (R529, R534, R539, R540). -/

namespace Sys2Proof.Machine

/-- Credits added to a per-class list. -/
def addCredit (l : List Nat) (c : Cls) (n : Nat) : List Nat :=
  (List.range 8).map fun k => l.getD k 0 + if k = c.toNat then n else 0

/-- Credits to return to a link partner once buffer frees (R494, R529). -/
def returnCredits (s : State) (inp : Port) (c : Cls) (n : Nat) : State :=
  match inp with
  | .lane p => modPort s p fun r => { r with toReturn := addCredit r.toReturn c n }
  | .host => { s with hp := { s.hp with toReturn := addCredit s.hp.toReturn c n } }
  | .own => s

/-- The credits of a request returned, as it leaves its landing zone without admission to the pool. -/
def freeLanding (s : State) (inp : Port) (f : Req) : State := returnCredits s inp f.cls (frameCredits (.req f))

/-- A frame that the Atomizer may have made: a completion, or an accord's result segment (R140, R143). -/
def frameCopy : Frame → Bool
  | .cpl _ => true
  | .req f => f.opcode == Op.accContrib

/-- The Atomizer writes an answer once and makes a copy for each of these requesters and tags (R140, R143). -/
def shareAnswer (s : State) (who : List (Ep × Tag)) : State :=
  let n := s.swc.nextId
  { s with swc := { s.swc with shares := who.foldl (fun t k => tset t k n) s.swc.shares, nextId := n + 1 } }

/-- A frame placed in the landing zone of its input for an output, its residency starting at `res` (R529, R534). A copy that the
Atomizer made names its answer. -/
def landFrame (s : State) (inp outp : Port) (fr : Frame) (res : Nat) : State :=
  let k := (frameDst fr, frameTag fr)
  let q : QFrame := { id := s.swc.nextId, inp := inp, outp := outp, cls := frameCls fr, f := fr, cells := frameCells fr,
                      die := portQuad outp, res := res, override := false, grp := if frameCopy fr then tget s.swc.shares k else none }
  { s with swc := { s.swc with land := s.swc.land ++ [q], nextId := s.swc.nextId + 1
                               shares := if frameCopy fr then tdel s.swc.shares k else s.swc.shares } }

/-- A frame discarded at route lookup (R539). -/
def dropFlushed (s : State) (n : Nat) : State :=
  { s with swc := { s.swc with dropFlushed := satAdd 32 s.swc.dropFlushed n } }

/-- Whether an output can take frames: a port at STATE 3 or 4, or the host link up (R538, R539, R686). -/
def outputUp (s : State) : Port → Bool
  | .lane p => portCarries (portOf s p) && !(portOf s p).noSend
  | .host => s.hp.link
  | .own => true

/-- A frame queued for an output port, or discarded when the port is down (R539). -/
def sendTo (s : State) (inp outp : Port) (fr : Frame) (res : Nat) : State :=
  if outputUp s outp then landFrame s inp outp fr res
  else dropFlushed (returnCredits s inp (frameCls fr) (frameCredits fr)) 1

/-- The count at which a request's residency here started: now, unless it is on its way through this device (R534). -/
def residency (s : State) (f : Req) : Nat := tgetD s.swc.began (f.src, f.tag) s.counter

/-- A request's residency goes on from a count while this device works on it (R534). -/
def setBegan (s : State) (f : Req) (res : Nat) : State := { s with swc := { s.swc with began := tset s.swc.began (f.src, f.tag) res } }

/-- A request's residency at this device is over, or starts anew when it is sent later (R534). -/
def endBegan (s : State) (f : Req) : State := { s with swc := { s.swc with began := tdel s.swc.began (f.src, f.tag) } }

/-- A request sent towards its destination: handed to this device's egress or own functions, or queued for a port. A device frame
for an endpoint of this device (ACC_RESULT) goes to the endpoint's port as it is (R243, R540). -/
def sendReq (s : State) (inp : Port) (f : Req) (res : Nat) : State :=
  match outPort s inp (.req f) with
  | none => dropFlushed (freeLanding s inp f) 1
  | some o =>
    if (localAt s f.dst).isNone then sendTo s inp o (.req f) res
    else if o = .own then emit (freeLanding s inp f) (.toOwn (portQuad inp) f)
    else if opLine f.opcode || opAtomic f.opcode then emit (setBegan (freeLanding s inp f) f res) (.toEgress f)
    else sendTo s inp o (.req f) res

/-- A request sent on the ingress slot's port its pair holds (R547). -/
def sendReqOn (s : State) (inp : Port) (f : Req) (p : PortNo) (res : Nat) : State := sendTo s inp (.lane p) (.req f) res

/-- A completion sent towards its requester: handed to this device's ingress, or routed on (R540, R546). -/
def sendCpl (s : State) (inp : Port) (c : Cpl) (res : Nat) : State :=
  match outPort s inp (.cpl c) with
  | none => dropFlushed (returnCredits s inp c.cls (frameCredits (.cpl c))) 1
  | some o =>
    if (localAt s c.dst).isSome then
      emit (returnCredits s inp c.cls (frameCredits (.cpl c))) (.toIngress c)
    else sendTo s inp o (.cpl c) res

/-- A completion this device makes for a request: status and data, from a completer endpoint (R60). -/
def complete (s : State) (f : Req) (src : Ep) (st : Status) (data : List Byte) : State :=
  sendCpl s .own (mkCpl f src st data) s.counter

/-- A completion made on behalf of the destination: the request's DST as SRC (R60). -/
def completeAt (s : State) (f : Req) (st : Status) (data : List Byte) : State := complete s f f.dst st data

/-- A completion delivered to its source at the port of the source's endpoint; discarded while the host link is down
(R59, R687). -/
def deliver (s : State) (p : Port) (c : Cpl) : State :=
  match p with
  | .host => if s.hp.link then landFrame s .own .host (.cpl c) s.counter else s
  | .lane q => if portCarries (portOf s q) then landFrame s .own p (.cpl c) s.counter else dropFlushed s 1
  | .own => emit s (.toIngress c)

/-- Sets ORIGIN, PORT, LINK, KIND, SCOPE and NSEQ of a ROUTE_NOTICE (Table 13.3). -/
def notePayload (origin : DevId) (port : PortNo) (link : BitVec 10) (restore endpoint : Bool) (nseq : Word) : List Byte :=
  [origin.setWidth 8, port] ++ leBytes link.toNat 2 ++ [BitVec.ofNat 8 (bit restore + 2 * bit endpoint), 0, 0, 0] ++
    leBytes nseq.toNat 4 ++ [0, 0, 0, 0]

/-- A ROUTE_NOTICE frame from this device to another's own functions (R549). -/
def noteFrame (s : State) (dst : Ep) (payload : List Byte) : Req :=
  { opcode := Op.routeNotice, src := ownEp s, dst := dst, tag := 0, seq := 0, epoch := 0, tenant := 0, cls := 7, chk := true,
    addr := 0, len := 1, pgen := 0, bep := false, rsnd := false, seqd := false, newp := false, raw := false, dlx := false,
    subop := 0, osz := 0, ncmb := false, dur := false, hop := 0, rsv := 0, ext := 0, payload := payload }

/-- Sends a notice's copies on every active, joined trunk except one (R550, R658). -/
def floodNote (s : State) (payload : List Byte) (except_ : Option PortNo) : State :=
  s.lnk.foldl (fun s e =>
    if e.2.role == 2 && e.2.st == 3 && !e.2.noSend && e.2.joined && !decide (some e.1 = except_) then
      landFrame s .own (.lane e.1) (.req (noteFrame s ((ownEpOf s e.2.peerDev).getD 0) payload)) s.counter
    else s) s

/-- What a notice changes: the failed-link set for a trunk link, unroutability for an endpoint-facing port (R550). -/
def applyNote (s : State) (origin : DevId) (port : PortNo) (n : NoteRec) : State :=
  let w := s.swc
  let failed := w.failed.filter fun l => !(l == n.link.toNat)
  let unr := w.unroutable.filter fun x => !decide (x = (origin, port))
  let w :=
    if n.endpoint then
      (if n.restore then { w with unroutable := unr } else { w with unroutable := unr ++ [(origin, port)] })
    else (if n.restore then { w with failed := failed } else { w with failed := failed ++ [n.link.toNat] })
  { s with swc := { w with notes := tset w.notes (origin, port) n } }

/-- The index of the trunk link of one of this device's ports. -/
def linkIndex (s : State) (p : PortNo) : Option Nat := (farEnd s.swc.links (devId s) p).map (·.1)

/-- This device's notice of one of its ports, applied here and flooded: fault or restore (R111, R549 to R551). -/
def ownNote (s : State) (p : PortNo) (restore : Bool) : State :=
  let link := (linkIndex s p).getD 0
  let n : NoteRec := { nseq := ((tget s.swc.notes (devId s, p)).map (·.nseq)).getD 0 + 1, link := BitVec.ofNat 10 link,
                       restore := restore, endpoint := isEndpointPort s p }
  let s' := applyNote s (devId s) p n
  floodNote s' (notePayload (devId s) p n.link restore n.endpoint n.nseq) none

end Sys2Proof.Machine
end

