-- ==== Sys2Proof/Machine/Link.lean ====
section
/-! DEFINITION. The link layer of a port: flits sent, acknowledged, replayed and taken, frames packed and unpacked, and the
link cipher (R487 to R500, R510 to R513, R535 to R537). -/

namespace Sys2Proof.Machine

/-- Bytes padded with zeros to a length. -/
def padTo (n : Nat) (bs : List Byte) : List Byte := slice bs 0 n

/-- The 240 payload bytes of a control message (Table 12.12, Table 17.6). -/
def ctrlPayload : Ctrl → List Byte
  | .linkParam m => padTo 240 ([0x01, m.role.setWidth 8, m.width.setWidth 8, m.cipher.setWidth 8, m.dev.setWidth 8, 0] ++
      leBytes m.ep.toNat 2 ++ [m.classes] ++ List.replicate 7 0 ++ (m.credits.map fun c => leBytes c 4).flatten)
  | .authHello m => padTo 240 ([0x02, m.dev.setWidth 8] ++ leBytes m.port.toNat 2 ++ List.replicate 4 0 ++
      leBytes m.domain.toNat 8 ++ m.nonce)
  | .authProof i k total bs => padTo 240 ([0x03, BitVec.ofNat 8 (i.toNat + 16 * k.toNat)] ++ leBytes total.toNat 2 ++
      List.replicate 12 0 ++ bs)
  | .kaPoint pt => padTo 240 (0x04 :: List.replicate 15 0 ++ pt)
  | .kaConfirm v => padTo 240 (0x05 :: List.replicate 15 0 ++ v)
  | .keyNext k => padTo 240 [0x06, BitVec.ofNat 8 (bit k)]
  | .linkDown c => padTo 240 [0x07, c.setWidth 8]
  | .drain => padTo 240 [0x08]
  | .retrainReq => padTo 240 [0x09]
  | .frameVoid src tag => padTo 240 ([0x0A, 0] ++ leBytes src.toNat 2 ++ leBytes tag.toNat 2)
  | .join m => padTo 240 ([0x20, m.dev.setWidth 8, m.registrar.setWidth 8, m.host.setWidth 8, 0, 0, 0, 0] ++
      leBytes m.incarnation.toNat 8 ++ padTo 32 m.digest)

/-- Trailer bits [95:0] of a flit (Table 12.2). -/
def flitTrailer (fl : Flit) : BitVec 96 :=
  fl.tagpart ++ fl.rsvB ++ fl.c1cnt ++ fl.c1cls ++ fl.c0cnt ++ fl.c0cls ++ fl.rsvA ++ BitVec.ofBool fl.enc ++
    BitVec.ofBool fl.kph ++ fl.ftype ++ BitVec.ofBool fl.nak ++ BitVec.ofBool fl.ackv ++ fl.ackseq ++ fl.fseq

/-- CRC over bytes 0 to 251 of a flit (Table 12.2). -/
def flitCrc (fl : Flit) : Word := crc32c (padTo 240 fl.payload ++ leBytes (flitTrailer fl).toNat 12)

/-- Whether a flit's CRC is good. -/
def flitGood (fl : Flit) : Bool := fl.crc == flitCrc fl

/-- FTYPE codes. -/
def ftData : BitVec 2 := 0
def ftIdle : BitVec 2 := 1
def ftCtrl : BitVec 2 := 2

/-- Lanes of a port's transmitter. -/
def lanesInUse (r : PortRec) : Nat := if r.actWidth = 0 then r.width.toNat else r.actWidth.toNat

/-- Flits the replay buffer holds: 256 per lane, never more than 2,048 (R496). -/
def replayDepth (r : PortRec) : Nat := min 2048 (256 * lanesInUse r)

/-- Flits sent and not acknowledged (Table 12.9). -/
def unacked (r : PortRec) : Nat := (r.rb.filter (·.sent)).length

/-- The payload and tag part as the cipher sends them (R511). -/
def cipherSend (c : Cipher) (payload : List Byte) : List Byte × Word :=
  let place := 4 * c.group + c.inGroup
  let enc := (List.range 240).map fun i => Config.linkEncByte (c.key ++ c.salt) place (padTo 240 payload) i
  let tag := match c.group, c.prev with
    | 0, none => 0
    | 0, some k => Config.linkTag k.1 k.2 c.inGroup
    | g + 1, _ => Config.linkTag (c.key ++ c.salt) g c.inGroup
  (enc, tag)

/-- The next key and salt of a direction: KDF(K ‖ S ‖ "DF-NEXT", k + 32) (R606); KPH flips and the counter restarts. -/
def nextCipher (now : Nat) (c : Cipher) : Cipher :=
  let ks := Config.kdf (c.key ++ c.salt ++ Config.label "DF-NEXT") (c.key.length + 4)
  { key := ks.take c.key.length, salt := ks.drop c.key.length, group := 0, kph := !c.kph, inGroup := 0, since := now, pend := false,
    prev := some (c.key ++ c.salt, c.group) }

/-- A direction's cipher after one flit: groups of four, the last one under a key followed by the next key (R511, R512). -/
def cipherNext (now : Nat) (c : Cipher) : Cipher :=
  if c.inGroup < 3 then { c with inGroup := c.inGroup + 1 }
  else if c.pend then nextCipher now c
  else { c with inGroup := 0, group := c.group + 1, prev := none }

/-- A flit put on the link: acknowledgement, NAK, key phase, tag and CRC as they stand (R497, R499). -/
def putFlit (s : State) (p : PortNo) (ftype : BitVec 2) (fseq : BitVec 12) (c0cls : Cls) (c0cnt : BitVec 12) (c1cls : Cls)
    (c1cnt : BitVec 12) (payload : List Byte) (corrupt : Bool) : State :=
  let r := portOf s p
  let ciphered := match r.tx with
    | some c => if r.enc then some c else none
    | none => none
  let body := match ciphered with
    | some c => (cipherSend c payload).1
    | none => padTo 240 payload
  let tag := match ciphered with
    | some c => (cipherSend c payload).2
    | none => 0
  let fl : Flit := { fseq := fseq, ackseq := r.rxF.getD 0, ackv := r.rxF.isSome, nak := r.nak, ftype := ftype,
                     kph := (ciphered.map (·.kph)).getD false, enc := ciphered.isSome, rsvA := 0, c0cls := c0cls,
                     c0cnt := c0cnt, c1cls := c1cls, c1cnt := c1cnt, rsvB := 0, tagpart := tag, crc := 0, payload := body }
  let crc := if corrupt then ~~~ (flitCrc fl) else flitCrc fl
  let now := s.counter
  let s := modPort s p fun r => { r with nak := false, tx := if r.enc then r.tx.map (cipherNext now) else r.tx }
  emit s (.flit p { fl with crc := crc } (flitLanes (lanesInUse r) (flitBytes fl.payload (flitTrailer fl) crc)))

/-- A kept flit put on the link. -/
def putKept (s : State) (p : PortNo) (t : TxFlit) (corrupt : Bool) : State :=
  putFlit s p (if t.ctrl then ftCtrl else ftData) t.fseq t.c0cls t.c0cnt t.c1cls t.c1cnt t.payload corrupt

/-- A DATA flit as the Blotter lets it out: dropped, corrupted, or sent after the next (Table 18.6). -/
def sendKept (s : State) (p : PortNo) (t : TxFlit) : State :=
  if t.ctrl then putKept s p t false
  else
    let r := bltEvent s 1 fun b => b.portStack == p
    match r.2.map BitVec.toNat with
    | some 0 => r.1
    | some 2 => modPort r.1 p fun x => { x with reord := some t }
    | a =>
      let s := putKept r.1 p t (a == some 1)
      match (portOf s p).reord with
      | some u => putKept (modPort s p fun x => { x with reord := none }) p u false
      | none => s

/-- The classes with credits to return, lowest first, as the two slots of a trailer take them (R494, Table 12.11). -/
def returnSlots (r : PortRec) : List (Cls × Nat) :=
  ((List.range 8).filterMap fun k => if r.toReturn.getD k 0 = 0 then none
    else some (BitVec.ofNat 3 k, min 4095 (r.toReturn.getD k 0))).take 2

/-- The credits a trailer carried, no longer to return. -/
def takeReturns (r : PortRec) (sl : List (Cls × Nat)) : PortRec :=
  { r with toReturn := (List.range 8).map fun k =>
      r.toReturn.getD k 0 - ((sl.filter fun x => x.1.toNat == k).map (·.2)).sum }

/-- Sends the kept flits that have not been sent, while the replay buffer has room (R496). -/
def sendWaiting (s : State) (p : PortNo) : State :=
  let r := portOf s p
  let n := replayDepth r - unacked r
  let go := (r.rb.filter fun t => !t.sent).take n
  let s := modPort s p fun r => { r with rb := r.rb.map fun t => if go.any (fun u => u.fseq == t.fseq) then { t with sent := true } else t }
  go.foldl (fun s t => sendKept s p t) s

/-- A new DATA or CTRL flit: it takes the next FSEQ, is kept for replay, and is sent when the buffer allows (R496). -/
def newFlit (s : State) (p : PortNo) (ctrl : Bool) (payload : List Byte) : State :=
  let now := s.counter
  let s := modPort s p fun r =>
    let sl := returnSlots r
    let g := fun i => sl.getD i (0, 0)
    let t : TxFlit := { fseq := r.nextF, ctrl := ctrl, c0cls := (g 0).1, c0cnt := BitVec.ofNat 12 (g 0).2, c1cls := (g 1).1,
                        c1cnt := BitVec.ofNat 12 (g 1).2, payload := payload, replays := 0, sent := false }
    { takeReturns r sl with nextF := r.nextF + 1, rb := r.rb ++ [t], ackAt := if r.rb.isEmpty then now else r.ackAt }
  sendWaiting s p

/-- A control message sent in a CTRL flit (R491); it waits out the hold of R537. -/
def sendCtrl (s : State) (p : PortNo) (c : Ctrl) : State :=
  if (portOf s p).hold then modPort s p fun r => { r with late := r.late ++ [ctrlPayload c] } else newFlit s p true (ctrlPayload c)

/-- An IDLE flit: the trailer's acknowledgement, NAK and credit returns with a payload of zeros (R489); none during the hold of
R537. -/
def sendIdle (s : State) (p : PortNo) : State :=
  let r := portOf s p
  if r.hold then s else
  let sl := returnSlots r
  let g := fun i => sl.getD i (0, 0)
  let s := modPort s p fun r => takeReturns r sl
  putFlit s p ftIdle r.nextF (g 0).1 (BitVec.ofNat 12 (g 0).2) (g 1).1 (BitVec.ofNat 12 (g 1).2) [] false

/-- The first flit payloads of a number of bytes. -/
def chunks : Nat → List Byte → List (List Byte)
  | 0, _ => []
  | n + 1, bs => padTo 240 (bs.take 240) :: chunks n (bs.drop 240)

/-- Frame bytes sent in new DATA flits, back to back behind those that wait; what fills no flit waits on (R41, R490). -/
def sendBytes (s : State) (p : PortNo) (bs : List Byte) : State :=
  let all := (portOf s p).tail ++ bs
  let n := all.length / 240
  (chunks n all).foldl (fun s c => newFlit s p false c) (modPort s p fun r => { r with tail := all.drop (240 * n) })

/-- The bytes that wait sent with the rest of their flit as padding, as no frame follows (R490). -/
def flushTail (s : State) (p : PortNo) : State :=
  let bs := (portOf s p).tail
  if bs.isEmpty then s else newFlit (modPort s p fun r => { r with tail := [] }) p false (padTo 240 bs)

/-- Whether a frame is being cut through to a port. -/
def cutting (s : State) (o : PortNo) : Bool :=
  s.lnk.any fun e => match e.2.cut with
    | some c => decide (c.out = .lane o)
    | none => false

/-- What a port sends in a flit time with no further frame to start: the bytes that wait, else an IDLE flit (R486, R490). -/
def sendRest (s : State) (p : PortNo) : State :=
  if (portOf s p).tail.isEmpty || cutting s p then sendIdle s p else flushTail s p

/-- The hold of a cut frame's output ends: the control messages that waited go out (R537). -/
def endHold (s : State) (c : Cut) : State :=
  match c.out with
  | .lane o =>
    let l := (portOf s o).late
    l.foldl (fun s m => newFlit s o true m) (modPort s o fun r => { r with hold := false, late := [] })
  | _ => s

/-- A frame sent on a port; on a trunk HOP is incremented as it is sent (R554). -/
def wireFor (s : State) (p : PortNo) (fr : Frame) : List Byte :=
  if isTrunk s p then frameWire (frameSetHop fr (frameHop fr + 1)) else frameWire fr

/-- How far a sequence number stands behind another, modulo 4,096. -/
def fseqBehind (a b : BitVec 12) : Nat := (b - a).toNat

/-- ACKSEQ taken: the flits it acknowledges leave the replay buffer (R496). -/
def takeAck (s : State) (p : PortNo) (ackseq : BitVec 12) : State :=
  let r := portOf s p
  let acked : TxFlit → Bool := fun t => t.sent && decide (fseqBehind t.fseq ackseq < 2048)
  if r.rb.any acked then
    sendWaiting (modPort s p fun r => { r with rb := r.rb.filter fun t => !acked t, ackAt := s.counter }) p
  else s

/-- Every sent and unacknowledged flit replayed in FSEQ order (R498, R499); one replay is counted. -/
def replay (s : State) (p : PortNo) : State :=
  let r := portOf s p
  let go := r.rb.filter (·.sent)
  if go.isEmpty then s
  else
    let s := modPort s p fun r =>
      { r with replays := satInc 32 r.replays, winReplays := r.winReplays + 1
               rb := r.rb.map fun t => if t.sent then { t with replays := t.replays + 1 } else t }
    go.foldl (fun s t => sendKept s p t) s

/-- Whether one FSEQ has been replayed 8 times without an acknowledgement (R515 cause 2). -/
def replayedOut (s : State) (p : PortNo) : Bool := (portOf s p).rb.any fun t => decide (8 ≤ t.replays)

/-! ### Receiving -/

/-- Credits a partner returned (R494). -/
def takeCredits (s : State) (p : PortNo) (fl : Flit) : State :=
  modPort s p fun r =>
    { r with credits := addCredit (addCredit r.credits fl.c0cls fl.c0cnt.toNat) fl.c1cls fl.c1cnt.toNat }

/-- A whole frame that arrived on a port, once the flit after its last has been accepted (R537): a request goes to the
port's checks, or is refused when its opcode is reserved (R53); an endpoint's completion goes to this device's egress, a trunk's frame on its way; a trunk that is not joined
delivers nothing, uncounted (R658). A draining port admits no new request (R521). -/
def handArrived (s : State) (p : PortNo) (fr : Frame) (res : Nat) : State :=
  let r := portOf s p
  if r.role == 2 && !r.joined then returnCredits s (.lane p) (frameCls fr) (frameCredits fr)
  else match fr with
    | .req f =>
      if r.st == 4 then s
      else if r.role == 2 then emit (setBegan s f res) (.toTrunk p f)
      else if opRequest f.opcode then emit s (.toIngressPort (.lane p) f)
      else deliver (freeLanding s (.lane p) f) (.lane p) (mkCpl f (ownEp s) .denied [])
    | .cpl c =>
      if r.role == 2 then sendCpl s (.lane p) c res
      else emit (returnCredits s (.lane p) c.cls (frameCredits fr)) (.answer c)

/-- A flit after the last of whole frames is accepted: they are handed on, and a frame cut through is done (R537). -/
def releaseFresh (s : State) (p : PortNo) : State :=
  let r := portOf s p
  let s := modPort s p fun r => { r with fresh := [], ended := none, early := [] }
  let s := match r.ended with
    | some c => endHold s c
    | none => s
  r.fresh.foldl (fun s x => handArrived s p x.1 x.2) s

/-- Credits a transmitter holds for a frame (R492). -/
def hasCredits (s : State) (o : Port) (fr : Frame) : Bool :=
  match o with
  | .lane p => decide (frameCredits fr ≤ (portOf s p).credits.getD (frameCls fr).toNat 0)
  | .host => decide (frameCredits fr ≤ s.hp.credits.getD (frameCls fr).toNat 0)
  | .own => true

/-- Credits taken by a frame as it starts (R492). -/
def spendCredits (s : State) (o : Port) (fr : Frame) : State :=
  let sub : List Nat → List Nat := fun l =>
    (List.range 8).map fun k => l.getD k 0 - if k = (frameCls fr).toNat then frameCredits fr else 0
  match o with
  | .lane p => modPort s p fun r => { r with credits := sub r.credits }
  | .host => { s with hp := { s.hp with credits := sub s.hp.credits } }
  | .own => s

/-- The charge of a frame of classes 0 to 6 to its class bucket and its port bucket (R560, R569). -/
def chargeOut (s : State) (o : Port) (fr : Frame) : State :=
  if frameCls fr = 7 then s
  else modShp s o fun x =>
    let k := wheelTick x
    let n := countedLength x fr
    { x with port := bucketCharge x.port k n
             cls := tset x.cls (frameCls fr) (bucketCharge (clsBucket x (frameCls fr)) k n) }

/-- Class bucket and port bucket both eligible; class 7 is not shaped (R567, R569, R570). -/
def shapeOk (s : State) (o : Port) (fr : Frame) : Bool :=
  let x := shpOf s o
  frameCls fr == 7 || (bucketEligible (clsBucket x (frameCls fr)) (wheelTick x) && bucketEligible x.port (wheelTick x))

/-- Whether a frame from one port may be cut through to another: the conditions of R535 and R570. -/
def cutReady (s : State) (p o : PortNo) (fr : Frame) : Bool :=
  let r := portOf s p
  let x := portOf s o
  s.swc.ctEn && x.st == 3 && !x.noSend && !x.hold && (x.role != 2 || (x.joined && frameHop fr != 7)) &&
    !(s.swc.queue.any fun q => decide (q.outp = .lane o)) && x.rb.all (·.sent) && x.tail.isEmpty && !cutting s o &&
    hasCredits s (.lane o) fr && decide (x.actWidth.toNat ≤ r.actWidth.toNat) && shapeOk s (.lane o) fr

/-- Where a frame may be cut through from a port, if anywhere. A frame from a trunk is cut as its header arrives, when it is in transit;
one from an endpoint-facing port passes this device's checks first, and is cut after them (`early`). DESIGN CHOICE (log entry 40): the
checks take a frame whole, so such a frame is cut once the flit that ends it is accepted, and one that a trunk brings for an endpoint of
this device is stored. -/
def cutOut (s : State) (p : PortNo) (fr : Frame) : Option PortNo :=
  let r := portOf s p
  if r.role == 2 && (!r.joined || (localAt s (frameDst fr)).isSome) then none
  else match outPort s (.lane p) fr with
    | some (.lane o) => if cutReady s p o fr then some o else none
    | _ => none

/-- A frame whose header has arrived begins to be cut through: charged, its credits spent, the bytes so far sent. -/
def cutStart (s : State) (p o : PortNo) (fr : Frame) (got total : Nat) : State :=
  let s := spendCredits (chargeOut s (.lane o) fr) (.lane o) fr
  let s := sendBytes s o ((wireFor s o fr).take got)
  modPort s p fun r => { r with cut := some ⟨.lane o, total - got, frameSrc fr, frameTag fr⟩, part := [] }

/-- Payload bytes of a cut frame passed to its output, and its credits returned when it has left (R529, R536). -/
def cutMore (s : State) (p : PortNo) (c : Cut) (bs : List Byte) : State :=
  let k := min c.left bs.length
  let s := match c.out with
    | .lane o =>
      let s := sendBytes s o (bs.take k)
      if k = c.left then modPort (flushTail s o) o fun r => { r with hold := true } else s
    | _ => s
  if k = c.left then modPort s p fun r => { r with cut := none, ended := some { c with left := 0 } }
  else modPort s p fun r => { r with cut := some { c with left := c.left - k } }

/-- DATA payload taken: frames packed back to back, a zero OPCODE byte padding the rest (R490). -/
def takeBytes (p : PortNo) : Nat → List Byte → State → State
  | 0, _, s => s
  | n + 1, bs, s =>
    let r := portOf s p
    if bs.isEmpty then s
    else match r.cut with
      | some c => takeBytes p n (bs.drop (min c.left bs.length)) (cutMore s p c bs)
      | none =>
        let all := r.part ++ bs
        let total := wireLength all
        if r.part.isEmpty && byteAt bs 0 == 0 then s
        else if total ≠ 0 && total ≤ all.length then
          let at_ := if r.part.isEmpty then s.counter else r.partAt
          let fr := frameOfWire (all.take total)
          let s := modPort s p fun r => { r with part := [] }
          takeBytes p n (all.drop total)
            (if r.role != 2 && (cutOut s p fr).isSome then
              handArrived (modPort s p fun r => { r with early := r.early ++ [(frameSrc fr, frameTag fr)] }) p fr at_
            else modPort s p fun r => { r with fresh := r.fresh ++ [(fr, at_)] })
        else if total ≠ 0 && r.role == 2 && wireLength r.part = 0 then
          match cutOut s p (frameOfWire all) with
          | some o => cutStart s p o (frameOfWire all) all.length total
          | none => modPort s p fun r => { r with part := all, partAt := if r.part.isEmpty then s.counter else r.partAt }
        else modPort s p fun r => { r with part := all, partAt := if r.part.isEmpty then s.counter else r.partAt }

/-- The FSEQ a receiver accepts next (R488): 0 before its first flit. -/
def nextRx (r : PortRec) : BitVec 12 :=
  match r.rxF with
  | some f => f + 1
  | none => 0

/-- A NAK asked for once per gap (R497). -/
def askReplay (s : State) (p : PortNo) : State :=
  let gap := (portOf s p).gap
  let s := modPort s p fun r => { r with gap := true, nak := r.nak || !r.gap }
  if gap then s else sendIdle s p

/-- A rejected flit: counted (R488, Table 12.8), and a NAK asked for. -/
def rejectFlit (s : State) (p : PortNo) : State := askReplay (modPort s p fun r => { r with crcErr := satInc 32 r.crcErr }) p

/-- The trailer of a flit with a good CRC: its acknowledgement, and a replay when it carries NAK (R498). -/
def takeTrailer (s : State) (p : PortNo) (fl : Flit) : State :=
  let s := if fl.ackv then takeAck s p fl.ackseq else s
  if fl.nak then replay s p else s

/-- Whether a flit meets the conditions of R488 that do not rest on FSEQ. -/
def flitSound (fl : Flit) : Bool := flitGood fl && fl.ftype != 3 && fl.rsvA == 0 && fl.rsvB == 0

/-- The plaintext payload of a flit (R511). -/
def plainPayload (r : PortRec) (fl : Flit) (place : Nat) : List Byte :=
  match r.rx with
  | some c => if fl.enc then (List.range 240).map fun i => Config.linkDecByte (c.key ++ c.salt) place fl.payload i else fl.payload
  | none => fl.payload

/-- A DATA or IDLE flit taken in order: accepted, discarded as a repeat (R500), or rejected (R488). -/
def acceptFlit (s : State) (p : PortNo) (fl : Flit) (payload : List Byte) : State :=
  if !flitSound fl then rejectFlit s p
  else
    let s := takeTrailer (modPort s p fun r => { r with lastGood := s.counter }) p fl
    if fl.ftype == ftIdle then sendWaiting (releaseFresh (takeCredits s p fl) p) p
    else
      let r := portOf s p
      if fl.fseq == nextRx r then
        let s := takeCredits (modPort s p fun r => { r with rxF := some fl.fseq, gap := false }) p fl
        let s := releaseFresh s p
        let s := if fl.ftype == ftData then takeBytes p 512 payload s else s
        sendIdle s p
      else if r.rxF.isSome && decide (fseqBehind fl.fseq (nextRx r) ≤ 2048) then s
      else rejectFlit s p

/-- A flit as it arrives: with the cipher on it waits for its group's tag, which comes in the next group (R511, R513). -/
def arriveFlit (s : State) (p : PortNo) (fl : Flit) (tagOk : Bool) : State :=
  let r := portOf s p
  match r.rx with
  | none => acceptFlit s p fl fl.payload
  | some c =>
    let held := r.held ++ [fl]
    let s := modPort s p fun r => { r with held := held, lastGood := if flitSound fl then s.counter else r.lastGood }
    if held.length < 8 then s
    else
      let s := modPort s p fun r => { r with held := held.drop 4, rx := some { c with group := c.group + 1, prev := none } }
      if tagOk then
        (held.take 4).zipIdx.foldl (fun s x => acceptFlit s p x.1 (plainPayload r x.1 (4 * c.group + x.2))) s
      else
        askReplay (modPort s p fun r => { r with tagErr := satInc 32 r.tagErr }) p

/-- Symbols that the inner code corrected in a flit, counted on each lane (R484, Table 12.10). -/
def countFixed (s : State) (p : PortNo) (fixed : List Nat) : State :=
  if fixed.isEmpty then s
  else modPort s p fun r => { r with lanes := r.lanes.zipIdx.map fun x => { x.1 with fixed := x.1.fixed + fixed.getD x.2 0 } }

/-- A CTRL flit accepted in order on the link: FSEQ taken and acknowledged (R488, R491). -/
def acceptCtrl (s : State) (p : PortNo) : State :=
  let s := modPort s p fun r => { r with rxF := some (nextRx r), gap := false, lastGood := s.counter }
  releaseFresh s p

end Sys2Proof.Machine
end

