-- ==== Sys2Proof/Machine/HostLink.lean ====
section
/-! DEFINITION. The host port's frames: sent, acknowledged, replayed and taken in order (R684 to R687). -/

namespace Sys2Proof.Machine

/-- KIND codes of the shim (Table 19.1). -/
def hkData : BitVec 4 := 0
def hkAck : BitVec 4 := 1
def hkMgmt : BitVec 4 := 2
def hkParam : BitVec 4 := 3

/-- The 16 shim bytes that lead a frame's Ethernet payload. -/
def shimBytes : Nat := 16

/-- The credit return that the next frame to the host can carry: the lowest class with some to return (Table 19.1). -/
def hostReturn (s : State) : Cls × Nat :=
  let k := ((List.range 8).find? fun c => s.hp.toReturn.getD c 0 != 0).getD 0
  (BitVec.ofNat 3 k, min 65535 (s.hp.toReturn.getD k 0))

/-- That return taken. -/
def takeReturn (s : State) : State :=
  let (c, n) := hostReturn s
  { s with hp := { s.hp with toReturn := (List.range 8).map fun k => s.hp.toReturn.getD k 0 - if k = c.toNat then n else 0 } }

/-- A frame put on the host port to the source address of the last accepted frame, with the acknowledgement and a credit return (R684,
Table 19.1). -/
def putHost (s : State) (kind : BitVec 4) (eseq : Word) (nak : Bool) (crcls : Cls) (crcnt : BitVec 16) (body : List Byte)
    (m : Option MgmtMsg) : State :=
  let h : Shim := { mac := s.hp.peer, etype := s.hp.etype, bytes := shimBytes + body.length, fcsOk := true, ver := 1, kind := kind, nak := nak,
                    ackv := s.hp.rx.isSome, eseq := eseq, ackseq := s.hp.rx.getD 0, crcls := crcls, crcnt := crcnt }
  emit s (.hostFrame h body m)

/-- A kept frame put on the host port, as first sent or replayed. -/
def putHostFrame (s : State) (f : HpFrame) : State := putHost s f.kind f.eseq false f.crcls f.crcnt f.bytes f.mgmt

/-- Bytes of frames sent to the host and not acknowledged (R686). -/
def hostUnacked (s : State) : Nat := ((s.hp.rb.filter (·.sent)).map fun f => shimBytes + f.bytes.length).sum

/-- Kept frames that wait, sent in order while the replay buffer's 4 MiB allow (R686). -/
def hostSendList : List HpFrame → State → State
  | [], s => s
  | f :: fs, s =>
    if hostUnacked s + shimBytes + f.bytes.length ≤ 4 * 2 ^ 20 then
      let (c, n) := hostReturn s
      let f := { f with sent := true, crcls := c, crcnt := BitVec.ofNat 16 n }
      let s := takeReturn s
      let s := { s with hp := { s.hp with rb := modWhere s.hp.rb (fun x => x.eseq == f.eseq) fun _ => f } }
      hostSendList fs (putHostFrame s f)
    else s

/-- Sends the kept frames that wait. -/
def hostSendWaiting (s : State) : State := hostSendList (s.hp.rb.filter fun f => !f.sent) s

/-- A new DATA, MGMT or PARAM frame: it takes the next ESEQ and is kept for replay (R686). -/
def hostNew (s : State) (kind : BitVec 4) (body : List Byte) (m : Option MgmtMsg) : State :=
  let f : HpFrame := { eseq := s.hp.next, kind := kind, bytes := body, mgmt := m, crcls := 0, crcnt := 0, replays := 0, sent := false }
  let at_ := if s.hp.rb.isEmpty then s.counter else s.hp.ackAt
  hostSendWaiting { s with hp := { s.hp with next := s.hp.next + 1, rb := s.hp.rb ++ [f], ackAt := at_ } }

/-- An ACK frame, which takes no sequence number. -/
def hostAck (s : State) (nak : Bool) : State :=
  let (c, n) := hostReturn s
  putHost (takeReturn s) hkAck s.hp.next nak c (BitVec.ofNat 16 n) [] none

/-- Frame bytes sent to the host in DATA frames no longer than the MTU (R684, R685). -/
def hostSendFrame (s : State) (bs : List Byte) : State :=
  let room := s.hp.mtu.toNat - shimBytes
  (List.range (ceilDiv bs.length (max 1 room))).foldl (fun s k => hostNew s hkData ((bs.drop (k * room)).take room) none) s

/-- ACKSEQ of the host taken (R686). -/
def hostTakeAck (s : State) (a : Word) : State :=
  let acked : HpFrame → Bool := fun f => f.sent && decide ((a - f.eseq).toNat < 2 ^ 31)
  let rb := s.hp.rb.filter fun f => !acked f
  if s.hp.rb.any acked then hostSendWaiting { s with hp := { s.hp with rb := rb, ackAt := s.counter } } else s

/-- Every sent and unacknowledged frame replayed (R686 as R498). -/
def hostReplay (s : State) : State :=
  let go := s.hp.rb.filter (·.sent)
  if go.isEmpty then s
  else
    let rb := s.hp.rb.map fun f => if f.sent then { f with replays := f.replays + 1 } else f
    go.foldl putHostFrame
      { s with hp := { s.hp with rb := rb, replays := satInc 16 s.hp.replays, replayAt := s.counter } }

/-- The host link's own parameters in PARAM: all eight classes and the grants of a 4-lane port (R526, R686, Table 13.1). -/
def hostGrants : List Nat := [12288, 12288, 12288, 12288, 12288, 12288, 12288, 1024]

/-- PARAM sent with ESEQ 0, the replay buffer empty (R686, Table 19.13). -/
def hostSendParam (s : State) : State :=
  let body := (0xFF : Byte) :: (List.replicate 15 0 ++ (hostGrants.map fun c => leBytes c 4).flatten)
  hostNew { s with hp := { s.hp with next := 0, rb := [], sentParam := true, paramAt := s.counter } } hkParam body none

/-- A management response's bytes (Table 19.3). -/
def mgmtBytes (m : MgmtMsg) : List Byte :=
  [BitVec.ofNat 8 (m.mop.toNat + 128), m.count.setWidth 8, m.device.setWidth 8, m.status.setWidth 8] ++ leBytes m.mtag.toNat 4 ++
    leBytes m.addr.toNat 4 ++ List.replicate 4 0 ++ (m.data.map fun w => leBytes w.toNat 4).flatten

end Sys2Proof.Machine
end

