-- ==== Sys2Proof/Machine/Switch.lean ====
section
/-! DEFINITION. The switch core: admission to the pool and push-out (R530 to R533), residency (R534), the choice of the next
frame (R566 to R569), occupancy (R548), route notices (R550 to R552) and the class limits (R531). -/

namespace Sys2Proof.Machine

/-! ### The pool (R525, R526, R530) -/

/-- MAX of a class in cells (Table 13.6). -/
def maxCells (s : State) (c : Cls) : Nat := (tgetD s.swc.clsMax c (if c = 7 then 0x1000 else 0x2000)).toNat * 16
/-- MIN of a class in cells (Table 13.6). -/
def minCells (s : State) (c : Cls) : Nat := (tgetD s.swc.clsMin c (if c = 7 then 0x0400 else 0x0080)).toNat * 16

/-- Pool cells of a die. -/
def poolCells (s : State) (die : Quad) : Nat := s.swc.pool.getD die.toNat 0

/-- Whether the answer that a frame is a copy of already stands in the buffer of its die (R140, R141). -/
def answerIn (q : List QFrame) (x : QFrame) : Bool := x.grp.isSome && q.any fun y => y.die == x.die && decide (y.grp = x.grp)

/-- Cells a frame takes beside the frames that stand before it: none of its own where its answer stands there. -/
def ownCells (q : List QFrame) (x : QFrame) : Nat := if answerIn q x then 0 else x.cells

/-- Cells that the frames of a queue which meet `p` take, each answer counted once on a die. -/
def cellsOf (p : QFrame → Bool) (seen : List QFrame) : List QFrame → Nat
  | [] => 0
  | x :: xs => (if p x then ownCells seen x else 0) + cellsOf p (seen ++ [x]) xs

/-- Cells a class uses on a die. -/
def useCells (q : List QFrame) (die : Quad) (c : Cls) : Nat := cellsOf (fun x => x.die == die && x.cls == c) [] q

/-- Cells used on a die. -/
def usedCells (q : List QFrame) (die : Quad) : Nat := cellsOf (fun x => x.die == die) [] q

/-- Free pool cells of a die (Table 13.5). -/
def freeCells (s : State) (q : List QFrame) (die : Quad) : Nat := poolCells s die - usedCells q die

/-- The eight classes. -/
def allCls : List Cls := [0, 1, 2, 3, 4, 5, 6, 7]

/-- The unused reserve of every class but one on a die (R530). -/
def reserveOthers (s : State) (q : List QFrame) (die : Quad) (c : Cls) : Nat :=
  ((allCls.filter fun k => k != c).map fun k => minCells s k - useCells q die k).sum

/-- A frame's cells fit in the pool's free cells less the unused reserve of every other class (R530). -/
def fitsFree (s : State) (q : List QFrame) (x : QFrame) : Bool :=
  decide (ownCells q x + reserveOthers s q x.die x.cls ≤ freeCells s q x.die)

/-- The class's use after admission does not exceed its MAX (R530). -/
def fitsMax (s : State) (q : List QFrame) (x : QFrame) : Bool :=
  decide (useCells q x.die x.cls + ownCells q x ≤ maxCells s x.cls)

/-! ### Push-out (R532, R533) -/

/-- The next victim for a class on a die: the lowest class below it whose use exceeds its MIN and that has an eligible frame,
and in it the frame admitted last. -/
def nextVictim (s : State) (q : List QFrame) (die : Quad) (c : Cls) : Option QFrame :=
  (allCls.filter fun k => decide (k < c)).findSome? fun k =>
    if minCells s k < useCells q die k then
      (q.filter fun x => x.die == die && x.cls == k && framePushable x.f).getLast?
    else none

/-- The queue after victims made room, and their number; none when the eligible frames cannot free enough. -/
def pushOut (s : State) (x : QFrame) : Nat → List QFrame → Nat → Option (List QFrame × Nat)
  | 0, _, _ => none
  | fuel + 1, q, n =>
    if fitsFree s q x then some (q, n)
    else match nextVictim s q x.die x.cls with
      | none => none
      | some v => pushOut s x fuel (eraseFirst (fun y => y.id == v.id) q) (n + 1)

/-- A frame admitted to its output queue: it leaves its landing zone and its credits are returned (R529). -/
def admitFrame (s : State) (x : QFrame) (q : List QFrame) (pushed : Nat) : State :=
  let w := { s.swc with land := eraseFirst (fun y => y.id == x.id) s.swc.land, queue := q ++ [x],
                        dropPushed := satAdd 32 s.swc.dropPushed pushed }
  returnCredits { s with swc := w } x.inp x.cls (frameCredits x.f)

/-- The port whose latest flit brought a frame that may still be cut through (R535). -/
def earlyPort (s : State) (fr : Frame) : Option PortNo :=
  (s.lnk.find? fun e => e.2.early.contains (frameSrc fr, frameTag fr)).map (·.1)

/-- A frame of a landing zone cut through to its output: it takes no cell of the pool, and its credits go back as it leaves (R529, R535,
R570). A FRAME_VOID for it is still passed on (R537). -/
def cutLanded (s : State) (x : QFrame) (p o : PortNo) : State :=
  let c : Cut := ⟨.lane o, 0, frameSrc x.f, frameTag x.f⟩
  let s := returnCredits { s with swc := { s.swc with land := eraseFirst (fun y => y.id == x.id) s.swc.land } } x.inp x.cls
    (frameCredits x.f)
  let s := flushTail (sendBytes (spendCredits (chargeOut s (.lane o) x.f) (.lane o) x.f) o (wireFor s o x.f)) o
  modPort (modPort s o fun r => { r with hold := true }) p fun r =>
    { r with early := r.early.filter fun k => !decide (k = (frameSrc x.f, frameTag x.f)), ended := some c }

/-- The input and output of a landed frame that can be cut through now. -/
def cutPair (s : State) (x : QFrame) : Option (PortNo × PortNo) :=
  match earlyPort s x.f, x.outp with
  | some p, .lane o => if (portOf s p).ended.isNone && cutReady s p o x.f then some (p, o) else none
  | _, _ => none

/-- FRAME_ADMIT (R530, R532, R535): the first frame of a landing zone is cut through, is admitted, pushes others out, or waits. -/
def frameAdmit (s : State) (p : Port) (c : Cls) : State :=
  match s.swc.land.find? fun x => decide (x.inp = p) && x.cls == c with
  | none => s
  | some x =>
    match cutPair s x with
    | some io => cutLanded s x io.1 io.2
    | none =>
    if fitsMax s s.swc.queue x && fitsFree s s.swc.queue x then admitFrame s x s.swc.queue 0
    else if s.swc.poEn && fitsMax s s.swc.queue x then
      match pushOut s x (s.swc.queue.length + 1) s.swc.queue 0 with
      | some (q, n) => admitFrame s x q n
      | none => s
    else s

/-! ### Residency (R534) -/

/-- A frame dropped from the switch core. -/
def dropFrame (s : State) (id : Nat) : State :=
  { s with swc := { s.swc with land := s.swc.land.filter (fun x => x.id != id)
                               queue := s.swc.queue.filter (fun x => x.id != id) } }

/-- RESIDENCY_EXPIRE (R534): a frame unsent after 36 µs is discarded and counted in SWC_DROP_AGED. -/
def residencyExpire (s : State) (id : Nat) : State :=
  match (s.swc.land ++ s.swc.queue).find? fun x => x.id == id with
  | none => s
  | some x =>
    if x.res + 36 ≤ s.counter then
      let landed := s.swc.land.any fun y => y.id == id
      let s := dropFrame { s with swc := { s.swc with dropAged := satInc 32 s.swc.dropAged } } id
      if landed then returnCredits s x.inp x.cls (frameCredits x.f) else s
    else s

/-! ### Choosing the next frame (R566 to R568) -/

/-- The head frame of a class queued for an output. -/
def headOf (s : State) (o : Port) (c : Cls) : Option QFrame :=
  s.swc.queue.find? fun x => decide (x.outp = o) && x.cls == c

/-- The head frame when it is a candidate: the transmitter holds its credits (R566). -/
def candidate (s : State) (o : Port) (c : Cls) : Option QFrame :=
  (headOf s o c).bind fun x => if hasCredits s o x.f then some x else none

/-- A candidate of classes 0 to 6 whose class bucket and port bucket are both eligible (R567 step 3). -/
def eligible (s : State) (o : Port) (c : Cls) : Option QFrame :=
  (candidate s o c).bind fun x => if shapeOk s o x.f then some x else none

/-- The classes of a priority level, in ascending order (R568). -/
def levelClasses (x : ShpSet) (prio : Nat) : List Cls := (allCls.filter fun c => c != 7).filter fun c => prioOf x c == prio

/-- The highest level with an eligible candidate (R568). -/
def levelOf (s : State) (o : Port) : Option Nat :=
  [3, 2, 1, 0].find? fun k => (levelClasses (shpOf s o) k).any fun c => (eligible s o c).isSome

/-- The class after another in a level, wrapping. -/
def nextClass (cs : List Cls) (c : Cls) : Option Cls :=
  match cs.find? fun k => decide (c < k) with
  | some k => some k
  | none => cs.head?

/-- Deficit round robin within a level (R568): turns pass until a class's eligible head fits its deficit. A class that is
passed over keeps its deficit; one whose queue is empty loses it. -/
def drr (s : State) (o : Port) (cs : List Cls) : Nat → ShpSet → Cls → Bool → ShpSet × Option QFrame
  | 0, x, _, _ => (x, none)
  | fuel + 1, x, c, begun =>
    let pass : ShpSet → ShpSet × Option QFrame := fun x =>
      match nextClass cs c with
      | some k => drr s o cs fuel { x with turn := none } k false
      | none => (x, none)
    match eligible s o c with
    | none => pass (if (headOf s o c).isNone then { x with deficit := tset x.deficit c 0 } else x)
    | some f =>
      let d := deficitOf x c + if begun then 0 else quantumOf x c
      let n := countedLength x f.f
      if n ≤ d then ({ x with deficit := tset x.deficit c (d - n), turn := some c }, some f)
      else pass { x with deficit := tset x.deficit c d }

/-- The frame chosen at an output, with the SHP_ set as the choice leaves it, and whether step 2 of R567 chose it. -/
def choose (s : State) (o : Port) : ShpSet × Option QFrame × Bool :=
  let x := shpOf s o
  match candidate s o 7 with
  | some f => (x, some f, false)
  | none =>
    let aged := (allCls.filter fun c => c != 7).filterMap fun c =>
      (candidate s o c).bind fun f => if f.res + 24 ≤ s.counter then some f else none
    match leastBy (·.res) aged with
    | some f => (x, some f, true)
    | none =>
      match levelOf s o with
      | none => (x, none, false)
      | some k =>
        let cs := levelClasses x k
        let start := match x.turn with
          | some c => if cs.contains c then (c, true) else ((cs.head?).getD 0, false)
          | none => ((cs.head?).getD 0, false)
        let r := drr s o cs 8192 x start.1 start.2
        (r.1, r.2, false)

/-- Whether an output can start a frame: it is up, nothing is being cut through to it, and its last frame has left. -/
def canStart (s : State) : Port → Bool
  | .lane p =>
    let r := portOf s p
    portCarries r && !r.noSend && !r.hold && (r.role != 2 || r.joined) && r.rb.all (·.sent) && !cutting s p
  | .host => s.hp.link && s.hp.rb.all (·.sent)
  | .own => false

/-- A queue with a frame put behind the next frame of its class and output (Table 18.6, reorder). -/
def reorderFrame (q : List QFrame) (f : QFrame) : List QFrame :=
  let rest := eraseFirst (fun y => y.id == f.id) q
  let g := { f with override := true }
  match rest.findIdx? fun y => decide (y.outp = f.outp) && y.cls == f.cls with
  | some i => rest.take (i + 1) ++ g :: rest.drop (i + 1)
  | none => g :: rest

/-- A frame sent on its output: HOP counted on a trunk, flits or Ethernet frames made (R554, R490, R685). -/
def transmit (s : State) (o : Port) (fr : Frame) : State :=
  match o with
  | .lane p => sendBytes s p (wireFor s p fr)
  | .host => hostSendFrame s (frameWire fr)
  | .own => s

/-- An output's next frame taken (R567); one with HOP 7 for a trunk is discarded (R554); an injection drops or reorders a request frame
(Table 18.6). -/
def startFrame (s : State) (o : Port) : State :=
  if !canStart s o then s
  else match choose s o with
    | (_, none, _) => s
    | (x, some f, aged) =>
      let onTrunk := match o with
        | .lane p => isTrunk s p
        | _ => false
      if onTrunk && frameHop f.f == 7 then
        dropFrame { s with swc := { s.swc with dropAged := satInc 32 s.swc.dropAged } } f.id
      else
        let inj := if frameIsReq f.f && !f.override then
            bltEvent s 2 fun b => decide (o = .lane b.portStack) && b.sub == f.cls.setWidth 8
          else (s, none)
        match inj.2.map BitVec.toNat with
        | some 0 => dropFrame { inj.1 with swc := { inj.1.swc with dropPushed := satInc 32 inj.1.swc.dropPushed } } f.id
        | some 2 => { inj.1 with swc := { inj.1.swc with queue := reorderFrame inj.1.swc.queue f } }
        | _ =>
          let x := if aged then { x with override := satInc 32 x.override } else x
          let s := modShp inj.1 o fun _ => x
          let s := spendCredits (chargeOut s o f.f) o f.f
          transmit (dropFrame s f.id) o f.f

/-- The rest of a flit goes out padded once no further frame can start (R490). DESIGN CHOICE (log entry 41): frames share a flit when the
next one could start as the first left. -/
def closeFlit (s : State) (o : Port) : State :=
  match o with
  | .lane p => if cutting s p || (canStart s o && (choose s o).2.1.isSome) then s else flushTail s p
  | _ => s

/-- FRAME_SCHEDULE (R41, R567): the output's next frame, packed behind the last. -/
def frameSchedule (s : State) (o : Port) : State := closeFlit (startFrame s o) o

/-! ### Occupancy (R548) -/

/-- Cells queued for a port as output in classes 0 to 6. -/
def occupancy (s : State) (p : PortNo) : Nat :=
  ((s.swc.queue.filter fun x => decide (x.outp = .lane p) && x.cls != 7).map (·.cells)).sum

/-- The sample of one microsecond on every trunk port at STATE 3. -/
def sampleOccupancy (s : State) : State :=
  { s with lnk := tmap s.lnk fun p r =>
      if r.role == 2 && r.st == 3 then { r with samples := (r.samples ++ [occupancy s p]).take 64 } else r }

/-- OCCUPANCY_WINDOW (R548): a window of 64 samples ends; its mean is kept and the windows in a row counted. -/
def occupancyWindow (s : State) (p : PortNo) : State :=
  modPort s p fun r =>
    if r.role == 2 && r.st == 3 && decide (64 ≤ r.samples.length) then
      { r with mean := (r.samples.take 64).sum / 64, windows := r.windows + 1, samples := [] }
    else r

/-! ### Route notices (R550, R551) -/

/-- The fields of a ROUTE_NOTICE payload (Table 13.3). -/
def noteOf (bs : List Byte) : DevId × PortNo × NoteRec :=
  (BitVec.ofNat 6 (byteAt bs 0).toNat, byteAt bs 1,
    { nseq := BitVec.ofNat 32 (leAt bs 8 4), link := BitVec.ofNat 10 (leAt bs 2 2), restore := (byteAt bs 4).getLsbD 0,
      endpoint := (byteAt bs 4).getLsbD 1 })

/-- Whether a notice is newer than any held for its ORIGIN and PORT (R550). -/
def newNote (s : State) (f : Req) : Bool :=
  let (origin, port, n) := noteOf f.payload
  match tget s.swc.notes (origin, port) with
  | none => true
  | some h => decide (h.nseq < n.nseq)

/-- ROUTE_NOTICE (R550): a notice newer than any held for its ORIGIN and PORT is applied and flooded on; older or repeated
ones are discarded. -/
def routeNotice (s : State) (p : PortNo) (f : Req) : State :=
  let (origin, port, n) := noteOf f.payload
  let newer := newNote s f
  let s := endBegan (freeLanding s (.lane p) f) f
  if newer then floodNote (applyNote s origin port n) f.payload (some p) else s

/-- The restore notices a side sends the other when a trunk first holds STATE 3 for 1 ms: every link and port it does not hold
failed, under the NSEQ it last applied (R552). -/
def restoreAll (s : State) (p : PortNo) : State :=
  let dst := (ownEpOf s (portOf s p).peerDev).getD 0
  s.swc.notes.foldl (fun s e =>
    if e.2.restore && !(if e.2.endpoint then s.swc.unroutable.contains e.1 else s.swc.failed.contains e.2.link.toNat) then
      landFrame s .own (.lane p)
        (.req (noteFrame s dst (notePayload e.1.1 e.1.2 e.2.link true e.2.endpoint e.2.nseq))) s.counter
    else s) s

/-- RESTORE_NOTICE_TIMER (R551, R552, R658): a port that has held STATE 3 for 1 ms sends its restore notice; a trunk must be
joined, and also passes on what it holds restored. -/
def restoreTimer (s : State) (p : PortNo) : State :=
  let r := portOf s p
  if r.st == 3 && !r.restored && decide (r.upAt + 1000 ≤ s.counter) && (r.role != 2 || (r.joined && !r.waitLoss)) then
    let s := ownNote (modPort s p fun r => { r with restored := true }) p true
    if r.role == 2 then restoreAll s p else s
  else s

/-! ### Class limits (R531) -/

/-- A write of SWC_CLS_CFG: refused with DENIED when MAX falls below MIN or the MINs of a die exceed its pool (R531). -/
def writeClsCfg (s : State) (c : Cls) (v : Word) : State × Status :=
  let mx : BitVec 16 := v.extractLsb' 16 16
  let mn : BitVec 16 := v.extractLsb' 0 16
  let s' := { s with swc := { s.swc with clsMax := tset s.swc.clsMax c mx, clsMin := tset s.swc.clsMin c mn } }
  let total := (allCls.map fun k => minCells s' k).sum
  if mx < mn || [0, 1, 2, 3].any (fun d => decide (poolCells s d < total)) then (s, .denied) else (s', .ok)

/-! ### A port going down (R538) -/

/-- Frames queued for a port as output or waiting for it discarded, counted in SWC_DROP_FLUSHED, their cells freed (R538). -/
def flushOutput (s : State) (o : Port) : State :=
  let gone := (s.swc.land ++ s.swc.queue).filter fun x => decide (x.outp = o)
  let w := { s.swc with land := s.swc.land.filter (fun x => !decide (x.outp = o))
                        queue := s.swc.queue.filter (fun x => !decide (x.outp = o)) }
  let back := s.swc.land.filter fun x => decide (x.outp = o)
  dropFlushed (back.foldl (fun s x => returnCredits s x.inp x.cls (frameCredits x.f)) { s with swc := w }) gone.length

/-- A frame cut through from a port that goes down is padded with zeros and voided on its output (R537). -/
def voidCut (s : State) (p : PortNo) : State :=
  match (portOf s p).cut with
  | some c =>
    let s := match c.out with
      | .lane o => sendCtrl (flushTail (sendBytes s o (List.replicate c.left 0)) o) o (.frameVoid c.src c.tag)
      | _ => s
    modPort { s with swc := { s.swc with dropVoided := satInc 32 s.swc.dropVoided } } p fun r => { r with cut := none }
  | none => s

/-- R538 for a port: partly received frames discarded, apart from one that is voided, and its output queues flushed. -/
def flushPort (s : State) (p : PortNo) : State :=
  let s := voidCut s p
  let s := if (portOf s p).part.isEmpty then s else dropFlushed s 1
  let s := match (portOf s p).ended with
    | some c => endHold s c
    | none => s
  flushOutput (modPort s p fun r => { r with part := [], ended := none }) (.lane p)

/-- FRAME_VOID received (R537): the frame is voided onward when it is being cut through, discarded when it is stored. -/
def frameVoid (s : State) (p : PortNo) (src : Ep) (tag : Tag) : State :=
  let r := portOf s p
  let voided : State → State := fun s => { s with swc := { s.swc with dropVoided := satInc 32 s.swc.dropVoided } }
  let named : Cut → Bool := fun c => c.src == src && c.tag == tag
  let isFrame : Frame × Nat → Bool := fun x => frameSrc x.1 == src && frameTag x.1 == tag
  let cut := match r.ended with
    | some c => if named c then some c else none
    | none => none
  match cut with
  | some c =>
    let s := match c.out with
      | .lane o => newFlit s o true (ctrlPayload (.frameVoid src tag))
      | _ => s
    acceptCtrl (voided s) p
  | none =>
    match r.fresh.find? isFrame with
    | some x =>
      let s := modPort s p fun r => { r with fresh := eraseFirst isFrame r.fresh }
      acceptCtrl (voided (returnCredits s (.lane p) (frameCls x.1) (frameCredits x.1))) p
    | none => acceptCtrl s p

/-! ### Rows -/

/-- FRAME_ADMIT (R530). -/
def execFrameAdmit (p : Port) (c : Cls) (s : State) : Res := whenUp s fun s => frameAdmit s p c
/-- RESIDENCY_EXPIRE (R534). -/
def execResidencyExpire (id : Nat) (s : State) : Res := whenUp s fun s => residencyExpire s id
/-- FRAME_SCHEDULE (R567). -/
def execFrameSchedule (p : Port) (s : State) : Res := whenUp s fun s => frameSchedule s p
/-- OCCUPANCY_WINDOW (R548). -/
def execOccupancyWindow (p : PortNo) (s : State) : Res := whenUp s fun s => occupancyWindow s p
/-- FRAME_VOID (R537). -/
def execFrameVoid (p : PortNo) (src : Ep) (tag : Tag) (s : State) : Res := whenUp s fun s => frameVoid s p src tag

end Sys2Proof.Machine
end

