-- ==== Sys2Proof/Machine/Training.lean ====
section
/-! DEFINITION. Training, trunk authentication and the link keys (R502 to R513), and joining a trunk (R657 to R659). -/

namespace Sys2Proof.Machine

/-- Classes a port carries: all on a trunk; class 7 on every port (R528). -/
def carried (r : PortRec) (c : Cls) : Bool := r.role == 2 || c == 7 || r.classes.getLsbD c.toNat

/-- Credits granted per class (Table 13.1). -/
def grantOf (width : BitVec 4) (c : Cls) : Nat :=
  if c = 7 then 1024 else if width.toNat ≤ 2 then 8448 else if width.toNat ≤ 4 then 12288 else 16384

/-- The grants of a port: zero for a class it does not carry (R527). -/
def portGrants (r : PortRec) : List Nat := allCls.map fun c => if carried r c then grantOf r.width c else 0

/-- The endpoint bound to a port (R47). -/
def portEp (s : State) (p : Port) : Option Ep :=
  (s.swc.eps.find? fun x => x.dev == devId s && decide (x.at_ = p)).map (·.ep)

/-- This device's LINK_PARAM on a port (Table 12.12). -/
def ownParam (s : State) (p : PortNo) : LinkParam :=
  let r := portOf s p
  { role := r.role, width := r.width, cipher := r.cipher, dev := devId s, ep := (portEp s (.lane p)).getD 0
    classes := BitVec.ofNat 8 ((allCls.map fun c => if carried r c then 2 ^ c.toNat else 0).sum), credits := portGrants r }

/-- A port's transmitter and receiver with FSEQ 0 next and empty replay buffers. -/
def freshLink (r : PortRec) : PortRec :=
  { r with nextF := 0, rb := [], tail := [], hold := false, late := [], reord := none, rxF := none, gap := false, nak := false, part := [], fresh := [], early := [], held := [],
           cut := none, ended := none, winReplays := 0, toReturn := [] }

/-- Training starts at step 1: STATE = 1, one more training attempt, at the configured width (R502, Table 12.7). -/
def trainStart (s : State) (p : PortNo) : State :=
  let now := s.counter
  modPort s p fun r =>
    { freshLink r with st := 1, step := 1, stepAt := now, retrains := satInc 16 r.retrains, actWidth := 0, auth := false,
                       enc := false, credits := [], lanesOk := 0xFF, hello := none, proof := [], accepted := false, point := none, nonce := [],
                       tx := none, rx := none, joined := false, gotJoin := false, refused := false, noSend := false,
                       restored := false, samples := [], mean := 0, windows := 0 }

/-- The width a port can train at: its configured width, or, with lanes that failed and DEGRADE_EN, the widest of 4, 2 and 1
whose lanes all passed (R504); 0 when there is none. -/
def trainWidth (r : PortRec) : Nat :=
  let ok : Nat → Bool := fun w => (List.range w).all fun i => r.lanesOk.getLsbD i && !r.isolated.getLsbD i
  if ok r.width.toNat || !r.degrade then r.width.toNat
  else (([4, 2, 1].find? fun w => decide (w < r.width.toNat) && ok w)).getD 0

/-- PRESENCE_DETECT (R502, R519): with a partner on every lane a port at step 1 goes on and offers its LINK_PARAM; otherwise
it stays at step 1. -/
def presenceDetect (s : State) (p : PortNo) (present : Bool) : State :=
  let r := portOf s p
  if r.st == 1 && r.step == 1 && r.enable && present && trainWidth r != 0 then
    let now := s.counter
    let s := modPort s p fun r => { r with step := 5, stepAt := now }
    sendCtrl s p (.linkParam (ownParam s p))
  else s

/-- A training step fails: an error record names the step, and the port returns to step 1 (R503). -/
def stepFail (s : State) (p : PortNo) (step : Nat) : State :=
  let s := raise s (report 1 (.port p) { locLane s p with cell := BitVec.ofNat 28 step })
  trainStart s p

/-- The step that failed: this device's record of steps 2 to 5 is one, so the row names which of them it was. -/
def failedStep (r : PortRec) (step : Nat) : Nat := if r.step = 5 ∧ 2 ≤ step ∧ step ≤ 5 then step else r.step

/-- PORT_TRAIN_STEP_FAIL (R503, R504): a step fails, or exceeds its bound; lanes that failed step 2 or 3 are noted for the next
width. -/
def portTrainStepFail (s : State) (p : PortNo) (step : Nat) (lanesOk : BitVec 8) : State :=
  let r := portOf s p
  if (r.st == 1 || r.st == 2) && decide (1 < r.step) then
    let n := failedStep r step
    let lanes := (List.range r.width.toNat).map fun i => (⟨lanesOk.getLsbD i, lanesOk.getLsbD i, 0, 0⟩ : LaneRec)
    modPort (stepFail s p n) p fun x =>
      if n ≤ 3 then { x with lanesOk := lanesOk, lanes := lanes } else { x with lanesOk := r.lanesOk }
  else s

/-- The role a partner must report: an endpoint on an endpoint-facing port, a trunk on a trunk (Table 12.12). -/
def partnerRole (r : PortRec) : BitVec 2 := if r.role = 2 then 2 else 3

/-- LINK_PARAM (R493, R502 step 5, R509): roles and cipher modes must agree; credits are taken; a trunk goes to step 6 and
sends AUTH_HELLO with a fresh nonce. -/
def linkParam (s : State) (p : PortNo) (m : LinkParam) : State :=
  let r := portOf s p
  let s := acceptCtrl s p
  if r.st == 1 && r.step == 5 then
    if m.role == partnerRole r && m.cipher == r.cipher then
      let now := s.counter
      let s := modPort s p fun r => { r with credits := m.credits, step := if r.role == 2 then 6 else 7, stepAt := now }
      if r.role == 2 then
        let nonce := Config.random s.free 32
        let s := modPort (takeFree s 1) p fun r => { r with st := 2, nonce := nonce }
        let dom := match s.boot.image with
          | some i => i.domain
          | none => 0
        sendCtrl s p (.authHello { dev := devId s, port := p.setWidth 16, domain := dom, nonce := nonce })
      else s
    else stepFail s p 5
  else s

/-- The bytes of a hello (Table 12.12). -/
def helloBytes (m : AuthHello) : List Byte := ctrlPayload (.authHello m)

/-- This device's own hello on a port. -/
def ownHello (s : State) (p : PortNo) : AuthHello :=
  { dev := devId s, port := p.setWidth 16, nonce := (portOf s p).nonce
    domain := match s.boot.image with
      | some i => i.domain
      | none => 0 }

/-- The identity certificate: the image's domain certificate (R605). -/
def identityCert (s : State) : List Byte :=
  match s.boot.image with
  | some i => i.cert.take 3520
  | none => []

/-- AUTH_PROOF in fragments of 224 bytes: signature over both hellos, sender first, then the certificate (R506). -/
def sendProof (s : State) (p : PortNo) (peer : AuthHello) : State :=
  let bs := Config.sign Config.identityKey (helloBytes (ownHello s p) ++ helloBytes peer) ++ identityCert s
  let n := ceilDiv bs.length 224
  (List.range n).foldl (fun s k =>
    sendCtrl s p (.authProof (BitVec.ofNat 4 k) (BitVec.ofNat 4 (n - 1)) (BitVec.ofNat 16 bs.length)
      ((bs.drop (k * 224)).take 224))) s

/-- AUTH_HELLO (R506): the peer's hello is kept and this side's proof sent. -/
def authHello (s : State) (p : PortNo) (m : AuthHello) : State :=
  let r := portOf s p
  let s := acceptCtrl s p
  if r.st == 2 && r.hello.isNone then sendProof (modPort s p fun r => { r with hello := some m }) p m else s

/-- Whether the peer is the one R507 accepts. -/
def peerOk (s : State) (p : PortNo) (m : AuthProof) : Bool :=
  let r := portOf s p
  match r.hello with
  | some h => m.chains && m.verifies && h.domain == (ownHello s p).domain && h.dev == r.peerDev &&
      h.port == r.peerPort.setWidth 16
  | none => false

/-- This side's ephemeral point (R510): 64 bytes. -/
def ownPoint (s : State) (p : PortNo) : List Byte :=
  (List.range 64).map fun i => Config.agreeByte (portOf s p).nonce [0x04] i

/-- KA_POINT (R510): the peer's point is kept and this side's confirmation value sent. -/
def kaPoint (s : State) (p : PortNo) (pt : List Byte) : State :=
  let r := portOf s p
  let s := acceptCtrl s p
  if r.st == 2 && r.accepted && r.point.isNone then
    let s := modPort s p fun r => { r with point := some pt }
    sendCtrl s p (.kaConfirm ((List.range 32).map fun i => Config.agreeByte r.nonce (0x05 :: pt) i))
  else s

/-- Key bytes of a cipher mode: 16 for SM4, 32 for AES-256 (R510). -/
def cipherKeyLen (c : BitVec 2) : Nat := if c = 1 then 16 else 32

/-- The four link keys in order K_lo, K_hi, S_lo, S_hi (R606). -/
def linkKeys (s : State) (p : PortNo) : List Byte :=
  let r := portOf s p
  let peer := (r.hello.map (·.nonce)).getD []
  let lower := devId s < r.peerDev
  let lo := if lower then r.nonce else peer
  let hi := if lower then peer else r.nonce
  let z := (List.range 32).map fun i => Config.agreeByte (lo ++ hi) ((r.point.getD []) ++ ownPoint s p) i
  Config.kdf (z ++ lo ++ hi) (2 * cipherKeyLen r.cipher + 8)

/-- A direction's cipher from the link keys: the group counter and KPH start at 0 (R510). -/
def newCipher (s : State) (p : PortNo) (loDir : Bool) : Cipher :=
  let ks := linkKeys s p
  let k := cipherKeyLen (portOf s p).cipher
  { key := (ks.drop (if loDir then 0 else k)).take k, salt := (ks.drop (2 * k + if loDir then 0 else 4)).take 4, group := 0,
    kph := false, inGroup := 0, since := s.counter, pend := false, prev := none }

/-- KA_CONFIRM (R510): the value verified, the keys of both directions are derived and step 6 is passed; one that does not
verify fails step 6. -/
def kaConfirm (s : State) (p : PortNo) (verifies : Bool) : State :=
  let r := portOf s p
  let s := acceptCtrl s p
  if r.st == 2 && r.accepted && r.point.isSome then
    if verifies then
      let lower := decide (devId s < r.peerDev)
      let now := s.counter
      let tx := if r.cipher = 0 then none else some (newCipher s p lower)
      let rx := if r.cipher = 0 then none else some (newCipher s p !lower)
      modPort s p fun r => { r with step := 7, stepAt := now, tx := tx, rx := rx }
    else stepFail s p 6
  else s

/-- This device's JOIN message (Table 17.6). -/
def ownJoin (s : State) : JoinMsg :=
  match s.boot.image with
  | some i => { dev := i.device, registrar := i.registrar, host := i.hostDev, incarnation := s.boot.incarnation,
                digest := i.routeDigest }
  | none => { dev := 0, registrar := 0, host := 0, incarnation := s.boot.incarnation, digest := [] }

/-- PORT_TRAINED (R502 step 7, R517, R562, R657): STATE = 3, FSEQ 0 on both sides, replay buffers empty, buckets at T = 0; a
trunk sends its JOIN. -/
def portTrained (s : State) (p : PortNo) : State :=
  let r := portOf s p
  if (r.st == 1 || r.st == 2) && r.step == 7 then
    let now := s.counter
    let w := trainWidth r
    let lanes := (List.range r.width.toNat).map fun i => (⟨decide (i < w), decide (i < w), 0, 0⟩ : LaneRec)
    let s := modPort s p fun r =>
      { freshLink r with st := 3, actWidth := BitVec.ofNat 4 w, auth := r.role == 2, enc := r.tx.isSome, upAt := now,
                         lastGood := now, ackAt := now, joinAt := now, lanes := lanes }
    let s := shpTrained s (.lane p)
    if r.role == 2 then sendCtrl s p (.join (ownJoin s)) else s
  else s

/-- RETRAIN_BACKOFF_EXPIRE (R518): the wait after a fault ends and training restarts at step 1. -/
def retrainBackoffExpire (s : State) (p : PortNo) : State :=
  let r := portOf s p
  if r.st == 0 && r.enable && r.lastFault != 8 && r.lastFault != 0 && decide (r.waitUntil ≤ s.counter) then trainStart s p else s

/-! ### Key change (R512) -/

/-- KEY_CHANGE_TIMER (R512): at 2^40 groups or after 1 s the transmitter sends KEY_NEXT, and takes the next key with the next group. -/
def keyChangeTimer (s : State) (p : PortNo) : State :=
  let r := portOf s p
  match r.tx with
  | some c =>
    if r.enc && !c.pend && (decide (2 ^ 40 ≤ c.group) || decide (c.since + 1000000 ≤ s.counter)) then
      let wait := modPort s p fun r => { r with tx := r.tx.map fun c => { c with pend := true } }
      sendCtrl wait p (.keyNext !c.kph)
    else s
  | none => s

/-- KEY_NEXT (R512): the receiver derives the next key and salt, and keeps the previous key for its last tag. -/
def keyNext (s : State) (p : PortNo) (kph : Bool) : State :=
  let s := acceptCtrl s p
  let now := s.counter
  modPort s p fun r =>
    match r.rx with
    | some c => if kph != c.kph then { r with rx := some (nextCipher now { c with group := c.group - 1 }) } else r
    | none => r

/-! ### Joining (R657 to R659) -/

/-- JOIN_RESEND (R657): JOIN is resent every 100 µs until the peer's JOIN is received. -/
def joinResend (s : State) (p : PortNo) : State :=
  let r := portOf s p
  if r.role == 2 && portCarries r && !r.gotJoin && decide (r.joinAt + 100 ≤ s.counter) then
    let now := s.counter
    sendCtrl (modPort s p fun r => { r with joinAt := now }) p (.join (ownJoin s))
  else s

/-- JOIN (R658, R659): the trunk is joined when digest, registrar and host match; a mismatch is counted and recorded. A changed
INCARNATION is told to the registrar, and the restore notices wait for the loss notice. -/
def join (s : State) (p : PortNo) (m : JoinMsg) : State :=
  let r := portOf s p
  let s := acceptCtrl s p
  if r.role == 2 && portCarries r then
    let own := ownJoin s
    let changed := match tget s.boot.incs m.dev with
      | some i => i != m.incarnation
      | none => false
    let s := { s with boot := { s.boot with incs := tset s.boot.incs m.dev m.incarnation } }
    let s := if changed then notify (modPort s p fun r => { r with waitLoss := true }) (registrarOf s) (.incarnation m.dev)
      else s
    if m.digest == own.digest && m.registrar == own.registrar && m.host == own.host then
      modPort s p fun r => { r with gotJoin := true, joined := true, refused := false }
    else
      let s := { s with boot := { s.boot with mismatch := satInc 16 s.boot.mismatch } }
      let s := modPort s p fun r => { r with gotJoin := true, joined := false, refused := true }
      raise s (report 10 (.port p) (locLane s p))
  else s

/-! ### Rows -/

/-- PRESENCE_DETECT (R502). -/
def execPresenceDetect (p : PortNo) (present : Bool) (s : State) : Res := whenUp s fun s => presenceDetect s p present
/-- PORT_TRAIN_STEP_FAIL (R503). -/
def execPortTrainStepFail (p : PortNo) (lanesOk : StepFail) (s : State) : Res :=
  whenUp s fun s => portTrainStepFail s p lanesOk.step lanesOk.lanes
/-- PORT_TRAINED (R502). -/
def execPortTrained (p : PortNo) (s : State) : Res := whenUp s fun s => portTrained s p
/-- LINK_PARAM (R491). -/
def execLinkParam (p : PortNo) (m : LinkParam) (s : State) : Res := whenUp s fun s => linkParam s p m
/-- AUTH_HELLO (R506). -/
def execAuthHello (p : PortNo) (m : AuthHello) (s : State) : Res := whenUp s fun s => authHello s p m
/-- KA_POINT (R510). -/
def execKaPoint (p : PortNo) (point : List Byte) (s : State) : Res := whenUp s fun s => kaPoint s p point
/-- KA_CONFIRM (R510). -/
def execKaConfirm (p : PortNo) (_value : List Byte) (verifies : Bool) (s : State) : Res := whenUp s fun s => kaConfirm s p verifies
/-- KEY_CHANGE_TIMER (R512). -/
def execKeyChangeTimer (p : PortNo) (s : State) : Res := whenUp s fun s => keyChangeTimer s p
/-- KEY_NEXT (R512). -/
def execKeyNext (p : PortNo) (kph : Bool) (s : State) : Res := whenUp s fun s => keyNext s p kph
/-- JOIN_RESEND (R657). -/
def execJoinResend (p : PortNo) (s : State) : Res := whenUp s fun s => joinResend s p
/-- JOIN (R658). -/
def execJoin (p : PortNo) (m : JoinMsg) (s : State) : Res := whenUp s fun s => join s p m
/-- RETRAIN_BACKOFF_EXPIRE (R518). -/
def execRetrainBackoffExpire (p : PortNo) (s : State) : Res := whenUp s fun s => retrainBackoffExpire s p

end Sys2Proof.Machine
end

