-- ==== Sys2Proof/Machine/ObjBase.lean ====
section
/-! DEFINITION. Objects and their tier-1 pages as accesses see them (R329, R330, R472, R594), the storage cipher's view of a
line (R585 to R591), and the drydown buffer (R418 to R424). -/

namespace Sys2Proof.Machine

/-! ### Objects -/

/-- An object, unless it was deleted (R339). -/
def objOf (s : State) (oid : Oid) : Option Obj := (tget s.obj.tab oid).bind fun o => if o.deleted then none else some o

/-- An object's descriptor changed. -/
def modObj (s : State) (oid : Oid) (f : Obj → Obj) : State :=
  match tget s.obj.tab oid with
  | some o => { s with obj := { s.obj with tab := tset s.obj.tab oid (f o) } }
  | none => s

/-- The number of the aperture page of a fabric address. -/
def pageNo (s : State) (a : Nat) : Nat := (a - t1Base s) / 4096

/-- The allocated page at a fabric address (R329). -/
def pageAt (s : State) (a : Nat) : Option PageRec :=
  if inT1 s a then
    (s.obj.pages.find? fun r => decide (r.first ≤ pageNo s a) && decide (pageNo s a < r.first + r.n)).map fun r =>
      ⟨r.oid, r.stack, r.frame + (pageNo s a - r.first), r.gone⟩
  else none

/-- The object whose allocated page holds a fabric address, one that was given up among them. -/
def objIn (s : State) (a : Nat) : Option (Oid × Obj) :=
  (pageAt s a).bind fun p => (tget s.obj.tab p.oid).map fun o => (p.oid, o)

/-- The object whose allocated page holds a fabric address, for an engine request of a number: a page given up after that still
serves it (R329, R339). -/
def objBefore (s : State) (no : Nat) (a : Nat) : Option (Oid × Obj) :=
  (pageAt s a).bind fun p => match p.gone with
    | none => objIn s a
    | some n => if no < n then objIn s a else none

/-- The object whose allocated page holds a fabric address, for new requests (R329, R339). -/
def objAt (s : State) (a : Nat) : Option (Oid × Obj) :=
  (pageAt s a).bind fun p => if p.gone.isSome then none else objIn s a

/-- Page runs that hold pages of an address range. -/
def rangeRuns (s : State) (lo hi : Nat) : List PageRun :=
  if hi < t1Base s then []
  else
    let a := (lo - t1Base s) / 4096
    let b := (hi - t1Base s) / 4096
    s.obj.pages.filter fun r => r.gone.isNone && decide (r.first ≤ b) && decide (a < r.first + r.n)

/-- Whether some page of an address range belongs to a PROT object (R595). -/
def rangeProt (s : State) (lo hi : Nat) : Bool := (rangeRuns s lo hi).any fun r => (objOf s r.oid).any (·.prot)

/-- Whether every page of an address range belongs to PROT objects of a tenant (R595). -/
def rangeSafe (s : State) (ten : TenantId) (lo hi : Nat) : Bool :=
  let a := (lo - t1Base s) / 4096
  let b := (hi - t1Base s) / 4096
  let rs := rangeRuns s lo hi
  decide (t1Base s ≤ lo) && (rs.all fun r => (objOf s r.oid).any fun o => o.prot && o.tenant == ten) &&
    decide ((rs.map fun r => min (r.first + r.n) (b + 1) - max r.first a).sum = b + 1 - a)

/-- A read-only object: sealed or being sealed (R38), or of home tier 2 (R338). -/
def readOnly (o : Obj) : Bool := o.isSealed || o.sealing || o.tier != 1

/-- The composition of an endpoint (R454). -/
def compOf (s : State) (e : Ep) : CompId := tgetD s.lse.epMap e 0

/-- Whether an object's gate turns a requester away (R472). -/
def gated (s : State) (oid : Oid) (src : Ep) : Bool :=
  match tget s.lse.gates oid with
  | some c => compOf s src != c
  | none => false

/-! ### The storage cipher -/

/-- The key that the cipher uses for an object: the tenant's for a PROT object, the media key otherwise, written [] (R585). -/
def objKey (s : State) (o : Obj) : List Byte := if o.prot then tenantKey s o.tenant else []

/-- Line bytes of the aperture as stored, by line number. -/
def lineRaw (s : State) (line : Nat) : List Byte := (List.range 128).map fun k => cellRead s.mem.cells (line * 128 + k)

/-- The storage tweak of a data unit (Table 15.1): its number in the object, the object, and the medium. -/
def tweak (n : Nat) (oid : Oid) (flash : Bool) : BitVec 128 :=
  (0 : BitVec 54) ++ BitVec.ofBool flash ++ oid ++ BitVec.ofNat 33 n

/-- The tweak of a line: its index in the tier-1 range or tier-1 copy of the object whose page it lies on (Table 15.1). -/
def lineTweak (s : State) (line : Nat) : BitVec 128 :=
  match objIn s (t1Base s + 128 * line) with
  | some (oid, o) => tweak ((t1Base s + 128 * line - o.addr) / 128) oid false
  | none => 0

/-- A data unit as the cipher returns it under a key, when it was written under another (R586, R588). -/
def underKey (old new : List Byte) (tw : BitVec 128) (data : List Byte) : List Byte :=
  if old = new then data else (List.range data.length).map (Config.wrongKeyByte old new tw data)

/-- Line bytes as read under a key (R588). -/
def lineView (s : State) (line : Nat) (key : List Byte) : List Byte :=
  match tget s.mem.keyTag line with
  | some k => underKey k key (lineTweak s line) (lineRaw s line)
  | none => lineRaw s line

/-- A run of pages that an object holds and has not given up. -/
def heldRun (oid : Oid) (r : PageRun) : Bool := r.oid == oid && r.gone.isNone

/-- Tier-1 pages of an object, those given up left out. -/
def objPages (s : State) (oid : Oid) : Nat := ((s.obj.pages.filter (heldRun oid)).map (·.n)).sum

/-- The stack granule at a fabric address (R677). DESIGN CHOICE (log entry 15): tier-1 frame k of a stack starts at stack offset 4,096 k;
Table 1.3 gives the regions' sizes and no place. -/
def granuleAt (s : State) (a : Nat) : Option (Quad × Nat) :=
  (pageAt s a).map fun p => (p.stack, p.frame * 64 + (a - t1Base s) % 4096 / 64)

/-- The fabric address of a stack granule, when an allocated page holds it. -/
def granuleAddr (s : State) (q : Quad) (g : Nat) : Option Nat :=
  (s.obj.pages.find? fun r => r.stack == q && decide (r.frame ≤ g / 64) && decide (g / 64 < r.frame + r.n)).map fun r =>
    t1Base s + 4096 * (r.first + (g / 64 - r.frame)) + 64 * (g % 64)

/-- A sticky injection ends at its granules that are written (Table 18.6). -/
def unstick (s : State) (line : Nat) : State :=
  let gs := [granuleAt s (t1Base s + 128 * line), granuleAt s (t1Base s + 128 * line + 64)].filterMap id
  { s with err := { s.err with sticky := s.err.sticky.filter fun x => !gs.contains x } }

/-- A whole line stored under a key. -/
def linePut (s : State) (line : Nat) (key bs : List Byte) : State :=
  let s := if s.err.sticky.isEmpty then s else unstick s line
  { s with mem := { s.mem with
      cells := cellWriteN s.mem.cells (line * 128) (slice bs 0 128)
      keyTag := if key.isEmpty then tdel s.mem.keyTag line else tset s.mem.keyTag line key } }

/-- The 64 bytes of the granule at a fabric address, as stored. -/
def granuleBytes (s : State) (a : Nat) : List Byte := (List.range 64).map fun k => cellRead s.mem.cells (a / 64 * 64 - t1Base s + k)

/-- The code stored beside the granule at a fabric address: an injection that keeps it failing has inverted it (R668, Table 18.6). -/
def storedCode (s : State) (x : Quad × Nat) (a : Nat) : BitVec 16 :=
  let c := stackCode (granuleBytes s a) a
  if s.err.sticky.contains x then ~~~c else c

/-- Whether a granule passes its code. -/
def codePasses (s : State) (x : Quad × Nat) (a : Nat) : Bool := storedCode s x a == stackCode (granuleBytes s a) a

/-- A read that meets a granule whose code an injection keeps failing (Table 18.1): a writable object's line is poisoned; any
other granule is fetched from its home again and written. -/
def stickyRead (s : State) (x : Quad × Nat) : State :=
  match granuleAddr s x.1 x.2 with
  | none => s
  | some a =>
    if codePasses s x a then s
    else match objIn s a with
    | some (_, o) =>
      if readOnly o then { s with err := { s.err with sticky := s.err.sticky.filter fun y => !decide (y = x) } }
      else poisonLine s (lineOf s a)
    | none => s

/-- Byte ranges of tier 1 read: the Blotter's stack entries count the reads of their granules and inject (R680). The re-read of
R669 is then awaited. -/
def readStack (s : State) (rs : List (Nat × Nat)) : State :=
  if !s.err.arm && s.err.sticky.isEmpty then s
  else
    let touched : Quad → Nat → Bool := fun q g => (granuleAddr s q g).any fun a => rs.any fun x =>
      decide (x.1 < a + 64) && decide (a < x.1 + x.2)
    let hit : Blt → Bool := fun b => touched (BitVec.ofNat 2 b.portStack.toNat) b.granule.toNat
    let fired := (s.err.blt.filter fun e => bltActive s e.2 && e.2.kind == 3 && hit e.2 && decide (bltEvery e.2 ≤ e.2.seen + 1)).map fun e =>
      (e.2.action, BitVec.ofNat 2 e.2.portStack.toNat, e.2.granule.toNat)
    let s := (bltEvent s 3 hit).1
    let s := fired.foldl (fun s x =>
      let sticky := if x.1 = 1 then (s.err.sticky.filter fun y => !decide (y = x.2)) ++ [x.2] else s.err.sticky
      { s with err := { s.err with sticky := sticky, rereads := s.err.rereads ++ [(x.2.1, x.2.2, true)] } }) s
    (s.err.sticky.filter fun x => touched x.1 x.2).foldl stickyRead s

/-- The line number at a fabric address. -/
def lineNo (s : State) (a : Addr) : Nat := (a.toNat - t1Base s) / 128

/-- The check of an access to the object of a tier-1 page by a request of a tenant (R329, R591, R594, R472): the first status
that applies. DESIGN CHOICE (log entry 27): a copy that is filling, which serves no reads (R337), answers DENIED. -/
def pageCheck (s : State) (at_ : Option (Oid × Obj)) (t : TenantId) (src : Ep) (gen : BitVec 16) (write : Bool) : Option Status :=
  match at_ with
  | none => some .denied
  | some (oid, o) =>
    if o.tenant != t || (write && readOnly o) || decide (o.t1 = .filling) then some .denied
    else match cipherCheck s t o.prot gen with
      | some st => some st
      | none => if gated s oid src then some .notOwner else none

/-- The check of a new access to a tier-1 page. -/
def t1Check (s : State) (a : Nat) (t : TenantId) (src : Ep) (gen : BitVec 16) (write : Bool) : Option Status :=
  pageCheck s (objAt s a) t src gen write

/-! ### Coherent windows (R144, R418) -/

/-- Whether a window takes part in checks as a coherent one (R144). -/
def cohWindow (s : State) (w : Win) : Bool := winValid w && winCoh w && winTarget w == ownEp s

/-- Whether a window holds a byte address. -/
def winHolds (w : Win) (a : Nat) : Bool := decide (winBase w ≤ a) && decide (a ≤ winLimit w)

/-- The windows of a port that take part in checks, lowest-numbered first; the host interface's only while it is active (R81,
R144, R593). -/
def liveWins (s : State) (p : Port) : List Win :=
  let live : Win → Bool := fun w =>
    winValid w && decide (winBase w ≤ winLimit w) &&
      (!winCoh w || (decide (p ≠ .host) && winTarget w == ownEp s)) && (!winProt w || isOwnEp s (winTarget w))
  if decide (p = .host) && !s.hp.active then []
  else ((List.range 256).filterMap fun k => tget s.ing.wins (p, BitVec.ofNat 8 k)).filter live

/-- The window that decides an access at a byte address (R78). -/
def winFor (ws : List Win) (a : Nat) : Option Win := ws.find? fun w => winHolds w a

/-- Whether an address lies in a coherent window of some port of this device. -/
def inCohWindow (s : State) (a : Nat) : Bool :=
  s.ing.wins.any fun e => (match e.1.1 with
    | .lane _ => true
    | _ => false) && cohWindow s e.2 && winHolds e.2 a

/-! ### The drydown buffer -/

/-- Bytes of a buffer record: 144 for a line, 80 for a descriptor (Table 10.1). -/
def recSize (r : DryRec) : Nat := if r.desc.isSome then 80 else 144

/-- Live bytes of the buffer. -/
def dryUsed (s : State) : Nat := ((s.dry.buf.filter (·.live)).map recSize).sum

/-- Live records with some killed (R423). -/
def killRecs (s : State) (p : DryRec → Bool) : State :=
  { s with dry := { s.dry with buf := s.dry.buf.map fun r => if p r then { r with live := false } else r } }

/-- A live descriptor record of an object. -/
def hasDesc (s : State) (oid : Oid) : Bool := s.dry.buf.any fun r => r.live && r.oid == oid && r.desc.isSome

/-- A live line record of a line of an object. -/
def hasLineRec (s : State) (oid : Oid) (line : Nat) : Bool :=
  s.dry.buf.any fun r => r.live && r.oid == oid && r.desc.isNone && r.line == line

/-- Live bytes after a line record is appended (R421, R423): a descriptor goes first when the object has none (R420). -/
def dryAfter (s : State) (oid : Oid) (line : Nat) : Nat :=
  dryUsed s + (if hasLineRec s oid line then 0 else 144) + (if oid = 0 || hasDesc s oid then 0 else 80)

/-- The limit in force, as durable requests meet it (R421, R431). -/
def dryRoom (s : State) (oid : Oid) (line : Nat) : Bool := decide (dryAfter s oid line ≤ s.dry.limit)

/-- EXPOSED follows the live bytes and the limit (R431). -/
def dryExposed (s : State) : State :=
  if decide (s.dry.limit < dryUsed s) then
    let a := if s.dry.exposed then s else setAlert s alertHoldup
    { a with dry := { a.dry with exposed := true } }
  else { s with dry := { s.dry with exposed := false } }

/-- A descriptor record appended; earlier ones of the object become dead (R420, R423). -/
def dryDesc (s : State) (oid : Oid) (o : Obj) : State :=
  let s := killRecs s fun r => r.oid == oid && r.desc.isSome
  { s with dry := { s.dry with buf := s.dry.buf ++ [⟨oid, 0, some o, o.tenant, [], [], true, false⟩] } }

/-- A line record appended to both copies, the descriptor record before it when the object has none (R419, R420, R423). -/
def dryLine (s : State) (oid : Oid) (line : Nat) (t : TenantId) (bs : List Byte) : State :=
  let s := match tget s.obj.tab oid with
    | some o => if hasDesc s oid then s else dryDesc s oid o
    | none => s
  let s := killRecs s fun r => r.oid == oid && r.desc.isNone && r.line == line
  let key := match tget s.obj.tab oid with
    | some o => objKey s o
    | none => []
  dryExposed { s with dry := { s.dry with buf := s.dry.buf ++ [⟨oid, line, none, t, bs, key, true, false⟩] } }

/-- What R418, R421 and R422 answer a request with DUR = 1 at a tier-1 address of a writable object; none: it is honoured. -/
def durCheck (s : State) (a : Nat) (oid : Oid) (o : Obj) : Option Status :=
  if o.tier != 1 || o.isSealed || o.sealing || inCohWindow s a then some .denied
  else if !s.dry.armed then some .retry
  else if !dryRoom s oid ((a - o.addr) / 128) then some .noSlot
  else none

/-! ### Line operations on tier 1 (R65 to R75) -/

/-- A request's line mask: every byte, or the mask that leads the payload (R66). -/
def lineMask (f : Req) (i : Nat) : Bool := !f.bep || (byteAt f.payload (i / 8)).getLsbD (i % 8)

/-- The line bytes of a line write. -/
def lineData (f : Req) (i : Nat) : Byte := byteAt f.payload (i + if f.bep then 16 else 0)

/-- The 128 bytes a line write leaves over the old ones (R66). -/
def lineMerge (f : Req) (old : List Byte) : List Byte :=
  (List.range 128).map fun i => if lineMask f i then lineData f i else byteAt old i

/-- A line write that replaces all 128 bytes (R670). -/
def lineWhole (f : Req) : Bool := (List.range 128).all (lineMask f)

/-- A signed reading of a `w`-bit number. -/
def signedOf (w v : Nat) : Int := if v < 2 ^ (w - 1) then (v : Int) else (v : Int) - 2 ^ w

/-- What memory becomes under an atomic (Table 2.4, R73); `w` is the width in bits, `a` the operand or comparand, `b` the
swap value of ATOM_CAS. -/
def atomNew (op : BitVec 8) (sub : BitVec 4) (w old a b : Nat) : Nat :=
  if op = Op.atomAdd then (old + a) % 2 ^ w
  else if op = Op.atomLogic then (if sub = 0 then Nat.land old a else if sub = 1 then Nat.lor old a else Nat.xor old a)
  else if op = Op.atomSwap then a
  else if op = Op.atomCas then (if old = a then b else old)
  else
    let so := signedOf w old
    let sa := signedOf w a
    if sub = 0 then (if so ≤ sa then old else a)
    else if sub = 1 then (if sa ≤ so then old else a)
    else if sub = 2 then min old a else max old a

/-- The first operand of an atomic (R71). -/
def atomArg (f : Req) : Nat := leAt f.payload 0 (oszBytes f.osz)

/-- The old value an atomic finds in a line. -/
def atomOld (f : Req) (line : List Byte) : Nat := leAt line (f.addr.toNat % 128) (oszBytes f.osz)

/-- The line an atomic leaves (Table 2.4). -/
def atomLine (f : Req) (line : List Byte) : List Byte :=
  let w := oszBytes f.osz
  let new := atomNew f.opcode f.subop (8 * w) (atomOld f line) (atomArg f) (leAt f.payload w w)
  let k := f.addr.toNat % 128
  (List.range 128).map fun i => if k ≤ i && decide (i < k + w) then byteAt (leBytes new w) (i - k) else byteAt line i

/-- The 16 completion bytes of an atomic: the old value, then zeros (R74). -/
def atomAnswer (f : Req) (old : Nat) : List Byte := slice (leBytes old (oszBytes f.osz)) 0 16

/-- What a request on tier 1 answers: a status, the data, and DURA. -/
structure Done where
  st : Status
  data : List Byte
  dura : Bool
deriving DecidableEq, Repr

/-- A POISON answer: the data length of the opcode, its bytes unspecified (R671). -/
def poisonAnswer (s : State) (f : Req) : State × Done :=
  let n := if f.opcode == Op.rdLine then 128 else if opAtomic f.opcode then 16 else 0
  (takeFree s n, ⟨.poison, freeBytes s n, false⟩)

/-- The store of a line write or atomic on tier 1, with its durable record (R419, R670). -/
def t1Store (s : State) (f : Req) (oid : Oid) (o : Obj) (bs : List Byte) : State :=
  let s := linePut s (lineNo s f.addr) (objKey s o) bs
  let s := if opLineWrite f.opcode && lineWhole f then unpoison s (lineNo s f.addr) else s
  if f.dur then dryLine s oid ((f.addr.toNat - o.addr) / 128) o.tenant bs else s

/-- A line or atomic request executed on tier 1 (R65 to R75, R162, R329, R418 to R422, R591, R594, R670, R671). -/
def t1Run (s : State) (e : EReq) : State × Done :=
  let f := e.f
  let write := f.opcode != Op.rdLine
  let no : Status → State × Done := fun st => (s, ⟨st, [], false⟩)
  match objAt s f.addr.toNat with
  | none => no .denied
  | some (oid, o) =>
    let chk := t1Check s f.addr.toNat f.tenant f.src e.gen write
    let dur := if f.dur then (if write then durCheck s f.addr.toNat oid o else some .denied) else none
    match chk, dur with
    | some a, some b => no (statusFirst a b)
    | some a, none => no a
    | none, some b =>
      if b = .noSlot then ({ s with dry := { s.dry with refuse := satInc 32 s.dry.refuse } }, ⟨b, [], false⟩) else no b
    | none, none =>
      let s := if opLineWrite f.opcode then s else readStack s [(f.addr.toNat / 128 * 128, 128)]
      let old := lineView s (lineNo s f.addr) (objKey s o)
      let bad := isPoisoned s (lineNo s f.addr)
      if f.opcode == Op.rdLine then (if bad then poisonAnswer s f else (s, ⟨.ok, old, false⟩))
      else if opLineWrite f.opcode then
        if bad && f.dur && !lineWhole f then poisonAnswer s f
        else (t1Store s f oid o (lineMerge f old), ⟨.ok, [], f.dur⟩)
      else if bad then poisonAnswer s f
      else (t1Store s f oid o (atomLine f old), ⟨.ok, atomAnswer f (atomOld f old), f.dur⟩)

/-- The completion of a request from what tier 1 answered (R60, R671). -/
def doneCpl (f : Req) (d : Done) : Cpl := { mkCpl f f.dst d.st d.data with dura := d.dura }

end Sys2Proof.Machine
end

