-- ==== Sys2Proof/Machine/Sib.lean ====
section
/-! DEFINITION. Scaled integer blocks: layouts (R176 to R178), rounding and saturation (R179, R180), accumulation (R181 to
R184), dot products (R185, R186), requantization (R187), raw reductions (Table 5.6), and zero-skip blocks (R301 to R305). -/

namespace Sys2Proof.Machine

/-! ### Elements and blocks -/

/-- Bits of an element (Table 4.5). -/
def elemBits (etype : Nat) : Nat := 4 * 2 ^ etype

/-- Element `i` of packed element bytes (R177). -/
def elemAt (etype : Nat) (bs : List Byte) (i : Nat) : Int :=
  if etype = 0 then signedOf4 (bitsOf (byteAt bs (i / 2)).toNat (4 * (i % 2)) 4)
  else sleAt bs (i * 2 ^ (etype - 1)) (2 ^ (etype - 1))
where
  /-- A 4-bit two's complement number. -/
  signedOf4 (v : Nat) : Int := if v < 8 then (v : Int) else (v : Int) - 16

/-- Elements as packed bytes (R177). -/
def packElems (etype : Nat) (es : List Int) : List Byte :=
  let m : Int → Nat := fun e => (e % (2 ^ elemBits etype : Nat)).toNat
  if etype = 0 then
    (List.range (ceilDiv es.length 2)).map fun i =>
      BitVec.ofNat 8 (m (es.getD (2 * i) 0) + 16 * m (es.getD (2 * i + 1) 0))
  else (es.map fun e => leBytes (m e) (2 ^ (etype - 1))).flatten

/-- A SIB block: 32 elements and an exponent (R176). -/
structure Sib where
  es : List Int
  exp : Int
deriving DecidableEq, Repr

/-- The block of zeros with exponent −128 (R183, R262). -/
def Sib.zero : Sib := ⟨List.replicate 32 0, -128⟩

/-- The block of packed element bytes and an exponent byte. -/
def sibOf (etype : Nat) (elems : List Byte) (exp : Byte) : Sib :=
  ⟨(List.range 32).map (elemAt etype elems), exp.toInt⟩

/-- An exponent byte. -/
def expByte (x : Int) : Byte := BitVec.ofInt 8 x

/-- The interleaved bytes of a block (R178). -/
def sibBytes (etype : Nat) (b : Sib) : List Byte := expByte b.exp :: packElems etype b.es

/-! ### Rounding and saturation -/

/-- rne(v, s): a right shift rounded to nearest, ties to even (R179). -/
def rne (v : Int) (s : Nat) : Int :=
  if s = 0 then v
  else if 32 ≤ s then 0
  else
    let d : Int := (2 ^ s : Nat)
    let q := v.fdiv d
    let r := v - q * d
    if d < 2 * r || (2 * r == d && q % 2 == 1) then q + 1 else q

/-- An int32 result and its saturation event (R180). -/
def sat32 (v : Int) : Int × Nat :=
  if v < -2147483648 then (-2147483648, 1) else if 2147483647 < v then (2147483647, 1) else (v, 0)

/-- Lanes saturated one by one, with the events. -/
def sat32All (vs : List Int) : List Int × Nat := (vs.map fun v => (sat32 v).1, (vs.map fun v => (sat32 v).2).sum)

/-! ### Accumulation -/

/-- An accumulator block: lanes and exponent, empty at first, and the saturation events so far (R181). -/
structure AccBlk where
  lanes : List Int
  exp : Option Int
  sat : Nat
deriving DecidableEq, Repr

/-- The empty accumulator. -/
def AccBlk.empty : AccBlk := ⟨[], none, 0⟩

/-- Lanes and a block at one exponent: the finer is rounded to the coarser (R182). -/
def alignLanes (lanes : List Int) (xa : Int) (es : List Int) (x : Int) : List Int × List Int × Int :=
  if xa < x then (lanes.map fun l => rne l (x - xa).toNat, es, x) else (lanes, es.map fun e => rne e (xa - x).toNat, xa)

/-- A block added for SUM (R181, R182). -/
def accSum (a : AccBlk) (b : Sib) : AccBlk :=
  if b.es.all (· == 0) then a
  else match a.exp with
    | none => { a with lanes := b.es, exp := some b.exp }
    | some xa =>
      let (ls, es, x) := alignLanes a.lanes xa b.es b.exp
      let r := sat32All (List.zipWith (· + ·) ls es)
      { lanes := r.1, exp := some x, sat := a.sat + r.2 }

/-- A block added for MAX or MIN (Table 5.6). -/
def accExtreme (pick : Int → Int → Int) (a : AccBlk) (b : Sib) : AccBlk :=
  let allZero := b.es.all (· == 0)
  match a.exp with
  | none => { a with lanes := b.es, exp := some (if allZero then -128 else b.exp) }
  | some xa =>
    let (ls, es, x) := alignLanes a.lanes xa b.es (if allZero then xa else b.exp)
    { a with lanes := List.zipWith pick ls es, exp := some x }

/-- A block added under an operation of Table 5.6. -/
def accAdd (op : BitVec 4) (a : AccBlk) (b : Sib) : AccBlk :=
  if op = 1 then accExtreme max a b else if op = 2 then accExtreme min a b else accSum a b

/-- Raw bytes combined under an operation of Table 5.6. -/
def rawAdd (op : BitVec 4) (a b : List Byte) : List Byte :=
  if op = 8 then
    ((List.range (a.length / 4)).map fun k => leBytes (leAt a (4 * k) 4 + leAt b (4 * k) 4) 4).flatten
  else List.zipWith (fun x y => if op = 9 then x &&& y else if op = 10 then x ||| y else x ^^^ y) a b

/-! ### Requantization (R187) -/

/-- The least element of a type. -/
def elemMin (etype : Nat) : Int := -(2 ^ (elemBits etype - 1) : Nat)
/-- The greatest element of a type. -/
def elemMax (etype : Nat) : Int := (2 ^ (elemBits etype - 1) : Nat) - 1

/-- The least shift that brings every lane into the range of a type. -/
def requantShift (etype : Nat) (lanes : List Int) : Nat :=
  ((List.range 33).find? fun s => lanes.all fun l => decide (elemMin etype ≤ rne l s) && decide (rne l s ≤ elemMax etype)).getD 32

/-- The output block of an accumulator, and the lanes clamped (R183, R187). -/
def requant (etype : Nat) (lanes : List Int) (exp : Option Int) : Sib × Nat :=
  match exp with
  | none => (Sib.zero, 0)
  | some x =>
    let s := requantShift etype lanes
    if x + s ≤ 127 then (⟨lanes.map fun l => rne l s, x + s⟩, 0)
    else
      let vs := lanes.map fun l => rne l (127 - x).toNat
      (⟨vs.map fun v => max (elemMin etype) (min (elemMax etype) v), 127⟩,
        (vs.filter fun v => decide (v < elemMin etype) || decide (elemMax etype < v)).length)

/-- A block converted to another type: narrowed under R187, or kept as it is when it fits (R294, R354). -/
def convertBlock (etype : Nat) (b : Sib) : Sib × Nat := requant etype b.es (some b.exp)

/-! ### Scores (R185 to R187, R288) -/

/-- The dot product of two blocks in int32, step by step, with its saturation events (R185). -/
def dotBlock (q k : Sib) : Int × Nat :=
  (List.zipWith (· * ·) q.es k.es).foldl (fun a p => let r := sat32 (a.1 + p); (r.1, a.2 + r.2)) (0, 0)

/-- A score in progress: the sum and exponent, if any block was not zero, and the events. -/
structure ScoreAcc where
  val : Int
  exp : Option Int
  sat : Nat
deriving DecidableEq, Repr

/-- A block dot product combined under R181 and R182 (R186). -/
def scoreAdd (a : ScoreAcc) (q k : Sib) : ScoreAcc :=
  let d := dotBlock q k
  let x := q.exp + k.exp
  if d.1 = 0 then { a with sat := a.sat + d.2 }
  else match a.exp with
    | none => { val := d.1, exp := some x, sat := a.sat + d.2 }
    | some xa =>
      let (ls, es, y) := alignLanes [a.val] xa [d.1] x
      let r := sat32 (ls.getD 0 0 + es.getD 0 0)
      { val := r.1, exp := some y, sat := a.sat + d.2 + r.2 }

/-- The score of a position, its exponent, and the events (R287). -/
def scoreOf (qs ks : List Sib) : Int × Int × Nat :=
  let a := (qs.zip ks).foldl (fun a x => scoreAdd a x.1 x.2) (⟨0, none, 0⟩ : ScoreAcc)
  match a.exp with
  | none => (0, -256, a.sat)
  | some x => (a.val, x, a.sat)

/-- Whether one score is greater than another, by exact value (R288). -/
def scoreGt (a b : Scored) : Bool :=
  let lo := min a.exp b.exp
  decide (b.score * (2 ^ (b.exp - lo).toNat : Nat) < a.score * (2 ^ (a.exp - lo).toNat : Nat))

/-- Whether a position ranks above another (R288). -/
def ranksAbove (a b : Scored) : Bool := scoreGt a b || (!scoreGt b a && decide (a.pos < b.pos))

/-- A position put in its place of a ranked list of at most `k` (R293). -/
def rankInsert (k : Nat) (x : Scored) : List Scored → List Scored
  | [] => if k = 0 then [] else [x]
  | y :: l => if k = 0 then [] else if ranksAbove x y then x :: (y :: l).take (k - 1) else y :: rankInsert (k - 1) x l

/-! ### Zero-skip blocks (R301 to R305, Table 7.5) -/

/-- Value bytes of a block (R302). -/
def zskValueBytes (etype nnz : Nat) : Nat := if etype = 0 then ceilDiv nnz 2 else nnz * 2 ^ (etype - 1)

/-- Bit i of a block's bitmap. -/
def zskBit (b : List Byte) (i : Nat) : Bool := (byteAt b (8 + i / 8)).getLsbD (i % 8)

/-- The bitmap's population. -/
def zskPopulation (b : List Byte) : Nat := ((List.range 256).filter (zskBit b)).length

/-- NNZ of a block. -/
def zskNnz (b : List Byte) : Nat := leAt b 2 2
/-- BLEN of a block. -/
def zskBlen (b : List Byte) : Nat := leAt b 4 2

/-- Checks 3 to 8 of Table 7.5 on the bytes of a block. -/
def zskBlockOk (etype : Nat) (b : List Byte) : Bool :=
  let v := zskValueBytes etype (zskNnz b)
  leAt b 0 1 == etype && leAt b 1 1 == 0 && leAt b 6 2 == 0 && decide (zskNnz b ≤ 256) && decide (3 ≤ zskBlen b) &&
    decide (zskBlen b ≤ 35) && zskPopulation b == zskNnz b && decide (48 + v ≤ zskBlen b * 16) &&
    zskBlen b == ceilDiv (48 + v) 16 && zerosAt b (48 + v) (zskBlen b * 16 - (48 + v)) &&
    (!(etype == 0 && zskNnz b % 2 == 1) || bitsOf (byteAt b (48 + v - 1)).toNat 4 4 == 0)

/-- The 256 elements of a block (R303). -/
def zskElems (etype : Nat) (b : List Byte) : List Int :=
  ((List.range 256).foldl (fun (a : List Int × Nat) i =>
    if zskBit b i then (a.1 ++ [elemAt etype (b.drop 48) a.2], a.2 + 1) else (a.1 ++ [0], a.2)) ([], 0)).1

/-- The eight SIB blocks of a zero-skip block (R303). -/
def zskExpand (etype : Nat) (b : List Byte) : List Sib :=
  let es := zskElems etype b
  (List.range 8).map fun j => ⟨(es.drop (32 * j)).take 32, (byteAt b (40 + j)).toInt⟩

end Sys2Proof.Machine
end

