-- ==== Sys2Proof/Machine/EngData.lean ====
section
/-! DEFINITION. The data work of engine requests: reading and writing memory for a request (R190, R212, R591, R594), and what
each operation's portion reads and writes (R206, R260 to R262, R270 to R277, R283 to R290, R307 to R313). -/

namespace Sys2Proof.Machine

/-! ### Memory as a request reads and writes it -/

/-- A tier-1 byte as the cipher returns it for its object. -/
def t1View (s : State) (a : Nat) : Byte :=
  match objIn s a with
  | some (_, o) => byteAt (lineView s (lineOf s a) (objKey s o)) ((a - t1Base s) % 128)
  | none => memByte s a

/-- Where the stream of an expanding copy begins for the device's own EXPAND: outside the aperture. -/
def ownBase (s : State) : Nat := if t1Base s = 0 then 2 ^ 39 else 0

/-- The filling copy or replica of an object. -/
def fillOf (s : State) (oid : Oid) (t0 : Bool) : Option Fill := s.obj.fills.find? fun x => x.oid == oid && x.t0 == t0

/-- A byte of an object that a filling copy has fetched. -/
def fillByte (s : State) (oid : Oid) (i : Nat) : Option Byte :=
  ((fillOf s oid false).bind fun x => tget x.got (i / 16384)).map fun bs => byteAt bs (i % 16384)

/-- The byte that stands at an address for a request, when it is at hand: returned by a device frame or a re-read, fetched for an
expanding copy, or in tier 1 (R190, R311, R320). -/
def engHas (s : State) (r : EngReq) (a : Nat) : Option Byte :=
  match tget r.staged a with
  | some b => some b
  | none =>
    match r.own with
    | some oid => fillByte s oid (a - ownBase s)
    | none => if inT1 s a then some (t1View s a) else none

/-- The byte a request reads at an address. -/
def engByte (s : State) (r : EngReq) (a : Nat) : Byte := (engHas s r a).getD 0

/-- The object of a page for a request in flight: one given up after its acceptance still serves it (R339). -/
def objFor (s : State) (r : EngReq) (a : Nat) : Option (Oid × Obj) :=
  objBefore s r.no a

/-- Whether every byte of a run can be read. -/
def runReady (s : State) (r : EngReq) (x : Nat × Nat) : Bool := (List.range x.2).all fun k => (engHas s r (x.1 + k)).isSome

/-- The tier-1 lines a run touches, by the fabric address of a byte of each. -/
def runLines (s : State) (x : Nat × Nat) : List Nat :=
  if x.2 = 0 then []
  else ((List.range ((x.1 + x.2 - 1) / 128 + 1 - x.1 / 128)).map fun k => max x.1 ((x.1 / 128 + k) * 128)).filter fun a => inT1 s a

/-- The first in the order of R22 of the statuses that apply. -/
def firstOf (l : List Status) : Option Status :=
  l.foldl (fun a st => some (match a with
    | some b => statusFirst b st
    | none => st)) none

/-- What refuses a run of tier-1 bytes read for a request; a marked line that no device frame or re-read replaced is POISON, but
not for bytes that come from tier 0 (`t0`) (R329, R337, R472, R591, R594, R671). -/
def runReadCheck (s : State) (r : EngReq) (t0 : Bool) (x : Nat × Nat) : Option Status :=
  let one : Nat → Option Status := fun a =>
    match pageCheck s (objFor s r a) r.f.tenant r.f.src r.gen false with
    | some st => some st
    | none => if !t0 && isPoisoned s (lineOf s a) && (tget r.staged a).isNone then some .poison else none
  firstOf ((runLines s x).filterMap one)

/-- What refuses a run of tier-1 bytes written for a request; the device's own EXPAND fills a read-only copy (R311, R337). -/
def runWriteCheck (s : State) (r : EngReq) (x : Nat × Nat) : Option Status :=
  firstOf ((runLines s x).filterMap fun a =>
    if r.own.isSome then (objFor s r a).bind fun o => cipherCheck s r.f.tenant o.2.prot r.gen
    else pageCheck s (objFor s r a) r.f.tenant r.f.src r.gen true)

/-- The bytes of a line that a write covers, over the old ones. -/
def overlay (old : List Byte) (off : Nat) (bs : List Byte) : List Byte :=
  (List.range 128).map fun i => if off ≤ i && decide (i < off + bs.length) then byteAt bs (i - off) else byteAt old i

/-- Bytes written into tier 1 line by line, each under its object's key; a line wholly written loses its mark (R670). -/
def t1Write : Nat → Nat → List Byte → State → State
  | 0, _, _, s => s
  | n + 1, a, bs, s =>
    if bs.isEmpty then s
    else
      let off := (a - t1Base s) % 128
      let k := min (128 - off) bs.length
      let line := lineOf s a
      let key := match objIn s a with
        | some (_, o) => objKey s o
        | none => []
      let s' := linePut s line key (overlay (lineView s line key) off (bs.take k))
      t1Write n (a + k) (bs.drop k) (if k = 128 then unpoison s' line else s')

/-- The header of a device frame for a request: its TENANT and EPOCH, and CHK = 1 (R190). -/
def devHead (f : Req) : DevHead := ⟨f.src, f.tag, f.tenant, f.epoch, true⟩

/-- A device frame sent (R190). -/
def sendFar (s : State) (f : Req) (x : FarFrame) : State :=
  emit s (match x.data with
    | some bs => .devWrite (devHead f) (BitVec.ofNat 58 x.a) bs
    | none => .devRead (devHead f) (BitVec.ofNat 58 x.a) x.n)

/-- One run written for a request: into tier 1 once its pages allow it, else by a device frame, which the request then awaits
(R190, R212). -/
def engWrite (s : State) (r : EngReq) (x : Nat × List Byte) : State × EngReq × Option Status :=
  if x.2.isEmpty then (s, r, none)
  else match runWriteCheck s r (x.1, x.2.length) with
    | some st => (s, r, some st)
    | none =>
      if inT1 s x.1 then (t1Write (x.2.length + 1) x.1 x.2 s, r, none)
      else
        let w : FarFrame := ⟨x.1, x.2.length, some x.2⟩
        (sendFar s r.f w, { r with frames := r.frames ++ [w] }, none)

/-- Runs written in order until one is refused; what was written stays (R212). -/
def engWrites (s : State) (r : EngReq) : List (Nat × List Byte) → State × EngReq × Option Status
  | [] => (s, r, none)
  | x :: xs =>
    match engWrite s r x with
    | (s, r, none) => engWrites s r xs
    | (s, r, some st) => (s, r, some st)

/-- The first status that applies of several runs (R22). -/
def runsCheck (s : State) (r : EngReq) (t0 : Bool) (xs : List (Nat × Nat)) : Option Status := firstOf (xs.filterMap (runReadCheck s r t0))

/-- A frame that a device frame's answer belongs to, and whether it wrote. -/
def frameAt (l : List FarFrame) (a : Nat) : Option FarFrame := l.find? fun x => x.a == a

/-- The frame gone from those outstanding. -/
def frameDone (l : List FarFrame) (a : Nat) : List FarFrame := eraseFirst (fun x => x.a == a) l

/-- Statuses that a device frame, a line request, may be answered with beside OK and RETRY (Table 2.12). -/
def farEnds (st : Status) : Bool := [Status.denied, .revoked, .notOwner, .remap, .pathLost, .poison, .aborted].contains st

/-- Bytes of a run. -/
def runBytes (rd : Nat → Byte) (x : Nat × Nat) : List Byte := (List.range x.2).map fun k => rd (x.1 + k)

/-! ### Tensors by rows and pieces (R196, R197) -/

/-- A stretch of one row: its first SIB block or raw byte, and their number. -/
structure Piece where
  row : Nat
  off : Nat
  n : Nat
deriving DecidableEq, Repr

/-- The byte at which a row begins, dimension 1 innermost of the outer ones. -/
def rowAddr (t : Tensor) (row : Nat) : Nat :=
  ((outerDims t).foldl (fun (a : Int × Nat) k =>
    (a.1 + strideOf t k * ((a.2 % dimOf t k : Nat) : Int), a.2 / dimOf t k)) ((t.base : Int), row)).1.toNat

/-- SIB blocks, or raw bytes, of a row. -/
def rowUnits (t : Tensor) : Nat := if t.etype = 3 then dimOf t 0 else dimOf t 0 / 32

/-- Bytes of one SIB block in the element range of a layout. -/
def unitBytes (t : Tensor) : Nat := if t.etype = 3 then 1 else blockElemBytes t.etype + bit (!t.planar)

/-- The runs of bytes a piece occupies: elements, and exponents when planar. -/
def pieceRuns (t : Tensor) (p : Piece) : List (Nat × Nat) :=
  (rowAddr t p.row + p.off * unitBytes t, p.n * unitBytes t) ::
    if t.planar then [(t.expAddr + p.row * rowUnits t + p.off, p.n)] else []

/-- The SIB blocks of a piece. -/
def pieceSibs (rd : Nat → Byte) (t : Tensor) (p : Piece) : List Sib :=
  (List.range p.n).map fun k =>
    let a := rowAddr t p.row + (p.off + k) * unitBytes t
    let eb := blockElemBytes t.etype
    if t.planar then sibOf t.etype (runBytes rd (a, eb)) (rd (t.expAddr + p.row * rowUnits t + p.off + k))
    else sibOf t.etype (runBytes rd (a + 1, eb)) (rd a)

/-- The writes that put SIB blocks into a piece. -/
def pieceWrite (t : Tensor) (p : Piece) (bs : List Sib) : List (Nat × List Byte) :=
  let a := rowAddr t p.row + p.off * unitBytes t
  if t.planar then
    [(a, (bs.map fun b => packElems t.etype b.es).flatten), (t.expAddr + p.row * rowUnits t + p.off, bs.map fun b => expByte b.exp)]
  else [(a, (bs.map (sibBytes t.etype)).flatten)]

/-- The pieces of a range of indices of the outermost dimension; of a rank-1 tensor, those whose first element lies there. -/
def outerPieces (t : Tensor) (first n : Nat) : List Piece :=
  if t.rank = 1 then
    (if t.etype = 3 then [⟨0, first, n⟩] else
      let lo := ceilDiv first 32
      [⟨0, lo, ceilDiv (first + n) 32 - lo⟩])
  else
    let per := rowCount t / dimOf t (t.rank - 1)
    (List.range (n * per)).map fun k => ⟨first * per + k, 0, rowUnits t⟩

/-- The source and destination descriptors, and the index descriptor. -/
def srcTensor (f : Req) : Tensor :=
  tensorAt f.payload (if f.opcode = Op.filter then 288 else if f.opcode = Op.scoreSel then 32 else 16)
def dstTensor (f : Req) : Tensor := tensorAt f.payload (if f.opcode = Op.filter then 384 else 112)
def idxTensor (f : Req) : Tensor := tensorAt f.payload 208

/-- An index of an index list (R261). -/
def indexAt (rd : Nat → Byte) (f : Req) (i : Nat) : Nat := leAt (runBytes rd ((idxTensor f).base + 4 * i, 4)) 0 4

/-- Where a piece of a request's source goes: the source piece, none for a row out of range, and the destination piece. -/
abbrev Move := Option Piece × Piece

/-- The moves of a portion of a GATHER or SCATTER: DIRECT by outer indices, INDEXED by entries of the index list (R260 to
R262, R265). `src` may be the alternate. -/
def gsMoves (rd : Nat → Byte) (f : Req) (src dst : Tensor) (first n : Nat) : List Move :=
  if f.subop = 0 then (outerPieces dst first n).map fun p => (some p, p)
  else
    let o := src.rank - 1
    (List.range n).flatMap fun k =>
      let i := first + k
      let x := indexAt rd f i
      if f.opcode = Op.gather then
        (outerPieces dst i 1).zipIdx.map fun (p, j) =>
          (if x < dimOf src o then (outerPieces src x 1)[j]? else none, p)
      else if x < dimOf dst o then
        (outerPieces src i 1).zipIdx.filterMap fun (p, j) => ((outerPieces dst x 1)[j]?).map fun q => (some p, q)
      else []

/-- Out-of-range indices of a portion (R262). -/
def gsOut (rd : Nat → Byte) (f : Req) (src dst : Tensor) (first n : Nat) : Nat :=
  if f.subop = 0 then 0
  else
    let t := if f.opcode = Op.gather then src else dst
    ((List.range n).filter fun k => decide (dimOf t (t.rank - 1) ≤ indexAt rd f (first + k))).length

/-! ### Zero-skip streams (R304, R307, R318) -/

/-- First byte of the block data. -/
def zskData (t : Tensor) : Nat := t.base + 32 + 16 * ceilDiv (zskGroups t) 2
/-- Index entry of a group. -/
def zskEntry (rd : Nat → Byte) (t : Tensor) (g : Nat) : Nat := leAt (runBytes rd (t.base + 32 + 8 * g, 8)) 0 8

/-- DATA_BYTES of the header, within the range of R308. -/
def zskSize (rd : Nat → Byte) (t : Tensor) : Nat := min (leAt (runBytes rd (t.base + 16, 8)) 0 8) (zskBlocks t * zskCmax t.etype)

/-- Where a group begins in the block data, within DATA_BYTES; past the last group, where the data end. -/
def zskStart (rd : Nat → Byte) (t : Tensor) (g : Nat) : Nat :=
  if g < zskGroups t then min (zskEntry rd t g) (zskSize rd t) else zskSize rd t

/-- A block's length by its BLEN, as far as one can reach (R301). -/
def zskLen (b : List Byte) : Nat := 16 * min 35 (max 3 (zskBlen b))

/-- Offset of a block in the block data: its group's entry and the blocks before it in the group. -/
def zskOffset (rd : Nat → Byte) (t : Tensor) (b : Nat) : Nat :=
  (List.range (b % 64)).foldl (fun a _ => a + zskLen (runBytes rd (zskData t + a, 6))) (zskStart rd t (b / 64))

/-- The bytes of a block, as far as the largest block reaches. -/
def zskBlockAt (rd : Nat → Byte) (t : Tensor) (b : Nat) : List Byte := runBytes rd (zskData t + zskOffset rd t b, 560)

/-- Check 1 of Table 7.5: the header. -/
def zskHeaderOk (rd : Nat → Byte) (t : Tensor) : Bool :=
  let h := runBytes rd (t.base, 32)
  leAt h 0 1 == t.etype && zerosAt h 1 7 && leAt h 8 8 == zskBlocks t && bitsOf (leAt h 16 8) 40 24 == 0 &&
    decide (leAt h 16 8 ≤ zskBlocks t * zskCmax t.etype) && zerosAt h 24 8

/-- Check 2: the index. -/
def zskIndexOk (rd : Nat → Byte) (t : Tensor) : Bool :=
  zskEntry rd t 0 == 0 && ((List.range (zskGroups t)).all fun k =>
    zskEntry rd t k % 16 == 0 && (k == 0 || decide (zskEntry rd t (k - 1) < zskEntry rd t k)))

/-- The failing one of checks 1 and 2, the first in order. -/
def zskHeadFails (rd : Nat → Byte) (t : Tensor) : Option ZskItem :=
  if !zskHeaderOk rd t then some .header else if !zskIndexOk rd t then some .index else none

/-- Whether a block is the last of its group. -/
def zskLast (t : Tensor) (b : Nat) : Bool := b % 64 == 63 || b + 1 == zskBlocks t

/-- Check 9: a group's last block ends where the next entry, or DATA_BYTES, says; `stop` is where it ends. -/
def zskGroupOk (rd : Nat → Byte) (t : Tensor) (b stop : Nat) : Bool := !zskLast t b || stop == zskStart rd t (b / 64 + 1)

/-- What fails of a block of Table 7.5, at its place in the stream (checks 3 to 9). -/
def zskBlockFails (rd : Nat → Byte) (t : Tensor) (b : Nat) : Option ZskItem :=
  let bs := zskBlockAt rd t b
  if !zskBlockOk t.etype bs then some (.block b)
  else if !zskGroupOk rd t b (zskOffset rd t b + zskLen bs) then some (.group (b / 64))
  else none

/-- Where an item of a stream stands, and its length as far as the stream's header and index say (R320). -/
def zskItemRun (rd : Nat → Byte) (t : Tensor) : ZskItem → Nat × Nat
  | .header => (t.base, 32)
  | .index => (t.base + 32, 16 * ceilDiv (zskGroups t) 2)
  | .block b => (zskData t + zskOffset rd t b, 560)
  | .group g => (zskData t + zskStart rd t g, zskStart rd t (g + 1) - zskStart rd t g)

/-- Whether an item passes its checks. -/
def zskItemOk (rd : Nat → Byte) (t : Tensor) : ZskItem → Bool
  | .header => zskHeaderOk rd t
  | .index => zskIndexOk rd t
  | .block b => zskBlockOk t.etype (zskBlockAt rd t b)
  | .group g => (List.range (min 64 (zskBlocks t - 64 * g))).all fun k => (zskBlockFails rd t (64 * g + k)).isNone

/-- The SIB blocks of a piece of an expanded tensor. -/
def zskPieceSibs (rd : Nat → Byte) (t : Tensor) (p : Piece) : List Sib :=
  (List.range p.n).map fun k =>
    let i := p.row * rowUnits t + p.off + k
    (zskExpand t.etype (zskBlockAt rd t (i / 8))).getD (i % 8) Sib.zero

/-- The dense pieces of whole groups. -/
def groupPieces (t : Tensor) (first n : Nat) : List Piece :=
  let blocks := (List.range (min (64 * n) (zskBlocks t - 64 * first))).map fun k => 64 * first + k
  blocks.map fun b => ⟨b * 8 / rowUnits t, b * 8 % rowUnits t, 8⟩

/-- The stretches of blocks that a portion of a request with a zero-skip source expands, in order: the first block of each and
how many; a row of an INDEXED request from the first block of its group (R307, R314). -/
def zskStretches (rd : Nat → Byte) (f : Req) (first n : Nat) : List (Nat × Nat) :=
  let t := srcTensor f
  if f.opcode != Op.expand && f.subop == 1 then
    (gsMoves rd f t (dstTensor f) first n).filterMap fun m => m.1.map fun p =>
      let lo := p.row * rowUnits t / 8
      let hi := ((p.row + 1) * rowUnits t - 1) / 8
      (lo / 64 * 64, hi + 1 - lo / 64 * 64)
  else if min (64 * n) (zskBlocks t - 64 * first) = 0 then []
  else [(64 * first, min (64 * n) (zskBlocks t - 64 * first))]

/-- The blocks of the stretches. -/
def zskWork (rd : Nat → Byte) (f : Req) (first n : Nat) : List Nat :=
  (zskStretches rd f first n).flatMap fun x => (List.range x.2).map fun k => x.1 + k

/-- The bytes of a stretch in the block data: where they begin and end. -/
def zskSpan (rd : Nat → Byte) (t : Tensor) (x : Nat × Nat) : Nat × Nat :=
  let last := x.1 + x.2 - 1
  let next := zskStart rd t (last / 64 + 1)
  (zskStart rd t (x.1 / 64),
    if zskLast t last then next else min next (zskOffset rd t last + zskLen (runBytes rd (zskData t + zskOffset rd t last, 6))))

/-- The stretch that a block of a portion's work lies in, by its place in the work, and its place in the stretch. -/
def zskLocate : List (Nat × Nat) → Nat → Option ((Nat × Nat) × Nat)
  | [], _ => none
  | x :: l, i => if i < x.2 then some (x, i) else zskLocate l (i - x.2)

/-! ### FILTER (R269 to R278) -/

/-- Field width in bytes of an FTYPE. -/
def ftypeBytes (ft : Nat) : Nat := 2 ^ (ft % 4)

/-- A field or constant read under its FTYPE. -/
def ftypeVal (ft : Nat) (bs : List Byte) (i : Nat) : Int :=
  if ft < 4 then (leAt bs i (ftypeBytes ft) : Int) else sleAt bs i (ftypeBytes ft)

/-- Where clause c stands in the payload. -/
def clauseAt (c : Nat) : Nat := 32 + 32 * c
/-- CMP, FTYPE, NEG, JOIN and OFFSET of a clause (Table 6.1). -/
def clauseCmp (f : Req) (c : Nat) : Nat := bitsOf (leAt f.payload (clauseAt c) 1) 0 4
def clauseType (f : Req) (c : Nat) : Nat := bitsOf (leAt f.payload (clauseAt c + 1) 1) 0 3
def clauseNeg (f : Req) (c : Nat) : Bool := (byteAt f.payload (clauseAt c + 1)).getLsbD 3
def clauseJoin (f : Req) (c : Nat) : Nat := bitsOf (leAt f.payload (clauseAt c + 1) 1) 4 2
def clauseOff (f : Req) (c : Nat) : Nat := bitsOf (leAt f.payload (clauseAt c + 2) 1) 0 6
/-- Clauses of the program, and OUTPUT (Table 6.3). -/
def nclause (f : Req) : Nat := bitsOf (leAt f.payload 16 1) 0 4
def filterOutput (f : Req) : Nat := bitsOf (leAt f.payload 16 1) 4 2

/-- A clause's comparison on a record (Table 6.2). -/
def clauseTest (f : Req) (rec : List Byte) (c : Nat) : Bool :=
  let ft := clauseType f c
  let w := ftypeBytes ft
  let v := ftypeVal ft rec (clauseOff f c)
  let a := ftypeVal ft f.payload (clauseAt c + 8)
  let b := ftypeVal ft f.payload (clauseAt c + 16)
  let raw := leAt rec (clauseOff f c) w
  let ra := leAt f.payload (clauseAt c + 8) w
  match clauseCmp f c with
  | 0 => v == a
  | 1 => v != a
  | 2 => decide (v < a)
  | 3 => decide (v ≤ a)
  | 4 => decide (a < v)
  | 5 => decide (a ≤ v)
  | 6 => decide (a ≤ v) && decide (v ≤ b)
  | 7 => Nat.land raw ra != 0
  | 8 => Nat.land raw ra == ra
  | 9 => true
  | _ => false

/-- Whether a record passes the program (R273). -/
def recordPasses (f : Req) (rec : List Byte) : Bool :=
  let t : Nat → Bool := fun c => xor (clauseTest f rec c) (clauseNeg f c)
  ((List.range (nclause f - 1)).map (· + 1)).foldl (fun r c =>
    if clauseJoin f c = 0 then r && t c else if clauseJoin f c = 1 then r || t c else xor r (t c)) (t 0)

/-- Records of a FILTER (R270). -/
def recordCount (f : Req) : Nat := rowCount (srcTensor f)

/-- The records of a portion: whole blocks of 128 (R280). -/
def portionRecords (f : Req) (first n : Nat) : List Nat :=
  (List.range (min (128 * n) (recordCount f - 128 * first))).map fun k => 128 * first + k

/-- Bitmap bytes of a portion (R276). -/
def bitmapBytes (passes : List Nat) (recs : Nat) (first n : Nat) : List Byte :=
  (List.range (ceilDiv (min (128 * n) (recs - 128 * first)) 8)).map fun k =>
    let b := 16 * first + k
    BitVec.ofNat 8 (((List.range 8).map fun j => if passes.contains (8 * b + j) then 2 ^ j else 0).sum)

/-- Maximal runs of ascending record numbers, as first and count (R277). -/
def runsOf : List Nat → List (Nat × Nat)
  | [] => []
  | a :: l =>
    match runsOf l with
    | (b, n) :: rest => if b = a + 1 then (a, n + 1) :: rest else (a, 1) :: (b, n) :: rest
    | [] => [(a, 1)]

/-! ### SCORE_SEL (R282 to R290) -/

/-- K, MASKED and the mask's descriptor (Table 6.4). -/
def selK (f : Req) : Nat := bitsOf (leAt f.payload 16 2) 0 11
def selMasked (f : Req) : Bool := (byteAt f.payload 18).getLsbD 0
def maskTensor (f : Req) : Tensor := tensorAt f.payload 128
/-- The query's blocks. -/
def queryBlocks (f : Req) : List Sib :=
  let t := srcTensor f
  let eb := blockElemBytes t.etype
  (List.range (dimOf t 0 / 32)).map fun k =>
    sibOf t.etype (slice f.payload (224 + k * (eb + 1) + 1) eb) (byteAt f.payload (224 + k * (eb + 1)))

/-- A candidate position (R283). -/
def isCandidate (rd : Nat → Byte) (f : Req) (p : Nat) : Bool :=
  !selMasked f || (rd ((maskTensor f).base + p / 8)).getLsbD (p % 8)

/-- The positions of a portion's ranges. -/
def runItems (runs : List (Nat × Nat)) : List Nat := runs.flatMap fun x => (List.range x.2).map fun k => x.1 + k

/-! ### Alternates (R294, R354) -/

/-- Whether an object has an ADDR: a tier-1 range or copy, or a tray range (Table 8.2). -/
def hasAddr (o : Obj) : Bool := !o.deleted && (o.tier != 3 || decide (o.t1 ≠ .none))

/-- Bytes of the range at an object's ADDR. -/
def rangeBytes (o : Obj) : Nat := if o.cdense then o.rows * o.rowBytes else o.size

/-- Whether a range of an object holds an address: its tier-1 range or its tray range. -/
def objHolds (o : Obj) (a : Nat) : Bool := hasAddr o && decide (o.addr ≤ a) && decide (a < o.addr + rangeBytes o)

/-- The object that holds an address (R354). -/
def objHolding (s : State) (a : Nat) : Option Obj := (s.obj.tab.find? fun e => objHolds e.2 a).map (·.2)

/-- An object's alternate tensor (R354): rank 2, interleaved, packed at its ADDR. -/
def altTensor (s : State) (o : Obj) : Option Tensor :=
  (objOf s o.alt).bind fun a =>
    if o.alt == 0 || !hasAddr a || a.etype == 3 || decide (a.t1 = .filling) then none
    else some { base := a.addr, rank := 2, etype := a.etype.toNat, planar := false, zskip := false, expAddr := 0
                dims := [a.rowBytes / (blockElemBytes a.etype.toNat + 1) * 32, a.rows, 0, 0, 0, 0]
                strides := [0, (a.rowBytes : Int), 0, 0, 0, 0] }

/-- The alternate a request may use for its source, when it is usable (R294, R354). -/
def usableAlt (s : State) (f : Req) : Option Tensor :=
  let t := srcTensor f
  (objHolding s t.base).bind fun o => (altTensor s o).bind fun a =>
    let same := t.rank == 2 && dimOf t 0 == dimOf a 0 && dimOf t 1 == dimOf a 1 && t.etype != 3
    let gs := f.opcode == Op.scoreSel ||
      (!t.planar && t.base == o.addr && strideOf t 1 == (rowBytes t : Int))
    if same && gs then some a else none

/-- The tensor a request reads: its source, or the alternate once that is chosen. -/
def readTensor (r : EngReq) : Tensor := r.alt.getD (srcTensor r.f)

/-- Whether the alternate was chosen. -/
def usesAlt (r : EngReq) : Bool := r.alt.isSome

end Sys2Proof.Machine
end

