-- ==== Sys2Proof/Machine/Estimate.lean ====
section
/-! DEFINITION. Estimates of the time to completion (R295, R352), in microseconds as exact fractions, and deadlines (R350,
R351, R353). -/

namespace Sys2Proof.Machine

/-- Min step rate of a note in steps per µs (Table 4.3). -/
def minRate : Note → Nat
  | .top => 2300
  | .heart => 1800
  | .base => 1200

/-- A quotient as an exact fraction of microseconds. -/
def per (n d : Nat) : Rat := (n : Rat) / (d : Rat)

/-- Bytes of one part of an object's replica: equal whole rows; of a stream, the same share of its bytes (R337). -/
def partBytes (o : Obj) (parts : Nat) : Nat :=
  let rows := ceilDiv o.rows (max 1 parts)
  max 1 (if o.zskip && !o.cdense then ceilDiv (o.size * rows) (max 1 o.rows) else rows * o.rowBytes)

/-- The part of a tier-0 replica that holds a range of fabric addresses wholly, with the object (R337). -/
def replicaPart (s : State) (lo hi : Nat) : Option (Obj × Nat × T0Part) :=
  (objHolding s lo).bind fun o =>
    let pb := partBytes o o.t0tiles.length
    let a := (lo - o.addr) / pb
    if !o.t0rep || a != (hi - o.addr) / pb then none else (o.t0tiles[a]?).map fun p => (o, a, p)

/-- The tile of that part. -/
def replicaTile (s : State) (lo hi : Nat) : Option TileNo := (replicaPart s lo hi).map fun x => x.2.2.tile

/-- The part on a tile from which runs can all be read, with its object (R337). -/
def replicaOn (s : State) (t : TileNo) (runs : List (Nat × Nat)) : Option (Obj × Nat × T0Part) :=
  let rs := runs.filter fun x => x.2 != 0
  match rs with
  | [] => none
  | x :: _ =>
    (replicaPart s x.1 (x.1 + x.2 - 1)).bind fun p =>
      if p.2.2.tile == t && rs.all fun y => decide (replicaPart s y.1 (y.1 + y.2 - 1) = some p) then some p else none

/-- First byte of a tile's tier-0 area: the working limit (Table 4.2). -/
def workLimit (x : TileRec) : Nat := 0x1F0000 - 65536 * x.t0

/-- Where byte `k` of a part stands in its tile's SRAM. -/
def partAt (x : TileRec) (p : T0Part) (k : Nat) : Nat := workLimit x + 65536 * p.units.getD (k / 65536) 0 + k % 65536

/-- A byte of a replica read from its tile. -/
def replicaByte (s : State) (x : Obj × Nat × T0Part) (a : Nat) : Byte :=
  let t := tileOf s x.2.2.tile
  cellRead t.sram (partAt t x.2.2 (a - x.1.addr - x.2.1 * partBytes x.1 x.1.t0tiles.length))

/-- Bytes of runs that lie in one stack. -/
def stackBytes (s : State) (q : Quad) (runs : List (Nat × Nat)) : Nat :=
  (runs.map fun x =>
    ((List.range (if x.2 = 0 then 0 else (x.1 + x.2 - 1) / 4096 + 1 - x.1 / 4096)).map fun k =>
      let page := (x.1 / 4096 + k) * 4096
      if (pageAt s page).any fun p => p.stack == q then min (x.1 + x.2) (page + 4096) - max x.1 page else 0).sum).sum

/-- Lanes of the port behind which a tray range stands; one when this device does not know them. -/
def trayLanes (s : State) (a : Nat) : Nat :=
  match s.lse.pool.find? fun x => decide (x.base.toNat ≤ a) && decide (a ≤ x.limit.toNat) with
  | some x =>
    match localAt s x.ep with
    | some (.lane p) => max 1 (portOf s p).width.toNat
    | _ => 1
  | none => 1

/-- Time to read runs that have addresses: the slowest stack at 2.5 TB/s, plus tray bytes at 45 GB/s a lane (R352, R729). -/
def addrTime (s : State) (runs : List (Nat × Nat)) : Rat :=
  let times := ([0, 1, 2, 3] : List Quad).map fun q => per (stackBytes s q runs) 2500000
  let far := runs.filter fun x => !inT1 s x.1
  (times.foldl max 0) + ((far.map fun x => per x.2 (45000 * trayLanes s x.1)).foldl (· + ·) 0)

/-- Time to read tier-3 bytes (R352). -/
def flashTime (s : State) (bytes : Nat) : Rat :=
  if bytes = 0 then 0 else per bytes (1000 * max 1 s.obj.t3Rate.toNat) + per s.obj.t3LatUs.toNat 1

/-- 64-byte granules that a run touches (R265). -/
def granules (x : Nat × Nat) : Nat := if x.2 = 0 then 0 else (x.1 + x.2 - 1) / 64 + 1 - x.1 / 64

/-- The deadline extension's fields (Table 8.6). -/
def dlBudget (f : Req) : Nat := bitsOf f.ext.toNat 0 32
def dlNoAlt (f : Req) : Bool := f.dlx && f.ext.getLsbD 40

/-- An extension that R351 refuses: another DEV, or reserved bits. -/
def dlBad (s : State) (f : Req) : Bool :=
  f.dlx && (bitsOf f.ext.toNat 32 6 != (devId s).toNat || bitsOf f.ext.toNat 38 2 != 0 || bitsOf f.ext.toNat 41 23 != 0)

/-- What a deadline decides (R296, R353). -/
inductive Verdict where
  | run
  | alternate
  | miss
deriving DecidableEq, Repr

/-- The decision of R296 and R353 on an estimate. -/
def judge (s : State) (deadline : Option Nat) (e : Rat) (alt noAlt : Bool) : Verdict :=
  match deadline with
  | none => .run
  | some d =>
    if e ≤ per (d - s.counter) 1 && decide (s.counter ≤ d) then .run
    else if alt && !noAlt then .alternate
    else .miss

end Sys2Proof.Machine
end

