-- ==== Sys2Proof/Machine/Pairs.lean ====
section
/-! DEFINITION. The egress device's part in a request: leases of pool ranges (R464), the completion log (R100, R120), and
destinations behind a port (R728). -/

namespace Sys2Proof.Machine

/-! ### Pool ranges (R444, R464) -/

/-- The pool entry whose range holds a request's address. -/
def poolEntry (s : State) (e : Ep) (a : Addr) : Option PoolEntry :=
  s.lse.pool.find? fun x => x.ep == e && decide (x.base ≤ a) && decide (a ≤ x.limit)

/-- A composition as this device holds it. -/
def compRec (s : State) (c : CompId) : CompRec := tgetD s.lse.comps c CompRec.blank

/-- A composition changed. -/
def modComp (s : State) (c : CompId) (f : CompRec → CompRec) : State :=
  { s with lse := { s.lse with comps := tset s.lse.comps c (f (compRec s c)) } }

/-- The lease of a pool member whose range holds an address. -/
def leaseAt (s : State) (e : Ep) (a : Nat) : Option Lease :=
  (s.lse.leases.find? fun x => x.2.target == e && decide (x.2.state ≠ .free) && decide (x.2.base ≤ a) &&
    decide (a < x.2.limit + 4096)).map (·.2)

/-- What Table 11.4 answers a request into a pool range; none: it is executed. -/
def poolCheck (s : State) (f : Req) : Option Status :=
  match poolEntry s f.dst f.addr with
  | none => none
  | some _ =>
    match leaseAt s f.dst f.addr.toNat with
    | none => some .remap
    | some l =>
      let c := compRec s l.comp
      if f.epoch == c.epoch then (if l.inCur then none else some .remap)
      else if c.sillage && f.epoch == c.epoch - 1 then (if l.inPrev then none else some .remap)
      else some .remap

/-! ### The completion log (R100, R120) -/

/-- The pair of a request (R88). -/
def pairOf (f : Req) : PairKey := (f.src, f.dst, f.cls)

/-- A pair in the egress order table. -/
def ordOf (s : State) (k : PairKey) : Option Ord := tget s.egr.ord k

/-- A pair of the egress order table changed. -/
def modOrd (s : State) (k : PairKey) (f : Ord → Ord) : State :=
  match ordOf s k with
  | some o => { s with egr := { s.egr with ord := tset s.egr.ord k (f o) } }
  | none => s

/-- The log entry of a request. -/
def logFind (s : State) (k : PairKey) (q : Seq) : Option LogEnt := s.egr.log.find? fun e => decide (e.key = k) && e.seq == q

/-- Log entries changed where they are of a request. -/
def logMod (s : State) (k : PairKey) (q : Seq) (st : LogState) : State :=
  { s with egr := { s.egr with log := modWhere s.egr.log (fun e => decide (e.key = k) && e.seq == q) fun e =>
      { e with state := st, at_ := s.counter } } }

/-- Entries the completion log holds (Table 2.11). -/
def logCapacity : Nat := 8388608

/-- A log entry evicted: its pair's log floor is raised to it (Table 2.11). -/
def logEvict (s : State) (e : LogEnt) : State :=
  let s := { s with egr := { s.egr with log := s.egr.log.filter fun x => !(decide (x.key = e.key) && x.seq == e.seq) } }
  modOrd s e.key fun o => { o with floor := if o.floor.any fun q => decide ((q - e.seq).toNat ≤ 32768) then o.floor else some e.seq }

/-- A request's entry begun in the log; the oldest is overwritten when the log is full (Table 2.11). -/
def logAdd (s : State) (f : Req) (st : LogState) : State :=
  let s := if logCapacity ≤ s.egr.log.length then
      match s.egr.log with
      | e :: _ => logEvict s e
      | [] => s
    else s
  { s with egr := { s.egr with log := s.egr.log ++ [⟨pairOf f, f.seq, f.tenant, st, s.counter⟩] } }

/-- The entries of a pair that E has passed by 4,096 are evicted (Table 2.11). -/
def logTrim (s : State) (k : PairKey) : State :=
  match ordOf s k with
  | some o =>
    let old := s.egr.log.filter fun e => decide (e.key = k) && decide (4096 ≤ (o.e - e.seq).toNat) &&
      decide ((o.e - e.seq).toNat ≤ 32768)
    old.foldl logEvict s
  | none => s

/-- A duplicate's answer from a logged completion: DUPL = 1, the PGEN of the copy answered, and the request's DST as SRC (R57, R60,
R100). -/
def dupCpl (f : Req) (c : Cpl) : Cpl := { c with dupl := true, pgen := f.pgen, src := f.dst }

/-- A completion given for a request: logged and given to the duplicates that wait when the request is sequenced, and sent
(R100, R728). -/
def finishReq (s : State) (f : Req) (c : Cpl) : State :=
  let s := sendCpl s .own c s.counter
  if opSequenced f.opcode then
    match logFind s (pairOf f) f.seq with
    | some e =>
      let dups := match e.state with
        | .pending l => l
        | _ => []
      dups.foldl (fun s d => sendCpl s .own (dupCpl d c) s.counter) (logMod s (pairOf f) f.seq (.done c))
    | none => logAdd s f (.done c)
  else s

/-- A completion with a status and no data, in the name of the destination (R60). -/
def finishWith (s : State) (f : Req) (st : Status) : State := finishReq s f (mkCpl f f.dst st [])

/-- Whether a sequence number lies below the log floor of its pair: its entry was evicted (R120). -/
def evicted (s : State) (k : PairKey) (q : Seq) : Bool :=
  match (ordOf s k).bind (·.floor) with
  | some fl => decide ((fl - q).toNat ≤ 32768)
  | none => false

/-- A duplicate answered as R100 states. DESIGN CHOICE (log entry 5): one of a request that was never applied, so never logged, is
discarded without an answer, since ABORTED with DUPL = 1 says that it was applied (R101). -/
def dupAnswer (s : State) (f : Req) : State :=
  match logFind s (pairOf f) f.seq with
  | some e =>
    match e.state with
    | .done c => sendCpl s .own (dupCpl f c) s.counter
    | .pending l => logMod s (pairOf f) f.seq (.pending (l ++ [f]))
    | .unknown => s
  | none =>
    if evicted s (pairOf f) f.seq then sendCpl s .own { mkCpl f f.dst .aborted [] with dupl := true } s.counter else s

/-! ### Destinations behind a port (R728) -/

/-- A request sent to its destination behind a port; a sequenced one is pending in the log. -/
def forwardTo (s : State) (o : Port) (f : Req) (entry : Option Nat) : State :=
  let s := { s with egr := { s.egr with dest := s.egr.dest ++ [⟨f, o, entry⟩] } }
  let s := if opSequenced f.opcode && (logFind s (pairOf f) f.seq).isNone && f.seqd then logAdd s f (.pending []) else s
  landFrame s .own o (.req f) (residency s f)

/-- Sequenced requests pending behind a port that went down are marked unknown, and what waited there is forgotten (R728). -/
def destDown (s : State) (o : Port) : State :=
  let gone := s.egr.dest.filter fun d => decide (d.port = o)
  let s := { s with egr := { s.egr with dest := s.egr.dest.filter fun d => !decide (d.port = o) } }
  gone.foldl (fun s d =>
    if opSequenced d.f.opcode && d.entry.isNone then logMod s (pairOf d.f) d.f.seq .unknown else s) s

end Sys2Proof.Machine
end

