-- ==== Sys2Proof/Machine/Coherence.lean ====
section
/-! DEFINITION. The coherence home: partitions, transactions and snoops (R144 to R166). -/

namespace Sys2Proof.Machine

/-- A port's coherent agent. -/
def partOf (s : State) (p : PortNo) : Part := tgetD s.coh.parts p Part.blank

/-- A port's coherent agent changed. -/
def modPart (s : State) (p : PortNo) (f : Part → Part) : State :=
  { s with coh := { s.coh with parts := tset s.coh.parts p (f (partOf s p)) } }

/-- A line's entry in a partition. -/
def holds (r : Part) (line : Nat) : Option CLine := r.lines.find? fun l => l.line == line

/-- A line's entry removed. -/
def dropLine (r : Part) (line : Nat) : Part := { r with lines := r.lines.filter fun l => l.line != line }

/-- A line recorded in a state; a line not recorded before is filled now (R152, R156). -/
def putLine (r : Part) (line fill : Nat) (st : CohState) : Part :=
  match holds r line with
  | some _ => { r with lines := modWhere r.lines (fun l => l.line == line) fun l => { l with st := st } }
  | none => { r with lines := r.lines ++ [⟨line, st, fill⟩] }

/-- A line granted to an attached agent. -/
def grantLine (s : State) (p : PortNo) (line : Nat) (st : CohState) : State :=
  if (partOf s p).attached then
    let n := s.coh.fillNo
    modPart { s with coh := { s.coh with fillNo := n + 1 } } p fun r => putLine r line n st
  else s

/-- The set of a line (R148): bits of the address above the line. -/
def setOf (s : State) (r : Part) (line : Nat) : Nat := (t1Base s / 128 + line) % 2 ^ r.sets.toNat

/-- A transaction that fills a line of the requester's partition (R156). -/
def fills (k : CohKind) : Bool :=
  match k with
  | .readShared | .readOwn | .claim | .join _ => true
  | _ => false

/-- Lines of a set that fills in progress have taken a way for (R156). -/
def filling (s : State) (p : PortNo) (set : Nat) : List Nat :=
  let r := partOf s p
  ((s.coh.txns.filter fun t => t.begun && t.port == p && fills t.kind && setOf s r t.line == set &&
    (holds r t.line).isNone).map (·.line)).dedup

/-- Lines of a partition that a back-invalidation is removing (R156). -/
def leaving (s : State) (p : PortNo) : List Nat :=
  (s.coh.snoops.filter fun n => n.port == p && s.coh.txns.any fun t => t.id == n.txn && decide (t.back = some n.tag)).map (·.line)

/-- Whether a fill of this line finds its set full, fills in progress counted (R156, R168). -/
def setFull (s : State) (p : PortNo) (line : Nat) : Bool :=
  let r := partOf s p
  let stay := r.lines.filter fun l => setOf s r l.line == setOf s r line && !(leaving s p).contains l.line
  let soon := filling s p (setOf s r line)
  r.attached && (holds r line).isNone && !soon.contains line && decide (2 ^ r.ways.toNat ≤ stay.length + soon.length)

/-- The line a fill of this line must invalidate first: that of a full set filled longest ago and not yet leaving (R156). -/
def fillVictim (s : State) (p : PortNo) (line : Nat) : Option Nat :=
  let r := partOf s p
  if setFull s p line then
    (leastBy (·.fill) (r.lines.filter fun l => setOf s r l.line == setOf s r line && !(leaving s p).contains l.line)).map (·.line)
  else none

/-- The ports, but one, whose partitions record a line. -/
def otherHolders (s : State) (p : PortNo) (line : Nat) : List PortNo :=
  (s.coh.parts.filter fun e => e.1 != p && (holds e.2 line).isSome).map (·.1)

/-- The port whose attached agent a request comes from, when the window that decides at its address is coherent (R78, R144, R145). -/
def agentOf (s : State) (f : Req) : Option PortNo :=
  match localAt s f.src with
  | some (.lane p) =>
    if (partOf s p).attached && (winFor (liveWins s (.lane p)) f.addr.toNat).any winCoh then some p else none
  | _ => none

/-- A transaction changed. -/
def modTxn (s : State) (id : Nat) (f : Txn → Txn) : State :=
  { s with coh := { s.coh with txns := modWhere s.coh.txns (fun t => t.id == id) f } }

/-- A transaction ended. -/
def dropTxn (s : State) (id : Nat) : State :=
  { s with coh := { s.coh with txns := s.coh.txns.filter fun t => t.id != id } }

/-- A request with every field zero. -/
def blankReq : Req :=
  { opcode := 0, src := 0, dst := 0, tag := 0, seq := 0, epoch := 0, tenant := 0, cls := 0, chk := false, addr := 0, len := 0,
    pgen := 0, bep := false, rsnd := false, seqd := false, newp := false, raw := false, dlx := false, subop := 0, osz := 0,
    ncmb := false, dur := false, hop := 0, rsv := 0, ext := 0, payload := [] }

/-- A snoop frame (R157). -/
def snoopFrame (s : State) (n : Snoop) : Req :=
  { blankReq with opcode := if n.inval then 0xF1 else 0xF0, src := ownEp s, dst := (portEp s (.lane n.port)).getD 0,
                  tag := n.tag, cls := 7, chk := true, addr := BitVec.ofNat 58 (t1Base s + n.line * 128) }

/-- Snoops outstanding to one agent at once (R159). -/
def snoopLimit : Nat := 256

/-- Waiting snoops of an agent sent while fewer than 256 are outstanding (R159). -/
def sendSnoops (s : State) (p : PortNo) : State :=
  let mine := s.coh.snoops.filter fun n => n.port == p
  let room := snoopLimit - (mine.filter (·.sent)).length
  let go := (mine.filter fun n => !n.sent).take room
  let now := s.counter
  let marked := s.coh.snoops.map fun n => if go.any (fun g => g.tag == n.tag && g.port == n.port) then { n with sent := true, at_ := now } else n
  go.foldl (fun s n => landFrame s .own (.lane p) (.req (snoopFrame s n)) s.counter)
    { s with coh := { s.coh with snoops := marked } }

/-- A snoop made for a transaction, with its tag. -/
def newSnoop (s : State) (p : PortNo) (inval : Bool) (line txn : Nat) : State × Tag :=
  let tag := BitVec.ofNat 16 s.coh.nextTag
  let n : Snoop := ⟨p, tag, line, inval, txn, false, 0⟩
  (sendSnoops { s with coh := { s.coh with snoops := s.coh.snoops ++ [n], nextTag := s.coh.nextTag + 1 } } p, tag)

/-- Several snoops of one kind and line, and their tags. -/
def newSnoops (s : State) (ps : List PortNo) (inval : Bool) (line txn : Nat) : State × List Tag :=
  ps.foldl (fun acc p => let r := newSnoop acc.1 p inval line txn; (r.1, acc.2 ++ [r.2])) (s, [])

/-- Read entries of a line closed: the egress device forwards a write or an atomic that touches it, or grants its ownership
(R128). -/
def closeReads (s : State) (dst : Ep) (a : Addr) : State :=
  let hit : CEntry → Bool := fun x => x.key.opcode == Op.rdLine && x.key.dst == dst && decide (x.key.addr.toNat / 128 = a.toNat / 128)
  { s with cmb := { s.cmb with ents := modWhere s.cmb.ents hit fun x => { x with isOpen := false } } }

/-- Ownership granted: the line's read entries close (R128). -/
def grantOwned (s : State) (t : Txn) : State := closeReads (grantLine s t.port t.line .owned) t.f.f.dst t.f.f.addr

/-- The answer of a transaction: to the combine entry it leads, or to its requester. -/
def cohReply (s : State) (t : Txn) (d : Done) : State :=
  match t.entry with
  | some e =>
    { s with cmb := { s.cmb with ents := modWhere s.cmb.ents (fun x => x.id == e) fun x => { x with res := some (d.st, d.data) } } }
  | none => finishReq s t.f.f (doneCpl t.f.f d)

/-- A CLAIM executed: the line set to zero and its mark cleared (Tables 3.3 and 3.4, R670). -/
def claimRun (s : State) (e : EReq) : State × Done :=
  match objAt s e.f.addr.toNat, t1Check s e.f.addr.toNat e.f.tenant e.f.src e.gen true with
  | some (_, o), none =>
    (unpoison (linePut s (lineNo s e.f.addr) (objKey s o) (List.replicate 128 0)) (lineNo s e.f.addr),
      ⟨.ok, List.replicate 128 0, false⟩)
  | _, st => (s, ⟨st.getD .denied, [], false⟩)

/-- A line write of a coherent agent executed by its state (Table 3.4). -/
def cohWriteRun (s : State) (t : Txn) : State × Done :=
  let f := t.f.f
  let gone : State → State := fun s => modPart s t.port fun x => dropLine x t.line
  let chk := t1Check s f.addr.toNat f.tenant f.src t.f.gen true
  match holds (partOf s t.port) t.line with
  | some l =>
    match l.st, chk with
    | .owned, _ => let r := t1Run s t.f; (if r.2.st = .ok then gone r.1 else r.1, r.2)
    | .shared, some st => (s, ⟨st, [], false⟩)
    | .shared, none => (gone s, ⟨.ok, [], false⟩)
  | none =>
    match chk with
    | some st => (s, ⟨st, [], false⟩)
    | none => (modPart s t.port fun x => { x with stray := satInc 32 x.stray }, ⟨.ok, [], false⟩)

/-- A joiner of a READ_SHARED entry is answered; the entry is freed with its last one (R130, R165). -/
def leaveEnt (s : State) (t : Txn) (d : Done) : State :=
  let s := finishReq s t.f.f (doneCpl t.f.f d)
  let ents := match t.entry with
    | some id => modWhere s.cmb.ents (fun x => x.id == id) fun x => { x with members := x.members.filter fun e => !decide (e = t.f) }
    | none => s.cmb.ents
  { s with cmb := { s.cmb with ents := ents.filter fun x => !(x.filling && x.members.isEmpty) } }

/-- A line granted to an agent that is being detached is invalidated in its turn (Table 3.5 step 3). -/
def detachGranted (s : State) (t : Txn) : State :=
  if (partOf s t.port).detaching && (holds (partOf s t.port) t.line).isSome then
    let u : Txn := { t with id := s.coh.nextTxn, kind := .detach, begun := false, back := none, wait := [], lost := false, entry := none }
    { s with coh := { s.coh with txns := s.coh.txns ++ [u], nextTxn := s.coh.nextTxn + 1 } }
  else s

/-- A transaction whose snoops are answered does its work and answers (Table 3.4, R161, R165, R166). A write or an atomic closes the
read entries of its line as it is applied (R102, R128). DESIGN CHOICE (log entry 9): a READ_SHARED from an agent recorded as owner,
which Table 3.4 has no row for, reads memory and leaves the agent recorded S. -/
def cohFinish (s : State) (t : Txn) : State :=
  let keeps := decide (t.kind = .atomic) && t.entry.isSome
  let s := if keeps then modTxn s t.id fun _ => { t with begun := true, back := none, wait := [], ran := true } else dropTxn s t.id
  if t.lost && decide (t.kind ≠ .detach) then
    let r := poisonAnswer s t.f.f
    match t.kind with
    | .join _ => leaveEnt r.1 t r.2
    | _ => cohReply r.1 t r.2
  else match t.kind with
    | .readShared =>
      let r := t1Run s t.f
      cohReply (if r.2.st = .ok then detachGranted (grantLine r.1 t.port t.line .shared) t else r.1) t r.2
    | .readOwn =>
      let r := t1Run s t.f
      cohReply (if r.2.st = .ok then detachGranted (grantOwned r.1 t) t else r.1) t r.2
    | .claim =>
      let r := claimRun s t.f
      cohReply (if r.2.st = .ok then detachGranted (grantOwned r.1 t) t else r.1) t r.2
    | .write => let r := cohWriteRun (closeReads s t.f.f.dst t.f.f.addr) t; cohReply r.1 t r.2
    | .atomic => let r := t1Run (closeReads s t.f.f.dst t.f.f.addr) t.f; cohReply r.1 t r.2
    | .detach => s
    | .join data => leaveEnt (detachGranted (grantLine s t.port t.line .shared) t) t ⟨.ok, data, false⟩

/-- The snoops of Table 3.4, once any back-invalidation is done; a transaction that needs none finishes. -/
def cohSnoops (s : State) (t : Txn) : State :=
  let others := otherHolders s t.port t.line
  let go : List PortNo → Bool → State := fun ps inval =>
    if ps.isEmpty then cohFinish s t
    else
      let r := newSnoops s ps inval t.line t.id
      modTxn r.1 t.id fun t => { t with begun := true, back := none, wait := r.2 }
  match t.kind with
  | .readShared =>
    go (others.filter fun p => decide ((holds (partOf s p) t.line).map (·.st) = some .owned)) false
  | .readOwn | .claim => go others true
  | .atomic => go (others ++ if (holds (partOf s t.port) t.line).isSome then [t.port] else []) true
  | .detach => go (if (holds (partOf s t.port) t.line).isSome then [t.port] else []) true
  | .write | .join _ => cohFinish s t

/-- A transaction begins: a fill into a full set first invalidates the line filled longest ago (R154, R156). -/
def cohBegin (s : State) (t : Txn) : State :=
  match if fills t.kind then fillVictim s t.port t.line else none with
  | some v =>
    let r := newSnoop s t.port true v t.id
    modTxn r.1 t.id fun t => { t with begun := true, back := some r.2 }
  | none => cohSnoops s { t with begun := true }

/-- Coherent transactions in progress at once (Table 3.12). -/
def txnLimit : Nat := 65536

/-- Whether a transaction may begin as far as ways go: a fill into a full set needs a line that it can invalidate (R156). DEDUCED
(log entry 11): fills in progress keep their ways, and a fill that finds neither a way nor such a line waits. -/
def wayFree (s : State) (t : Txn) : Bool :=
  !(fills t.kind && setFull s t.port t.line) || (fillVictim s t.port t.line).isSome

/-- The first waiting transaction whose line no earlier one holds (R154); a joiner's answer waits for no line. -/
def nextTxn (s : State) (done : List Txn) : List Txn → Option Txn
  | [] => none
  | t :: ts =>
    let free := match t.kind with
      | .join _ => true
      | _ => !done.any fun u => u.line == t.line
    if !t.begun && free && wayFree s t then some t else nextTxn s (done ++ [t]) ts

/-- Waiting transactions begin, line by line in order, while the table has room (R154, Table 3.12). -/
def cohPump : Nat → State → State
  | 0, s => s
  | n + 1, s =>
    if txnLimit ≤ (s.coh.txns.filter (·.begun)).length then s
    else match nextTxn s [] s.coh.txns with
      | some t => cohPump n (cohBegin s t)
      | none => s

/-- Every waiting transaction that can begin begins; one that a grant adds for a detach among them. -/
def cohPumpAll (s : State) : State := cohPump (2 * s.coh.txns.length + 2) s

/-- A coherent transaction made and, when its line is free, begun. -/
def cohStart (s : State) (kind : CohKind) (p : PortNo) (line : Nat) (e : EReq) (entry : Option Nat) : State :=
  let t : Txn := { id := s.coh.nextTxn, line := line, kind := kind, port := p, f := e, begun := false, back := none, wait := [],
                   lost := false, entry := entry, ran := false }
  let s := { s with coh := { s.coh with txns := s.coh.txns ++ [t], nextTxn := s.coh.nextTxn + 1 } }
  cohPumpAll s

/-- A snoop is done with: its transaction goes on; `lost` when an owner failed to answer it (R161, R165). -/
def cohResolve (s : State) (n : Snoop) (lost : Bool) : State :=
  match s.coh.txns.find? fun t => t.id == n.txn with
  | none => s
  | some t =>
    if t.back = some n.tag then
      let isJoin := match t.kind with
        | .join _ => true
        | _ => false
      let t := { t with back := none, lost := lost && isJoin }
      cohSnoops (modTxn s t.id fun _ => t) t
    else
      let t := { t with wait := t.wait.filter (fun g => g != n.tag), lost := t.lost || lost }
      if t.wait.isEmpty then cohFinish s t else modTxn s t.id fun _ => t

/-- Data an owner returned, written to its line (Table 3.4, R670). -/
def snoopData (s : State) (line : Nat) (data : List Byte) : State :=
  match objAt s (t1Base s + line * 128) with
  | some (_, o) => unpoison (linePut s line (objKey s o) data) line
  | none => s

/-- SNOOP_ANSWER (R158, R160): returned data are written, the partition follows, and the transaction goes on. -/
def snoopAnswer (s : State) (p : PortNo) (tag : Tag) (data : Option (List Byte)) : State :=
  match s.coh.snoops.find? fun n => n.port == p && n.tag == tag && n.sent with
  | none => s
  | some n =>
    let s := { s with coh := { s.coh with snoops := s.coh.snoops.filter fun m => !(m.port == p && m.tag == tag) } }
    let discards := s.coh.txns.any fun t => t.id == n.txn && decide (t.kind = .claim) && t.line == n.line
    let s := match data with
      | some d => if discards then s else snoopData s n.line d
      | none => s
    let s := modPart s p fun r =>
      if n.inval then dropLine r n.line
      else { r with lines := modWhere r.lines (fun l => l.line == n.line) fun l => { l with st := .shared } }
    let s := sendSnoops (cohResolve s n false) p
    cohPumpAll s

/-- AGENT_FAIL (R161): owned lines poisoned, entries removed, the attachment ended, and what waited on the agent goes on. -/
def agentFail (s : State) (p : PortNo) : State :=
  let r := partOf s p
  if !r.attached then s
  else
    let owned := (r.lines.filter fun l => decide (l.st = .owned)).map (·.line)
    let s := raise (owned.foldl poisonLine s) (report 11 (.port p) (locLane s p))
    let s := modPart s p fun r => { r with failed := true, attached := false, detaching := false, lines := [] }
    let mine := s.coh.snoops.filter fun n => n.port == p
    let s := { s with coh := { s.coh with snoops := s.coh.snoops.filter fun n => n.port != p } }
    let isBack : Snoop → Bool := fun n => s.coh.txns.any fun t => t.id == n.txn && decide (t.back = some n.tag)
    let s := mine.foldl (fun s n => cohResolve s n (owned.contains n.line || isBack n)) s
    cohPumpAll s

/-- SNOOP_TIMEOUT (R161): a snoop unanswered for 200 µs fails its agent. -/
def snoopTimeout (s : State) (p : PortNo) (tag : Tag) : State :=
  if s.coh.snoops.any fun n => n.port == p && n.tag == tag && n.sent && decide (n.at_ + 200 ≤ s.counter) then agentFail s p else s

/-- A write-back from the snooped agent is the snoop's answer (R160). -/
def writeBackSnoop (s : State) (p : PortNo) (line : Nat) : Option Snoop :=
  s.coh.snoops.find? fun n => n.port == p && n.line == line

/-- A line write of a coherent agent (Table 3.4, R160). -/
def cohWrite (s : State) (p : PortNo) (e : EReq) : State :=
  let line := lineNo s e.f.addr
  match writeBackSnoop s p line with
  | some n =>
    let t : Txn := { id := 0, line := line, kind := .write, port := p, f := e, begun := true, back := none, wait := [],
                     lost := false, entry := none, ran := false }
    let r := cohWriteRun (closeReads s e.f.dst e.f.addr) t
    let s := finishReq r.1 e.f (doneCpl e.f r.2)
    let s := modPart s p fun x => dropLine x line
    let s := { s with coh := { s.coh with snoops := s.coh.snoops.filter fun m => !(m.port == p && m.tag == n.tag) } }
    let s := sendSnoops (cohResolve s n false) p
    cohPumpAll s
  | none => cohStart s .write p line e none

/-! ### Attach and detach (R148 to R150, R163) -/

/-- COH_ATTACH (R148 to R150). -/
def cohAttach (s : State) (p : PortNo) (ways sets : BitVec 4) : State × Status :=
  let r := partOf s p
  if !isEndpointPort s p || r.attached || r.detaching then (s, .denied)
  else if decide (15 < ways.toNat + sets.toNat) || decide (4 < ways.toNat) then
    (modPart s p fun r => { r with refused := true }, .noSlot)
  else (modPart s p fun r => { r with attach := true, cfgWays := ways, cfgSets := sets, ways := ways, sets := sets, attached := true,
                                      refused := false, lines := [] }, .ok)

/-- COH_DETACH (R163, Tables 3.5 and 3.9): the written fields are kept, and every line of the partition is invalidated. -/
def cohDetach (s : State) (p : PortNo) (ways sets : BitVec 4) : State × Status :=
  let r := partOf s p
  let put : Part → Part := fun r => { r with attach := false, cfgWays := ways, cfgSets := sets }
  if r.detaching then (s, .denied)
  else if !r.attached then (modPart s p put, .ok)
  else
    let s := modPart s p fun r => { put r with detaching := true }
    (r.lines.foldl (fun s l => cohStart s .detach p l.line ⟨blankReq, 0⟩ none) s, .ok)

/-- DETACH_FINISH (Table 3.5 steps 2 to 5): once the agent's transactions are done the attachment ends; a snoop unanswered for
200 µs is handled under R161. -/
def detachFinish (s : State) (p : PortNo) : State :=
  let r := partOf s p
  if !r.detaching then s
  else if s.coh.txns.any fun t => t.port == p && !t.ran then
    (if s.coh.snoops.any fun n => n.port == p && n.sent && decide (n.at_ + 200 ≤ s.counter) then agentFail s p else s)
  else modPart s p fun r => { r with attached := false, detaching := false, lines := [] }

end Sys2Proof.Machine
end

