-- ==== Sys2Proof/Machine/Egress.lean ====
section
/-! DEFINITION. The egress device: the pair order (R96 to R100), combining and the Atomizer (R122 to R143), and destinations'
answers (R728). -/

namespace Sys2Proof.Machine

/-! ### The combine table (R122 to R130) -/

/-- The slice that serves a request's destination (R122). -/
def sliceOf (s : State) (f : Req) : Quad :=
  match localAt s f.dst with
  | some .own => ((pageAt s f.addr.toNat).map (·.stack)).getD 0
  | some o => portQuad o
  | none => 0

/-- Combinable under R124, and combining of its kind enabled (Table 3.6). -/
def combinable (s : State) (f : Req) : Bool :=
  s.cmb.enable && !f.ncmb && !f.dur &&
    ((f.opcode == Op.rdLine && f.subop == 0 && s.cmb.readEn) ||
      (opAtomic f.opcode && f.opcode != Op.atomCas && s.cmb.atomEn))

/-- Whether a read takes its data as a coherent fill (R164). -/
def coherentFill (s : State) (f : Req) : Bool :=
  f.opcode == Op.rdLine && (match agentOf s f with
    | some p => !(partOf s p).detaching
    | none => false)

/-- The combine key of a request (Table 3.1). -/
def keyOf (s : State) (f : Req) : CKey :=
  { opcode := f.opcode, subop := if f.opcode == Op.rdLine then 0 else f.subop, osz := if f.opcode == Op.rdLine then 0 else f.osz
    dst := f.dst, addr := f.addr, tenant := f.tenant, epoch := f.epoch, coherent := coherentFill s f }

/-- A combine entry. -/
def entOf (s : State) (id : Nat) : Option CEntry := s.cmb.ents.find? fun x => x.id == id

/-- A combine entry changed. -/
def modEnt (s : State) (id : Nat) (f : CEntry → CEntry) : State :=
  { s with cmb := { s.cmb with ents := modWhere s.cmb.ents (fun x => x.id == id) f } }

/-- A combine entry freed (R130); the transaction that its lead kept on the line ends with it (R166). -/
def freeEnt (s : State) (id : Nat) : State :=
  let kept : Txn → Bool := fun t => t.ran && decide (t.entry = some id)
  let any := s.coh.txns.any kept
  let s := { s with cmb := { s.cmb with ents := s.cmb.ents.filter fun x => x.id != id }
                    coh := { s.coh with txns := s.coh.txns.filter fun t => !kept t } }
  if any then cohPumpAll s else s

/-- Entries of one slice (R123). -/
def sliceEntries : Nat := 16384

/-- Members of one entry (R128). -/
def entryMembers : Nat := 1024

/-! ### Executing a request -/

/-- The answer of tier 1: to the combine entry the request leads, or to its requester. -/
def answerRun (s : State) (e : EReq) (entry : Option Nat) (d : Done) : State :=
  match entry with
  | some id => modEnt s id fun x => { x with res := some (d.st, d.data) }
  | none => finishReq s e.f (doneCpl e.f d)

/-- A request sent to its destination: run on tier 1, given to the coherence home, or forwarded to its port (R102, R155,
R728). A write or an atomic closes the read entries of its line (R128). -/
def runAt (s : State) (e : EReq) (entry : Option Nat) : State :=
  let f := e.f
  let s := if f.opcode == Op.rdLine then s else closeReads s f.dst f.addr
  match localAt s f.dst with
  | some .own =>
    let plain := let r := t1Run s e; answerRun r.1 e entry r.2
    match agentOf s f with
    | some p =>
      let s := if opSequenced f.opcode && entry.isNone then (if (logFind s (pairOf f) f.seq).isNone then logAdd s f (.pending []) else s) else s
      let line := lineNo s f.addr
      if opLineWrite f.opcode then cohWrite s p e
      else if opAtomic f.opcode then cohStart s .atomic p line e entry
      else if f.subop == 1 then cohStart s .readOwn p line e entry
      else if f.subop == 2 then cohStart s .claim p line e entry
      else if (partOf s p).detaching then plain
      else cohStart s .readShared p line e entry
    | none => plain
  | some o => forwardTo s o f entry
  | none => s

/-- Whether R418 refuses a request with DUR = 1 on tier 1. -/
def durDenied (s : State) (f : Req) : Bool :=
  f.dur && match objAt s f.addr.toNat with
    | some (oid, o) => f.opcode == Op.rdLine || (agentOf s f).isSome || decide (durCheck s f.addr.toNat oid o = some .denied)
    | none => true

/-- What refuses a request before it is combined or sent on: DUR where R418 does not honour it, Table 11.4, and the checks of a
tier-1 page (R329, R472, R591, R594). -/
def preCheck (s : State) (e : EReq) : Option Status :=
  let f := e.f
  match localAt s f.dst with
  | some .own =>
    let write := f.opcode != Op.rdLine || (f.subop == 2 && (agentOf s f).isSome)
    if durDenied s f then some .denied else t1Check s f.addr.toNat f.tenant f.src e.gen write
  | some _ => if f.dur then some .denied else poolCheck s f
  | none => none

/-- A request joins an open entry (R127, R137). -/
def joinEnt (s : State) (x : CEntry) (e : EReq) : State :=
  let n := x.members.length + 1
  let s := modEnt s x.id fun y => { y with members := y.members ++ [e], isOpen := y.isOpen && decide (n < entryMembers) }
  if opSequenced e.f.opcode then
    let s := modOrd s (pairOf e.f) fun o => { o with joiner := some x.id }
    if (logFind s (pairOf e.f) e.f.seq).isNone then logAdd s e.f (.pending []) else s
  else s

/-- A request allocates an entry and becomes its lead (R126). -/
def leadEnt (s : State) (e : EReq) : State :=
  let id := s.cmb.nextId
  let x : CEntry := { id := id, slice := sliceOf s e.f, key := keyOf s e.f, members := [e], isOpen := true, res := none,
                      at_ := s.counter, followup := false, sentAt := s.counter, filling := false }
  let s := { s with cmb := { s.cmb with ents := s.cmb.ents ++ [x], nextId := id + 1 } }
  let s := if opSequenced e.f.opcode && (logFind s (pairOf e.f) e.f.seq).isNone then logAdd s e.f (.pending []) else s
  runAt s e (some id)

/-- A request at its slice: it joins, leads, or passes uncombined (R126 to R129, R164). -/
def combine (s : State) (e : EReq) : State :=
  if !combinable s e.f then runAt s e none
  else
    let k := keyOf s e.f
    let slice := sliceOf s e.f
    let same := s.cmb.ents.filter fun x => x.slice == slice && decide (x.key = k)
    match same.find? (·.isOpen) with
    | some x => joinEnt s x e
    | none =>
      if !same.isEmpty then runAt s e none
      else if sliceEntries ≤ (s.cmb.ents.filter fun x => x.slice == slice).length then
        runAt { s with cmb := { s.cmb with pass := satInc 32 s.cmb.pass } } e none
      else leadEnt s e

/-- A read at its egress, its RAW hold over (R99, R122). -/
def readGo (s : State) (e : EReq) : State :=
  match preCheck s e with
  | some st => finishWith s e.f st
  | none =>
    match localAt s e.f.dst with
    | some o => if outputUp s o then combine s e else dropFlushed s 1
    | none => s

/-! ### The pair order (R96 to R100) -/

/-- Whether R422 answers a request in turn with RETRY. -/
def retryDur (s : State) (e : EReq) : Bool :=
  e.f.dur && decide (localAt s e.f.dst = some .own) && (preCheck s e).isNone &&
    (match objAt s e.f.addr.toNat with
      | some (oid, o) => decide (durCheck s e.f.addr.toNat oid o = some .retry)
      | none => false)

/-- A request answered with RETRY, unapplied and unlogged (R422, Table 2.11). -/
def retryReq (s : State) (f : Req) : State := completeAt s f .retry []

/-- Whether a coherent transaction of a pair's sequenced request is not yet done: the request counts as being applied (R96, R155).
DEDUCED (log entry 13). -/
def pairWaits (s : State) (k : PairKey) : Bool :=
  s.coh.txns.any fun t => !t.ran && opSequenced t.f.f.opcode && decide (pairOf t.f.f = k)

/-- Whether a pair's later requests wait: for a joiner that is unanswered (R138), or for the request being applied. -/
def pairHolds (s : State) (k : PairKey) (o : Ord) : Bool := o.joiner.isSome || pairWaits s k

/-- A request in turn applied: E moves past it unless RETRY or a port that is down leaves it (R96, R422, R728). One with NEWP = 1
starts its pair (R97); DESIGN CHOICE (log entry 6): the start is recorded where the request is applied, so that a resend of one that
was not applied is no duplicate. -/
def applySeq (s : State) (e : EReq) : State :=
  let f := e.f
  let k := pairOf f
  if retryDur s e then
    let held := ((ordOf s k).map (·.held)).getD []
    let s := retryReq s f
    held.foldl (fun s h => retryReq s h.f) (modOrd s k fun o => { o with held := [], refusing := true })
  else match localAt s f.dst with
    | none => s
    | some o =>
      if !outputUp s o then s
      else
        let now := s.counter
        let s := logTrim (modOrd s k fun r =>
          { r with e := f.seq + 1, start := if f.newp then f.seq else r.start
                   startAt := if f.newp then some now else r.startAt }) k
        match preCheck s e with
        | some st => finishWith s f st
        | none => combine s e

/-- Whether a sequence number stands behind E (R96, R99). -/
def behind (e s : Seq) : Bool := decide (1 ≤ (e - s).toNat) && decide ((e - s).toNat ≤ 32768)

/-- A pair's held requests that are in turn, and its RAW reads that E has passed, go on while nothing of the pair makes them wait
(R96, R99, R138). -/
def drain (k : PairKey) : Nat → State → State
  | 0, s => s
  | n + 1, s =>
    match ordOf s k with
    | none => s
    | some o =>
      if pairHolds s k o then s
      else match o.raws.find? fun r => behind o.e r.f.seq with
        | some r => drain k n (readGo (modOrd s k fun o => { o with raws := eraseFirst (fun x => decide (x = r)) o.raws }) r)
        | none =>
          match o.held.find? fun h => h.f.seq == o.e with
          | some h =>
            drain k n (applySeq (modOrd s k fun o => { o with held := o.held.filter fun x => x.f.seq != h.f.seq }) h)
          | none => s

/-- A pair drained as far as it goes. -/
def drainPair (s : State) (k : PairKey) : State :=
  match ordOf s k with
  | some o => drain k (o.held.length + o.raws.length + 1) s
  | none => s

/-- Every pair drained: what the coherence home finished may have been what a pair waited for. -/
def drainAll (s : State) : State := s.egr.ord.foldl (fun s e => drainPair s e.1) s

/-- What follows a change that may have ended transactions of the coherence home: the pairs that waited for them go on. -/
def drainAfter (s t : State) : State := if t.coh.txns = s.coh.txns then t else drainAll t

/-- Pair entries the egress order table holds (Table 2.11). -/
def ordCapacity : Nat := 131072

/-- Room made for a new pair: the least recently used entry with nothing held, idle for 4 ms or more, leaves (Table 2.11). -/
def ordRoom (s : State) : Option State :=
  if s.egr.ord.length < ordCapacity then some s
  else
    let idle := s.egr.ord.filter fun e => e.2.held.isEmpty && e.2.raws.isEmpty && e.2.joiner.isNone &&
      decide (e.2.lastUse + 4000 ≤ s.counter)
    (leastBy (fun e : PairKey × Ord => e.2.lastUse) idle).map fun e =>
      { s with egr := { s.egr with ord := tdel s.egr.ord e.1 } }

/-- A new pair entry with E at a sequence number (R97, R98). -/
def newOrd (now : Nat) (q : Seq) : Ord :=
  { e := q, start := q, startAt := none, floor := none, held := [], raws := [], joiner := none, refusing := false, lastUse := now }

/-- A repeat of the request that started the pair less than 4 ms ago (R97). -/
def repeatsStart (s : State) (o : Ord) (q : Seq) : Bool :=
  o.start == q && o.startAt.any fun a => decide (s.counter < a + 4000)

/-- EGRESS_SEQUENCED_ARRIVE (R96 to R98, R138, R422). A request with NEWP = 1 sets E and discards what is held; while a joiner of the
pair is unanswered it is held itself. -/
def egressSeq (s : State) (f : Req) : State :=
  let k := pairOf f
  let e : EReq := ⟨f, genTag s f.tenant⟩
  let now := s.counter
  let put : State → Ord → State := fun s o => { s with egr := { s.egr with ord := tset s.egr.ord k o } }
  match ordOf s k with
  | none =>
    match ordRoom s with
    | none => retryReq s f
    | some s => drainPair (applySeq (put s (newOrd now f.seq)) e) k
  | some o =>
    let s := modOrd s k fun o => { o with lastUse := now }
    let d := (f.seq - o.e).toNat
    if f.newp then
      if repeatsStart s o f.seq then dupAnswer s f
      else if o.held.any fun h => h.f.newp && h.f.seq == f.seq then s
      else if pairHolds s k o then put s { newOrd now f.seq with floor := o.floor, joiner := o.joiner, held := [e] }
      else drainPair (applySeq (put s { newOrd now f.seq with floor := o.floor }) e) k
    else if behind o.e f.seq then dupAnswer s f
    else if o.refusing then retryReq s f
    else if d = 0 && !pairHolds s k o then drainPair (applySeq s e) k
    else if d ≤ 4095 then
      (if o.held.any fun h => h.f.seq == f.seq then s else modOrd s k fun o => { o with held := o.held ++ [e] })
    else s

/-- EGRESS_READ_ARRIVE (R99, R122, R138). -/
def egressRead (s : State) (f : Req) : State :=
  let e : EReq := ⟨f, genTag s f.tenant⟩
  if f.raw then
    match ordOf s (pairOf f) with
    | none => completeAt s f .retry []
    | some o =>
      if behind o.e f.seq && !pairHolds s (pairOf f) o then readGo s e
      else modOrd s (pairOf f) fun o => { o with raws := o.raws ++ [e] }
  else readGo s e

/-! ### Leads, follow-ups and joiners (R131 to R139) -/

/-- The operand of a member. -/
def memberArg (e : EReq) : Nat := atomArg e.f

/-- The value that stands before each joiner in merge order, from the old value of the follow-up (Table 3.2). -/
def joinerOlds (k : CKey) (old : Nat) : List EReq → List Nat
  | [] => []
  | e :: es => old :: joinerOlds k (atomNew k.opcode k.subop (8 * oszBytes k.osz) old (memberArg e) 0) es

/-- The folded operand of the joiners (Table 3.2). -/
def foldArgs (k : CKey) : List EReq → Nat
  | [] => 0
  | e :: es => es.foldl (fun a x => atomNew k.opcode k.subop (8 * oszBytes k.osz) a (memberArg x) 0) (memberArg e)

/-- A joiner is answered: its pair goes on (R138, R139). -/
def joinerDone (s : State) (e : EReq) : State :=
  if opSequenced e.f.opcode then drainPair (modOrd s (pairOf e.f) fun o => { o with joiner := none }) (pairOf e.f) else s

/-- A joiner completed with a status and data (R135, R140). -/
def answerJoiner (s : State) (e : EReq) (st : Status) (data : List Byte) : State :=
  let r := if st = .poison then poisonAnswer s e.f else (s, ⟨st, if st = .ok then data else [], false⟩)
  joinerDone (finishReq r.1 e.f (doneCpl e.f r.2)) e

/-- The requesters and tags of members. -/
def askers (es : List EReq) : List (Ep × Tag) := es.map fun e => (e.f.src, e.f.tag)

/-- Every joiner completed with one status and the same data: one answer, copied (R135, R140). -/
def answerJoiners (s : State) (es : List EReq) (st : Status) (data : List Byte) : State :=
  es.foldl (fun s e => answerJoiner s e st data) s

/-- Joiners released and forwarded uncombined, in merge order (R135). -/
def releaseJoiners (s : State) (es : List EReq) : State := es.foldl (fun s e => joinerDone (runAt s e none) e) s

/-- A READ_SHARED joiner's answer: its partition records the line first (R165). -/
def answerShared (s : State) (id : Nat) (e : EReq) (data : List Byte) : State :=
  match agentOf s e.f with
  | some p => cohStart s (.join data) p (lineNo s e.f.addr) e (some id)
  | none =>
    let s := answerJoiner s e .ok data
    modEnt s id fun x => { x with members := x.members.filter fun m => !decide (m = e) }

/-- READ_SHARED joiners answered; their entry is freed once every answer is queued (R130, R165). -/
def answerFills (s : State) (id : Nat) (es : List EReq) (data : List Byte) : State :=
  let s := modEnt s id fun x => { x with isOpen := false, filling := true, members := es }
  let s := es.foldl (fun s e => answerShared s id e data) s
  if (entOf s id).any fun x => x.members.isEmpty then freeEnt s id else s

/-- The follow-up atomic sent (R131): run on tier 1 as the lead was, or a device frame to the destination's port. -/
def sendFollowup (s : State) (x : CEntry) (lead : EReq) (joiners : List EReq) : State :=
  let f := { lead.f with payload := slice (leBytes (foldArgs x.key joiners) (oszBytes x.key.osz)) 0 16 }
  let now := s.counter
  let s := modEnt (closeReads s f.dst f.addr) x.id fun y =>
    { y with isOpen := false, followup := true, res := none, members := joiners, sentAt := now }
  match localAt s f.dst with
  | some .own =>
    let r := t1Run s { lead with f := f }
    modEnt r.1 x.id fun y => { y with res := some (r.2.st, r.2.data) }
  | some o =>
    let g := { f with src := ownEp s, tag := BitVec.ofNat 16 x.id, seq := 0, seqd := false, newp := false, rsnd := false, pgen := 0,
                      hop := 0 }
    forwardTo s o g (some x.id)
  | none => s

/-- The record of a POISON that a destination answered to an entry: it names the line; its SOURCE code is not stated (R135). -/
def entryPoison (s : State) (x : CEntry) : State :=
  if decide (localAt s x.key.dst = some .own) then s
  else raise (takeFree s 1) { report (Config.freeByte s.free) (.addr x.key.addr) locNone with action := 2, status := .poison }

/-- What a lead or follow-up returned: known to the entry, or as the destination behind a port answers. -/
def entryAnswer (s : State) (x : CEntry) (st : Status) (data : List Byte) : Option (Status × List Byte) :=
  match x.res with
  | some r => some r
  | none => if decide (localAt s x.key.dst = some .own) then none else some (st, data)

/-- An entry's request to a destination is answered. -/
def entryReturned (s : State) (id : Nat) : State :=
  { s with egr := { s.egr with dest := s.egr.dest.filter fun d => !decide (d.entry = some id) } }

/-- COMBINE_LEAD_COMPLETE (R131 to R135, R165). -/
def leadComplete (s : State) (id : Nat) (st : Status) (data : List Byte) : State :=
  match entOf s id with
  | none => s
  | some x =>
    match x.followup || x.filling, entryAnswer s x st data, x.members with
    | false, some (st, data), lead :: joiners =>
      let s := entryReturned s id
      let s := if !joiners.isEmpty && !(opAtomic x.key.opcode && decide (st = .ok)) then shareAnswer s (askers x.members) else s
      let d := if st = .poison then poisonAnswer s lead.f else (s, ⟨st, if st = .ok then data else [], false⟩)
      let s := finishReq d.1 lead.f (doneCpl lead.f d.2)
      let s := if st = .poison then entryPoison s x else s
      if joiners.isEmpty then freeEnt s id
      else match st with
        | .ok =>
          if opAtomic x.key.opcode then sendFollowup s x lead joiners
          else if x.key.coherent then answerFills s id joiners data
          else answerJoiners (freeEnt s id) joiners .ok data
        | .denied | .notOwner => releaseJoiners (freeEnt s id) joiners
        | st => answerJoiners (freeEnt s id) joiners st []
    | _, _, _ => s

/-- COMBINE_FOLLOWUP_COMPLETE (R132, R135, R139). -/
def followupComplete (s : State) (id : Nat) (st : Status) (data : List Byte) : State :=
  match entOf s id with
  | none => s
  | some x =>
    match x.followup, entryAnswer s x st data with
    | true, some (st, data) =>
      let s := freeEnt (entryReturned s id) id
      let s := if st = .ok then s else shareAnswer s (askers x.members)
      match st with
      | .ok =>
        let olds := joinerOlds x.key (leAt data 0 (oszBytes x.key.osz)) x.members
        (x.members.zip olds).foldl (fun s y => answerJoiner s y.1 .ok (atomAnswer y.1.f y.2)) s
      | .denied | .notOwner => releaseJoiners s x.members
      | st => answerJoiners s x.members st []
    | _, _ => s

/-- An entry ended with PATH_LOST for its lead, if unanswered, and every joiner; SRC is this device's own functions (R60,
R136). -/
def entryLost (s : State) (x : CEntry) : State :=
  let s := freeEnt (entryReturned s x.id) x.id
  x.members.foldl (fun s e => joinerDone (finishReq s e.f (mkCpl e.f (ownEp s) .pathLost [])) e) s

/-- COMBINE_DEST_TIMEOUT (R136): no answer within 400 µs. -/
def combineTimeout (s : State) (id : Nat) : State :=
  match entOf s id with
  | some x => if x.res.isNone && decide (x.sentAt + 400 ≤ s.counter) then entryLost s x else s
  | none => s

/-- The entries of a port that went down (R136). -/
def combineDown (s : State) (o : Port) : State :=
  (s.cmb.ents.filter fun x => decide (localAt s x.key.dst = some o)).foldl entryLost s

/-- JOIN_WINDOW_EXPIRE (R128): JOIN_US after allocation the entry closes; 0 acts as 1 (Table 3.6). -/
def joinExpire (s : State) (id : Nat) : State :=
  match entOf s id with
  | some x => if x.at_ + max 1 s.cmb.joinUs.toNat ≤ s.counter then modEnt s id fun y => { y with isOpen := false } else s
  | none => s

/-- DEST_ANSWER_RETURN (R728): the answer completes its request, or reaches the combine entry it belongs to. -/
def destAnswer (s : State) (c : Cpl) : State :=
  match s.egr.dest.find? fun d => d.f.src == c.dst && d.f.tag == c.tag && d.f.dst == c.src with
  | none => s
  | some d =>
    let s := { s with egr := { s.egr with dest := eraseFirst (fun x => decide (x = d)) s.egr.dest } }
    match d.entry with
    | some id => modEnt s id fun x => { x with res := some (statusOf c.status, c.data) }
    | none => finishReq s d.f { c with seq := d.f.seq, cls := d.f.cls, pgen := d.f.pgen, hop := 0 }

/-- COMPLETION_LOG_EVICT (R120): an answered entry leaves after 4 ms or once E has passed it by 4,096. -/
def logEvictRow (s : State) (k : PairKey) (q : Seq) : State :=
  match logFind s k q with
  | some e =>
    let answered := match e.state with
      | .pending _ => false
      | _ => true
    if answered && decide (e.at_ + 4000 ≤ s.counter) then logEvict s e else s
  | none => s

/-! ### Rows of the coherence home, after which pairs go on (R96) -/

/-- SNOOP_ANSWER (R158). -/
def execSnoopAnswer (p : PortNo) (tag : Tag) (data : Option (List Byte)) (s : State) : Res :=
  whenUp s fun s => drainAfter s (snoopAnswer s p tag data)
/-- SNOOP_TIMEOUT (R161). -/
def execSnoopTimeout (p : PortNo) (tag : Tag) (s : State) : Res := whenUp s fun s => drainAfter s (snoopTimeout s p tag)
/-- DETACH_FINISH (R163). -/
def execDetachFinish (p : PortNo) (s : State) : Res := whenUp s fun s => drainAfter s (detachFinish s p)

/-! ### Rows -/

/-- EGRESS_SEQUENCED_ARRIVE (R96). -/
def execEgressSequencedArrive (f : Req) (s : State) : Res := 
  whenUp s fun s => if opSequenced f.opcode then endBegan (drainAfter s (egressSeq s f)) f else s
/-- EGRESS_READ_ARRIVE (R122). -/
def execEgressReadArrive (f : Req) (s : State) : Res :=
  whenUp s fun s => if f.opcode == Op.rdLine then endBegan (egressRead s f) f else s
/-- READ_SHARED (R155). -/
def execReadShared (f : Req) (s : State) : Res := whenUp s fun s => endBegan (egressRead s { f with opcode := Op.rdLine, subop := 0 }) f
/-- READ_OWN (R155). -/
def execReadOwn (f : Req) (s : State) : Res := whenUp s fun s => endBegan (egressRead s { f with opcode := Op.rdLine, subop := 1 }) f
/-- CLAIM (R155). -/
def execClaim (f : Req) (s : State) : Res := whenUp s fun s => endBegan (egressRead s { f with opcode := Op.rdLine, subop := 2 }) f
/-- DEST_ANSWER_RETURN (R728). -/
def execDestAnswerReturn (c : Cpl) (s : State) : Res := whenUp s fun s => destAnswer s c
/-- COMPLETION_LOG_EVICT (R120). -/
def execCompletionLogEvict (src dst : Ep) (cls : Cls) (seq : Seq) (s : State) : Res :=
  whenUp s fun s => logEvictRow s (src, dst, cls) seq
/-- JOIN_WINDOW_EXPIRE (R128). -/
def execJoinWindowExpire (e : Nat) (s : State) : Res := whenUp s fun s => joinExpire s e
/-- COMBINE_LEAD_COMPLETE (R131). -/
def execCombineLeadComplete (e : Nat) (st : Status) (data : List Byte) (s : State) : Res :=
  whenUp s fun s => drainAfter s (leadComplete s e st data)
/-- COMBINE_FOLLOWUP_COMPLETE (R132). -/
def execCombineFollowupComplete (e : Nat) (st : Status) (data : List Byte) (s : State) : Res :=
  whenUp s fun s => drainAfter s (followupComplete s e st data)
/-- COMBINE_DEST_TIMEOUT (R136). -/
def execCombineDestTimeout (e : Nat) (s : State) : Res := whenUp s fun s => combineTimeout s e

end Sys2Proof.Machine
end

