-- ==== Sys2Proof/Machine/Ingress.lean ====
section
/-! DEFINITION. The ingress device: the window check (R77 to R84), pair counters and the request tracker (R88 to R95), fences
and release stores (R103 to R108), resends and PATH_LOST (R112 to R119), policers and admission (R573 to R577). -/

namespace Sys2Proof.Machine

/-! ### Sources, pairs and the tracker -/

/-- A source with nothing issued. -/
def SrcRec.blank : SrcRec := ⟨0, 0, [], none, []⟩

/-- A source's record. -/
def srcOf (s : State) (e : Ep) : SrcRec := tgetD s.ing.srcs e SrcRec.blank

/-- A source's record changed. -/
def modSrc (s : State) (e : Ep) (f : SrcRec → SrcRec) : State :=
  { s with ing := { s.ing with srcs := tset s.ing.srcs e (f (srcOf s e)) } }

/-- A new pair: its counter at 0, its first sequenced request with NEWP = 1 (R93). -/
def newPair (now slot : Nat) : Pair :=
  { next := 0, newp := true, gated := false, settleUntil := 0, oldestResent := none, slot := slot, lastUse := now }

/-- A pair's counter at the ingress device. -/
def pairRec (s : State) (k : PairKey) : Option Pair := tget s.ing.pairs k

/-- A pair's counter changed. -/
def modPair (s : State) (k : PairKey) (f : Pair → Pair) : State :=
  match pairRec s k with
  | some r => { s with ing := { s.ing with pairs := tset s.ing.pairs k (f r) } }
  | none => s

/-- A line or atomic request: the requests of a release scope (R103). -/
def opScoped (o : BitVec 8) : Bool := opLine o || opAtomic o

/-- A request that belongs to a pair: RD_LINE or sequenced (R56). -/
def opPaired (o : BitVec 8) : Bool := o == Op.rdLine || opSequenced o

/-- A request of the tracker by its source and tag (R59). -/
def trackOf (s : State) (src : Ep) (tag : Tag) : Option Track := s.ing.trk.find? fun t => t.f.src == src && t.f.tag == tag

/-- A request of the tracker changed. -/
def modTrack (s : State) (src : Ep) (tag : Tag) (g : Track → Track) : State :=
  { s with ing := { s.ing with trk := modWhere s.ing.trk (fun t => t.f.src == src && t.f.tag == tag) g } }

/-- Whether an outstanding request, a held FENCE or WR_LINE_REL, or a hold of R117 bears a tag (R91, R117). -/
def tagInUse (s : State) (src : Ep) (tag : Tag) : Bool :=
  (trackOf s src tag).isSome || (s.ing.holds.any fun h => h.1 == src && h.2.1 == tag) ||
    ((srcOf s src).fence.any fun h => h.f.tag == tag) || (srcOf s src).rels.any fun h => h.f.tag == tag

/-- Sequenced requests of a pair that are outstanding. -/
def pairSequenced (s : State) (k : PairKey) : Bool :=
  s.ing.trk.any fun t => decide (pairOf t.f = k) && opSequenced t.f.opcode

/-- Whether a pair has anything outstanding. -/
def pairBusy (s : State) (k : PairKey) : Bool := s.ing.trk.any fun t => decide (pairOf t.f = k) && opPaired t.f.opcode

/-- How a request of a scope ended, noted for its FENCE or WR_LINE_REL (R104, R107). -/
def noteEnd (s : State) (src : Ep) (opcode : BitVec 8) (scope : Nat) (st : Status) : State :=
  if !opScoped opcode || opcode == Op.wrLineRel then s
  else modSrc s src fun r =>
    let e := (r.ends.find? fun x => x.scope == scope).getD ⟨scope, false, false, false⟩
    let e : ScopeEnd := { scope := scope, lost := e.lost || decide (st = .pathLost)
                          failed := e.failed || !(decide (st = .ok) || decide (st = .altDelivered))
                          notOk := e.notOk || decide (st ≠ .ok) }
    { r with ends := (r.ends.filter fun x => x.scope != scope) ++ [e] }

/-- A completion the ingress device makes itself (R60). -/
def ingressCpl (s : State) (p : Port) (f : Req) (st : Status) : State := deliver s p (mkCpl f (ownEp s) st [])

/-- A SRC and TAG kept for 4 ms after PATH_LOST (R117). -/
def holdTag (s : State) (src : Ep) (tag : Tag) : State :=
  { s with ing := { s.ing with holds := s.ing.holds ++ [(src, tag, s.counter + 4000)] } }

/-- One request ended with PATH_LOST at its ingress device (R115, R117, R468). -/
def lostOne (s : State) (p : Port) (f : Req) (scope : Nat) : State :=
  noteEnd (holdTag (ingressCpl s p f .pathLost) f.src f.tag) f.src f.opcode scope .pathLost

/-- A window notice held for a start that has ended (R235). -/
def dropWin (s : State) (src : Ep) (tag : Tag) : State := { s with acc := { s.acc with wins := tdel s.acc.wins (src, tag) } }

/-- The outstanding requests that meet `gone` ended with PATH_LOST. -/
def loseWhere (s : State) (gone : Track → Bool) : State :=
  let mine := s.ing.trk.filter gone
  let s := { s with ing := { s.ing with trk := s.ing.trk.filter fun x => !gone x } }
  mine.foldl (fun s x => dropWin (lostOne s x.port x.f x.scope) x.f.src x.f.tag) s

/-- What PATH_LOST of one request does to its pair: every other outstanding request of the pair ends with it, and the pair
restarts (R115). -/
def losePair (s : State) (f : Req) : State :=
  if opPaired f.opcode then
    modPair (loseWhere s fun x => decide (pairOf x.f = pairOf f) && opPaired x.f.opcode) (pairOf f) fun r =>
      { r with newp := true, gated := false }
  else s

/-- An outstanding request ended with PATH_LOST, and with it every other of its pair (R115). -/
def loseReq (s : State) (t : Track) : State :=
  if opPaired t.f.opcode then losePair s t.f else loseWhere s fun x => x.f.src == t.f.src && x.f.tag == t.f.tag

/-! ### The window check (R77 to R81, R144, R146, R153, R593, R727) -/

/-- The permission a line or atomic opcode needs (Table 2.5). -/
def winPerm (o : BitVec 8) (w : Win) : Bool :=
  if o == Op.rdLine then winRd w else if opLineWrite o then winWr w else winAt w

/-- The port of a lane has an attached coherent agent, none that is being detached (R145, R163). -/
def attachedAt (s : State) (p : Port) : Bool :=
  match p with
  | .lane q => (partOf s q).attached && !(partOf s q).detaching
  | _ => false

/-- A line or atomic request passes the window check (R77, R78, R146, R153). -/
def lineWinOk (s : State) (p : Port) (f : Req) : Bool :=
  let n := if opAtomic f.opcode then oszBytes f.osz else 128
  match winFor (liveWins s p) f.addr.toNat with
  | none => false
  | some w =>
    winHolds w (f.addr.toNat + n - 1) && winTarget w == f.dst && winTenant w == f.tenant && winPerm f.opcode w &&
      (!winCoh w || f.opcode == Op.rdLine || attachedAt s p) &&
      (f.opcode != Op.rdLine || f.subop == 0 || (winCoh w && attachedAt s p))

/-- A range a request names passes the check against the windows that lead to its DST (R77, R78, R146, R189, R309). -/
def rangeWin (ws : List Win) (f : Req) (r : Named) : Option Win :=
  match winFor (ws.filter fun w => winTarget w == f.dst) r.lo with
  | none => none
  | some w =>
    if winHolds w r.hi && winTenant w == f.tenant && winObj w &&
        !(ws.any fun v => winCoh v && decide (winBase v ≤ r.hi) && decide (r.lo ≤ winLimit v)) && !(r.zskip && winProt w)
    then some w else none

/-- Length of an RD_OBJ's DADDR range as the ingress device knows it: whole at the device of the object. DESIGN CHOICE (log entry 82): at
another, which knows the number of rows and not their length, one byte a row. -/
def daddrBytes (s : State) (f : Req) : Nat :=
  match objOf s (BitVec.ofNat 40 (leAt f.payload 0 5)) with
  | some o => max 1 (leAt f.payload 16 4 * o.rowBytes)
  | none => max 1 (leAt f.payload 16 4)

/-- Every range of an engine or object request passes, and no PROT source has a PROT = 0 output (R189, R593). -/
def rangesOk (s : State) (p : Port) (f : Req) : Bool :=
  let ws := liveWins s p
  let rs := (namedRanges f (daddrBytes s f)).map fun r => (r, rangeWin ws f r)
  (rs.all fun x => x.2.isSome) &&
    !((rs.any fun x => !x.1.out && x.2.any winProt) && (rs.any fun x => x.1.out && x.2.any fun w => !winProt w))

/-- R221's window condition. -/
def anyWindow (s : State) (p : Port) (f : Req) : Bool :=
  (liveWins s p).any fun w => winObj w && winTarget w == f.dst && winTenant w == f.tenant

/-- Whether a port carries a class (R528). -/
def carriesAt (s : State) (p : Port) (c : Cls) : Bool :=
  match p with
  | .lane q => carried (portOf s q) c
  | .host => s.hp.classes.getLsbD c.toNat
  | .own => true

/-- What the ingress device refuses of any request before the window check (R53, R54, R62, R63, R528, R350, R727). -/
def formBad (s : State) (p : Port) (f : Req) : Bool :=
  headerBad f || portEp s p != some f.src || f.cls == 7 || !carriesAt s p f.cls || (opOwn f.opcode && !isOwnEp s f.dst)

/-- Whether the ingress device refuses a request with DENIED, in the condition it is released in (R53 to R91, R188 to R192,
R221, R456, Table 15.2 step 2). -/
def ingressBad (s : State) (p : Port) (f : Req) : Bool :=
  formBad s p f || tagInUse s f.src f.tag || addrBad f || engineBad f || isRemoving s f.tenant ||
    (if opScoped f.opcode then !lineWinOk s p f else (opAnyWindow f.opcode && !anyWindow s p f) || !rangesOk s p f)

/-! ### Release from the port buffer -/

/-- The composition of a port (R455). -/
def portCompOf (s : State) (p : Port) : CompId :=
  match p with
  | .lane q => tgetD s.lse.portComp q 0
  | _ => 0

/-- The epoch a port's requests are stamped with (R455). -/
def stampOf (s : State) (p : Port) : Epoch := if portCompOf s p = 0 then 0 else (compRec s (portCompOf s p)).stamp

/-- A frame of a composition sent or resent: the count of the latest one of its epoch (R461 step 7). -/
def stampSent (s : State) (c : CompId) (e : Epoch) : State :=
  if c = 0 then s
  else
    let now := s.counter
    modComp s c fun r => if e == r.stamp then { r with sentAt := some now } else { r with oldAt := some now }

/-- Sequenced requests a source has outstanding (R89). -/
def sequencedOut (s : State) (e : Ep) : Nat := (s.ing.trk.filter fun t => t.f.src == e && opSequenced t.f.opcode).length

/-- Non-sequenced entries of the tracker in use, held tags included (R117, Table 2.11). -/
def plainOut (s : State) : Nat := (s.ing.trk.filter fun t => !opSequenced t.f.opcode).length + s.ing.holds.length

/-- Pair counters (Table 2.11). -/
def pairCapacity : Nat := 262144
/-- Non-sequenced tracker entries (Table 2.11). -/
def trackCapacity : Nat := 1048576

/-- The pair counters with room for one more: the least recently used idle one leaves (Table 2.11). -/
def pairRoom (s : State) : Option State :=
  if s.ing.pairs.length < pairCapacity then some s
  else
    let idle := s.ing.pairs.filter fun e => !pairBusy s e.1 && decide (e.2.settleUntil ≤ s.counter) &&
      decide (e.2.lastUse + 8000 ≤ s.counter)
    (leastBy (fun e : PairKey × Pair => e.2.lastUse) idle).map fun e =>
      { s with ing := { s.ing with pairs := tdel s.ing.pairs e.1 } }

/-- A segment frame. -/
def isSegment (f : Req) : Bool := f.opcode == Op.accContrib && f.subop == 1

/-- Whether what stands before a request on its port or its pair holds it (R105, R106, R235, R575). -/
def heldByEarlier (s : State) (h : Held) (pre : List Held) : Bool :=
  let r := srcOf s h.f.src
  let fenced := (r.fence.any fun x => decide (x.order < h.order)) ||
    pre.any fun x => x.f.src == h.f.src && x.f.opcode == Op.fence
  let samePort := (pre ++ r.rels).filter fun x => decide (x.port = h.port) && decide (x.order < h.order)
  let classHeld := h.f.opcode != Op.fence && samePort.any fun x => x.polHeld && x.f.cls == h.f.cls
  let segHeld := (pre.any fun x => decide (x.port = h.port) && isSegment x.f && !x.polHeld)
  let pairHeld := opPaired h.f.opcode &&
    ((pre.any fun x => decide (pairOf x.f = pairOf h.f) && opPaired x.f.opcode) ||
     r.rels.any fun x => decide (pairOf x.f = pairOf h.f) && decide (x.order < h.order))
  fenced || classHeld || segHeld || pairHeld

/-- Whether the ordering tables hold a request that would be forwarded (R89, R93, R119, Table 2.11), or the coherence home's table
of transactions a coherent one (Table 3.12). -/
def heldByTables (s : State) (f : Req) : Bool :=
  let sq := opSequenced f.opcode
  let full := (opScoped f.opcode && (agentOf s f).isSome) && decide (txnLimit ≤ s.coh.txns.length)
  let gate := match pairRec s (pairOf f) with
    | none => opPaired f.opcode && (pairRoom s).isNone
    | some r => opPaired f.opcode && (r.gated || (sq && decide (s.counter < r.settleUntil) &&
        (match r.oldestResent with
         | some o => decide (16384 < (r.next - o).toNat)
         | none => false)))
  full || gate || (sq && decide (4096 ≤ sequencedOut s f.src)) || (!sq && decide (trackCapacity ≤ plainOut s))

/-- What the policer and the admission bucket of a port say of a frame (R574 to R577). -/
inductive Policed where
  | go (counted : Bool)
  | hold
  | refuse
deriving DecidableEq, Repr

/-- Whether an operation may complete with RETRY in its chapter's table (R575, Tables 2.12, 4.19, 5.10, 6.6, R346, R410, Table 11.9). -/
def mayRetry (f : Req) : Bool :=
  !(f.opcode == Op.fence || f.opcode == Op.rdObj || f.opcode == Op.accClose || isSegment f)

/-- The verdict on a frame: class 7 is not policed (R573 to R577). -/
def police (s : State) (p : Port) (f : Req) : Policed :=
  let x := shpOf s p
  let k := wheelTick x
  let act := polAct x f.cls
  let ok := act == 0 || bucketEligible (polBucket x f.cls) k
  if f.cls == 7 || f.opcode == Op.fence then .go false
  else if !ok && act == 3 && mayRetry f then .refuse
  else if !ok && (act == 2 || act == 3) then .hold
  else if !bucketEligible x.adm k then .hold
  else .go (!ok)

/-- The charge of a released frame to its policer and the admission bucket (R576). -/
def chargeIn (s : State) (p : Port) (f : Req) (counted : Bool) : State :=
  if f.cls == 7 || f.opcode == Op.fence then s
  else modShp s p fun x =>
    let k := wheelTick x
    let n := countedLength x (.req f)
    let pol := if polAct x f.cls = 0 then x.pol else tset x.pol f.cls (bucketCharge (polBucket x f.cls) k n)
    { x with pol := pol, adm := bucketCharge x.adm k n, held := if counted then satInc 32 x.held else x.held }

/-- SHP_POL_HELD counts a request that its policer begins to hold (Table 14.1). -/
def countHeld (s : State) (p : Port) (f : Req) : State :=
  let x := shpOf s p
  if polAct x f.cls == 0 || bucketEligible (polBucket x f.cls) (wheelTick x) then s
  else modShp s p fun x => { x with held := satInc 32 x.held }

/-- SHP_POL_REFUSED counts a request that its policer refuses (Table 14.1). -/
def countRefused (s : State) (p : Port) : State := modShp s p fun x => { x with refused := satInc 32 x.refused }

/-- The port a pair's request leaves by towards a device: its slot is chosen again while the pair is idle (R546, R547). -/
def pairPort (s : State) (d : DevId) (f : Req) : Option (Nat × PortNo) :=
  let k := pairOf f
  match pairRec s k with
  | none => chooseSlot s d f.src f.dst f.cls none
  | some r =>
    if !pairBusy s k && decide (r.settleUntil ≤ s.counter) then chooseSlot s d f.src f.dst f.cls (some r.slot)
    else usableFrom s (devId s) d (slotsTo s d) r.slot

/-- A removal in progress here notes a frame of its tenant that is sent (Table 15.2 step 6). -/
def stampRun (s : State) (t : TenantId) : State :=
  match tget s.sec.runs t with
  | some r => { s with sec := { s.sec with runs := tset s.sec.runs t { r with lastFrame := s.counter } } }
  | none => s

/-- A request's first forwarding: the ingress fields written, its pair and the tracker updated, the frame sent (R52, R80, R88,
R90, R93, R95, R455). -/
def forward (s : State) (h : Held) : State :=
  let f := h.f
  let k := pairOf f
  let now := s.counter
  let remote := (localAt s f.dst).isNone
  let d := (epDev s f.dst).getD 0
  let out := if !remote then none
    else if opPaired f.opcode then pairPort s d f else staticSlot s d f.src f.dst f.cls
  let slot := (out.map (·.1)).getD 0
  let s := if opPaired f.opcode && (pairRec s k).isNone then
      let s := (pairRoom s).getD s
      { s with ing := { s.ing with pairs := tset s.ing.pairs k (newPair now slot) } }
    else s
  let r := (pairRec s k).getD (newPair now slot)
  let sq := opSequenced f.opcode
  let raw := f.opcode == Op.rdLine && pairSequenced s k
  let g : Req := { f with seq := if sq then r.next else if raw then r.next - 1 else 0, epoch := stampOf s h.port, chk := true, pgen := 0,
                          rsnd := false, seqd := sq, newp := sq && r.newp, raw := raw, hop := 0 }
  let s := modPair s k fun r =>
    if sq then { r with next := r.next + 1, gated := r.newp, newp := false, slot := slot, lastUse := now }
    else { r with slot := slot, lastUse := now }
  let path := match out with
    | some x => pathFrom s d 8 (devId s) x.2
    | none => []
  let c := portCompOf s h.port
  let t : Track := { f := g, port := h.port, first := now, latest := now, order := h.order, scope := h.scope, path := path, comp := c }
  let s := stampSent (stampRun s f.tenant) c g.epoch
  let s := { s with ing := { s.ing with trk := s.ing.trk ++ [t] } }
  match out with
  | some x => sendReqOn s h.port g x.2 now
  | none => sendReq s h.port g now

/-- A request leaving the port buffer: refused, ended at once, held by its policer (none), or forwarded (R456, R468, R574); RETRY
comes before PATH_LOST (R22). -/
def releaseOne (s : State) (h : Held) : Option State :=
  let f := h.f
  let p := h.port
  let free : State → State := fun s => freeLanding s p f
  let lost := decide ((compRec s (portCompOf s p)).state = .down) || !hasRoute s f.dst
  if ingressBad s p f then some (free (ingressCpl s p f .denied))
  else match police s p f, lost with
    | .refuse, _ => some (free (countRefused (ingressCpl s p f .retry) p))
    | _, true => some (losePair (free (lostOne s p f h.scope)) f)
    | .hold, false => none
    | .go counted, false => some (forward (chargeIn s p f counted) h)

/-- B and W as the ingress device holds them for a member's start (R235). -/
def winOf (s : State) (src : Ep) (tag : Tag) : Nat × Nat :=
  match tget s.acc.wins (src, tag) with
  | some n => (n.b, n.w)
  | none => (0, 1)

/-- A segment frame leaving the port buffer: discarded and counted, held (none), or forwarded (R233, R235, R575). -/
def releaseSegment (s : State) (h : Held) : Option State :=
  let f := h.f
  let start := match trackOf s f.src f.tag with
    | some t => t.f.opcode == Op.accContrib && t.f.subop == 0
    | none => false
  if formBad s h.port f || !start then
    some (freeLanding { s with acc := { s.acc with stray := satInc 32 s.acc.stray } } h.port f)
  else
    let w := winOf s f.src f.tag
    if w.1 + w.2 ≤ f.addr.toNat / 65536 then none
    else match police s h.port f with
      | .go counted =>
        let g : Req := { f with seq := 0, epoch := stampOf s h.port, chk := true, pgen := 0, rsnd := false, seqd := false,
                                newp := false, raw := false, hop := 0 }
        some (sendReq (chargeIn s h.port f counted) h.port g s.counter)
      | _ => none

/-! ### WR_LINE_REL and FENCE (R103 to R108) -/

/-- Whether an earlier request of a source has not completed. -/
def earlierOpen (s : State) (h : Held) (p : BitVec 8 → Bool) : Bool :=
  (s.ing.trk.any fun t => t.f.src == h.f.src && decide (t.order < h.order) && p t.f.opcode) ||
    (s.ing.buf.any fun x => x.f.src == h.f.src && decide (x.order < h.order) && p x.f.opcode && !isSegment x.f) ||
    (srcOf s h.f.src).rels.any fun x => decide (x.order < h.order) && p x.f.opcode

/-- How the requests of a scope ended. -/
def scopeEnd (s : State) (src : Ep) (scope : Nat) : ScopeEnd :=
  ((srcOf s src).ends.find? fun x => x.scope == scope).getD ⟨scope, false, false, false⟩

/-- Whether a WR_LINE_REL's conditions hold: earlier sequenced requests acknowledged, its scope complete (R104). -/
def relReady (s : State) (h : Held) : Bool :=
  !earlierOpen s h opSequenced &&
    !(s.ing.trk.any fun t => t.f.src == h.f.src && t.scope == h.scope && opScoped t.f.opcode && decide (t.order < h.order)) &&
    !(s.ing.buf.any fun x => x.f.src == h.f.src && x.scope == h.scope && opScoped x.f.opcode && decide (x.order < h.order))

/-- A source's WR_LINE_REL taken from its list. -/
def takeRel (s : State) (h : Held) : State :=
  modSrc s h.f.src fun r => { r with rels := r.rels.filter (fun x => x.order != h.order)
                                     ends := r.ends.filter fun x => x.scope != h.scope }

/-- A WR_LINE_REL whose conditions hold goes on: ABORTED when its scope failed, otherwise forwarded (R104). -/
def relGo (s : State) (h : Held) : State :=
  if !relReady s h then s
  else if ingressBad (takeRel s h) h.port h.f then
    freeLanding (ingressCpl (takeRel s h) h.port h.f .denied) h.port h.f
  else if (scopeEnd s h.f.src h.scope).notOk then freeLanding (ingressCpl (takeRel s h) h.port h.f .aborted) h.port h.f
  else if heldByTables s h.f then s
  else match releaseOne (takeRel s h) h with
    | some t => t
    | none =>
      if h.polHeld then s
      else modSrc (countHeld s h.port h.f) h.f.src fun r =>
        { r with rels := modWhere r.rels (fun x => x.order == h.order) fun x => { x with polHeld := true } }

/-- WR_LINE_REL_RELEASE (R104): the oldest WR_LINE_REL of a source that is ready goes on. -/
def relRelease (s : State) (src : Ep) : State :=
  match (srcOf s src).rels.find? fun h => relReady s h with
  | some h => relGo s h
  | none => s

/-- FENCE_COMPLETE (R107): the FENCE completes once every earlier request of the source has. -/
def fenceComplete (s : State) (src : Ep) : State :=
  match (srcOf s src).fence with
  | none => s
  | some h =>
    if earlierOpen s h fun _ => true then s
    else
      let e := scopeEnd s src h.scope
      let st := if e.lost then .pathLost else if e.failed then .aborted else .ok
      let s := modSrc s src fun r => { r with fence := none, ends := r.ends.filter fun x => x.scope != h.scope }
      freeLanding (ingressCpl s h.port h.f st) h.port h.f

/-! ### Arrival and release -/

/-- A held request taken from the port buffer. -/
def takeHeld (s : State) (h : Held) : State :=
  { s with ing := { s.ing with buf := eraseFirst (fun x => x.order == h.order && x.f.src == h.f.src) s.ing.buf } }

/-- A held request marked as held by its policer, counted once (R574). -/
def markHeld (s : State) (h : Held) : State :=
  if h.polHeld then s
  else
    let s := countHeld s h.port h.f
    { s with ing := { s.ing with buf := modWhere s.ing.buf (fun x => x.order == h.order && x.f.src == h.f.src) fun x =>
        { x with polHeld := true } } }

/-- DEDUCED (log entry 26): an ORDERED engine request waits at ingress while an earlier engine request of its source to its destination
is still held there, or is outstanding in another class and could be overtaken; the executing device sees to the rest (Table 4.6). -/
def heldOrdered (s : State) (h : Held) (pre : List Held) : Bool :=
  let earlier : Req → Bool := fun f => opEngine f.opcode && !isSegment f && f.src == h.f.src && f.dst == h.f.dst
  opHeaded h.f.opcode && hdrOrdered h.f &&
    (pre.any (fun x => earlier x.f) || s.ing.trk.any fun t => earlier t.f && decide (t.order < h.order) && t.f.cls != h.f.cls)

/-- One held request tried: what releases it, or none while something holds it. -/
def tryHeld (s : State) (h : Held) (pre : List Held) : Option State :=
  if heldByEarlier s h pre then none
  else if h.f.opcode = Op.fence then some (fenceComplete (modSrc (takeHeld s h) h.f.src fun r => { r with fence := some h }) h.f.src)
  else if h.f.opcode = Op.wrLineRel then
    some (relGo (modSrc (takeHeld s h) h.f.src fun r => { r with rels := r.rels ++ [h] }) h)
  else if isSegment h.f then releaseSegment (takeHeld s h) h
  else if heldByTables s h.f || heldOrdered s h pre then none
  else releaseOne (takeHeld s h) h

/-- The first held request of a port that can be released, with what it leaves; a request its policer holds is marked. -/
def tryBuf (p : Port) : List Held → List Held → State → State × Bool
  | _, [], s => (s, false)
  | pre, h :: rest, s =>
    if decide (h.port = p) then
      match tryHeld s h pre with
      | some t => (t, true)
      | none =>
        let waits := heldByEarlier s h pre || h.f.opcode == Op.fence || (!isSegment h.f && (heldByTables s h.f || heldOrdered s h pre))
        let pol := !waits && decide (police s h.port h.f = .hold)
        let s := if pol then markHeld s h else s
        tryBuf p (pre ++ [if pol then { h with polHeld := true } else h]) rest s
    else tryBuf p (pre ++ [h]) rest s

/-- PORT_BUFFER_RELEASE (R456): the first held request of the port that nothing holds any more is released. -/
def bufferRelease (s : State) (p : Port) : State := (tryBuf p [] s.ing.buf s).1

/-- A FENCE refused at ingress completes with DENIED at once (R107). -/
def fenceBad (s : State) (p : Port) (f : Req) : Bool := formBad s p f || tagInUse s f.src f.tag || f.len != 0

/-- A request arriving at an endpoint-facing port or the host interface. DESIGN CHOICE (log entry 7): a WR_LINE_REL closes the scope
as it arrives, also when it is refused later; a refused FENCE closes none. Its place in the source's issue order and its release
scope, then its release when nothing holds it (R103, R106, R456). -/
def arrive (s : State) (p : Port) (f : Req) : State :=
  if f.opcode = Op.fence && fenceBad s p f then freeLanding (ingressCpl s p f .denied) p f
  else if isSegment f then
    let r := srcOf s f.src
    let h : Held := { f := f, port := p, order := r.order, scope := r.scope, polHeld := false }
    let s := modSrc s f.src fun r => { r with order := r.order + 1 }
    bufferRelease { s with ing := { s.ing with buf := s.ing.buf ++ [h] } } p
  else
    let r := srcOf s f.src
    let closes := f.opcode == Op.fence || f.opcode == Op.wrLineRel
    let h : Held := { f := f, port := p, order := r.order, scope := r.scope, polHeld := false }
    let s := modSrc s f.src fun r => { r with order := r.order + 1, scope := r.scope + bit closes }
    bufferRelease { s with ing := { s.ing with buf := s.ing.buf ++ [h] } } p

/-! ### Completions, resends and PATH_LOST -/

/-- Whether a completion comes from a request's destination (R118), or from the own functions of a device that ended it on its way
(R60, R86). DEDUCED (log entry 10). -/
def fromDest (s : State) (f : Req) (c : Cpl) : Bool :=
  c.src == f.dst || (isOwnEp s c.src && (decide (statusOf c.status = .pathLost) || decide (statusOf c.status = .denied)))

/-- COMPLETION_ARRIVE (R59, R87, R93, R94, R118): the first completion that matches an outstanding request is delivered; any
other is discarded. PATH_LOST keeps the tag and ends the rest of the pair (R115, R117, R136). -/
def completionArrive (s : State) (c : Cpl) : State :=
  match trackOf s c.dst c.tag with
  | none => s
  | some t =>
    let sq := opSequenced t.f.opcode
    if sq && !(c.seq == t.f.seq && c.cls == t.f.cls && fromDest s t.f c) then s
    else
      let st := statusOf c.status
      let s := { s with ing := { s.ing with trk := eraseFirst (fun x => decide (x = t)) s.ing.trk } }
      let s := noteEnd s t.f.src t.f.opcode t.scope st
      let s := if sq then modPair s (pairOf t.f) fun r =>
          { r with newp := r.newp || decide (st = .retry) || (t.f.newp && decide (st ≠ .ok))
                   gated := r.gated && !t.f.newp }
        else s
      let s := deliver (dropWin s t.f.src t.f.tag) t.port c
      if st = .pathLost then losePair (holdTag s t.f.src t.f.tag) t.f else s

/-- A resend of an RD_LINE or sequenced request, at most four sendings (R114); a sequenced one makes its pair settle (R119). -/
def resendReq (s : State) (t : Track) : State :=
  if !opPaired t.f.opcode || t.f.pgen == 3 then s
  else if !hasRoute s t.f.dst then loseReq s t
  else
    let g : Req := { t.f with rsnd := true, pgen := t.f.pgen + 1 }
    let now := s.counter
    let d := (epDev s t.f.dst).getD 0
    let out := if (localAt s t.f.dst).isSome then none else pairPort s d t.f
    let path := match out with
      | some x => pathFrom s d 8 (devId s) x.2
      | none => []
    let s := modTrack s t.f.src t.f.tag fun x => { x with f := g, latest := now, path := path }
    let s := stampSent (stampRun s t.f.tenant) t.comp g.epoch
    let s := if opSequenced t.f.opcode then modPair s (pairOf t.f) fun r =>
        let old := if now < r.settleUntil then r.oldestResent else none
        { r with settleUntil := now + 2000
                 oldestResent := some (match old with
                   | some o => if (r.next - o).toNat < (r.next - t.f.seq).toNat then t.f.seq else o
                   | none => t.f.seq) }
      else s
    match out with
    | some x => sendReqOn s .own g x.2 now
    | none => sendReq s .own g now

/-- PATH_FAULT_NOTICE (R112): every outstanding RD_LINE and sequenced request whose route crossed the link is resent. -/
def pathFaultNotice (s : State) (d : DevId) (p : PortNo) : State :=
  let hit := s.ing.trk.filter fun t => opPaired t.f.opcode && t.path.contains (d, p)
  hit.foldl (fun s t => if (trackOf s t.f.src t.f.tag).isSome then resendReq s t else s) s

/-- RESEND_TIMEOUT (R113): not acknowledged within 200 µs of its latest sending. -/
def resendTimeout (s : State) (src : Ep) (tag : Tag) : State :=
  match trackOf s src tag with
  | some t => if t.latest + 200 ≤ s.counter then resendReq s t else s
  | none => s

/-- PATH_LOST_TIMEOUT (R115, R194): unacknowledged 800 µs after its first forwarding, or its latest progress notice. -/
def pathLostTimeout (s : State) (src : Ep) (tag : Tag) : State :=
  match trackOf s src tag with
  | some t => if t.first + 800 ≤ s.counter then loseReq s t else s
  | none => s

/-- TAG_HOLD_EXPIRE (R117). -/
def tagHoldExpire (s : State) (src : Ep) (tag : Tag) : State :=
  { s with ing := { s.ing with holds := s.ing.holds.filter fun h =>
      !(h.1 == src && h.2.1 == tag && decide (h.2.2 ≤ s.counter)) } }

/-- SETTLING_END (R119). -/
def settlingEnd (s : State) (k : PairKey) : State :=
  modPair s k fun r => if r.settleUntil ≤ s.counter then { r with settleUntil := 0, oldestResent := none } else r

/-- PROGRESS_NOTICE_RECEIVE (R194): the 800 µs count restarts; line and atomic requests have none. -/
def progressReceive (s : State) (src : Ep) (tag : Tag) : State :=
  match trackOf s src tag with
  | some t => if opPaired t.f.opcode then s else modTrack s src tag fun x => { x with first := s.counter }
  | none => s

/-- TRUNK_REQUEST_ARRIVE (R85, R86). DESIGN CHOICE (log entry 8): a request with CHK = 0 is answered in the name of this device's own
functions, which R60 does not name for it. -/
def trunkArrive (s : State) (p : PortNo) (f : Req) : State :=
  if !(isTrunk s p && (portOf s p).auth) then freeLanding s (.lane p) f
  else if f.chk then sendReq (endBegan s f) (.lane p) f (residency s f)
  else
    let s := raise (freeLanding s (.lane p) f) { report 10 (.port p) (locLane s p) with status := .denied }
    complete s f (ownEp s) .denied []

/-- WHEEL_ENTRY_DUE (R564): the bucket is computed again; what it held on the port may go. -/
def wheelDue (s : State) (p : Port) (b : BucketId) : State :=
  bufferRelease (modBucket s p b fun x => bucketDue x (wheelTick (shpOf s p))) p

/-- A write to a window register (R83, R84, R457): a port that is not configured has no block (R698), a trunk has no windows, and
the three words after ATTR are reserved. -/
def writeWindow (s : State) (p : Port) (win : BitVec 8) (reg : BitVec 3) (v : Word) : State × Status :=
  let block := match p with
    | .lane q => (portOf s q).role != 0
    | .host => true
    | .own => false
  let held := match p with
    | .lane q => isEndpointPort s q
    | _ => true
  if !block then (s, .denied)
  else if !held || decide (4 < reg.toNat) then (s, .ok)
  else if portCompOf s p != 0 then (s, .denied)
  else
    let w := tgetD s.ing.wins (p, win) noWin
    ({ s with ing := { s.ing with wins := tset s.ing.wins (p, win) (winWrite w reg v) } }, .ok)

/-! ### Rows -/

/-- RD_LINE (R65). -/
def execRdLine (p : Port) (f : Req) (s : State) : Res := whenUp s fun s => arrive s p { f with opcode := Op.rdLine }
/-- WR_LINE (R66). -/
def execWrLine (p : Port) (f : Req) (s : State) : Res := whenUp s fun s => arrive s p { f with opcode := Op.wrLine }
/-- WR_LINE_REL (R104). -/
def execWrLineRel (p : Port) (f : Req) (s : State) : Res := whenUp s fun s => arrive s p { f with opcode := Op.wrLineRel }
/-- FENCE (R106). -/
def execFence (p : Port) (f : Req) (s : State) : Res := whenUp s fun s => arrive s p { f with opcode := Op.fence }
/-- ATOM_ADD (R69). -/
def execAtomAdd (p : Port) (f : Req) (s : State) : Res := whenUp s fun s => arrive s p { f with opcode := Op.atomAdd }
/-- ATOM_LOGIC (R69). -/
def execAtomLogic (p : Port) (f : Req) (s : State) : Res := whenUp s fun s => arrive s p { f with opcode := Op.atomLogic }
/-- ATOM_SWAP (R69). -/
def execAtomSwap (p : Port) (f : Req) (s : State) : Res := whenUp s fun s => arrive s p { f with opcode := Op.atomSwap }
/-- ATOM_CAS (R69). -/
def execAtomCas (p : Port) (f : Req) (s : State) : Res := whenUp s fun s => arrive s p { f with opcode := Op.atomCas }
/-- ATOM_MINMAX (R69). -/
def execAtomMinmax (p : Port) (f : Req) (s : State) : Res := whenUp s fun s => arrive s p { f with opcode := Op.atomMinmax }
/-- PORT_BUFFER_RELEASE (R456). -/
def execPortBufferRelease (p : Port) (s : State) : Res := whenUp s fun s => bufferRelease s p
/-- TRUNK_REQUEST_ARRIVE (R85). -/
def execTrunkRequestArrive (p : PortNo) (f : Req) (s : State) : Res := whenUp s fun s => trunkArrive s p f
/-- WR_LINE_REL_RELEASE (R104). -/
def execWrLineRelRelease (src : Ep) (s : State) : Res := whenUp s fun s => relRelease s src
/-- FENCE_COMPLETE (R107). -/
def execFenceComplete (src : Ep) (s : State) : Res := whenUp s fun s => fenceComplete s src
/-- RESEND_TIMEOUT (R113). -/
def execResendTimeout (src : Ep) (tag : Tag) (s : State) : Res := whenUp s fun s => resendTimeout s src tag
/-- PATH_LOST_TIMEOUT (R115). -/
def execPathLostTimeout (src : Ep) (tag : Tag) (s : State) : Res := whenUp s fun s => pathLostTimeout s src tag
/-- TAG_HOLD_EXPIRE (R117). -/
def execTagHoldExpire (src : Ep) (tag : Tag) (s : State) : Res := whenUp s fun s => tagHoldExpire s src tag
/-- SETTLING_END (R119). -/
def execSettlingEnd (src dst : Ep) (cls : Cls) (s : State) : Res := whenUp s fun s => settlingEnd s (src, dst, cls)
/-- PROGRESS_NOTICE_RECEIVE (R194). -/
def execProgressNoticeReceive (src : Ep) (tag : Tag) (s : State) : Res := whenUp s fun s => progressReceive s src tag
/-- WHEEL_ENTRY_DUE (R564). -/
def execWheelEntryDue (p : Port) (b : BucketId) (s : State) : Res := whenUp s fun s => wheelDue s p b
/-- ACC_SEGMENT_INGRESS (R233). -/
def execAccSegmentIngress (p : Port) (f : Req) (s : State) : Res :=
  whenUp s fun s => arrive s p { f with opcode := Op.accContrib, subop := 1 }

end Sys2Proof.Machine
end

