-- ==== Sys2Proof/Machine/Engine.lean ====
section
/-! DEFINITION. Engine requests at the device that executes them: acceptance (R188 to R200, R275, R284, R312), division and
placement (R201 to R203), portions, completion (R195), format failures (R318 to R323), and functions disabled (R210 to R214). -/

namespace Sys2Proof.Machine

/-! ### Functions (R200, R210) -/

/-- The functions a request needs. -/
def needsFns (f : Req) : List EngFn :=
  if f.opcode = Op.tileXfer then [.compat]
  else if f.opcode = Op.gather ∨ f.opcode = Op.scatter then
    .gs :: if (srcTensor f).zskip then [.expand] else []
  else if f.opcode = Op.filter then [.filter]
  else if f.opcode = Op.scoreSel then [.score]
  else if f.opcode = Op.expand then [.expand]
  else [.reduce]

/-- Whether every function a request needs is enabled. -/
def fnsOn (s : State) (f : Req) : Bool := (needsFns f).all fun x => s.eng.enabled.contains x

/-! ### Checks at the executing device -/

/-- Clauses of a FILTER that R271, R272 and R275 refuse. -/
def clauseBad (f : Req) (c : Nat) : Bool :=
  let at_ := clauseAt c
  let w := ftypeBytes (clauseType f c)
  let cmp := clauseCmp f c
  if nclause f ≤ c then !zerosAt f.payload at_ 32
  else
    bitsOf (leAt f.payload at_ 1) 4 4 != 0 || bitsOf (leAt f.payload (at_ + 1) 1) 6 2 != 0 || clauseJoin f c == 3 ||
      (c == 0 && clauseJoin f c != 0) || bitsOf (leAt f.payload (at_ + 2) 1) 6 2 != 0 || !zerosAt f.payload (at_ + 3) 5 ||
      !zerosAt f.payload (at_ + 24) 8 || decide (9 < cmp) || !zerosAt f.payload (at_ + 8 + w) (8 - w) ||
      !zerosAt f.payload (at_ + 16 + w) (8 - w) || (cmp != 6 && !zerosAt f.payload (at_ + 16) 8) ||
      (cmp == 9 && (clauseType f c != 0 || clauseOff f c != 0 || !zerosAt f.payload (at_ + 8) 8)) ||
      (cmp != 9 && (clauseOff f c % w != 0 || decide (dimOf (srcTensor f) 0 < clauseOff f c + w))) ||
      (cmp == 6 && decide (ftypeVal (clauseType f c) f.payload (at_ + 16) < ftypeVal (clauseType f c) f.payload (at_ + 8)))

/-- What R269, R270, R275 to R277 refuse of a FILTER. -/
def filterBad (f : Req) : Bool :=
  let t := srcTensor f
  let o := dstTensor f
  let out := filterOutput f
  nclause f == 0 || decide (8 < nclause f) || out == 3 || bitsOf (leAt f.payload 16 1) 6 2 != 0 || !zerosAt f.payload 17 15 ||
    (List.range 8).any (clauseBad f) || t.etype != 3 || t.zskip || t.planar ||
    !([1, 2, 4, 8, 16, 32, 64].contains (dimOf t 0)) || t.base % dimOf t 0 != 0 ||
    (outerDims t).any (fun k => strideOf t k % (dimOf t 0 : Int) != 0) || decide (4294967295 < recordCount f) ||
    (if out == 2 then !zerosAt f.payload 384 96
     else o.etype != 3 || o.rank != 1 || o.zskip ||
      (if out == 0 then decide (dimOf o 0 < ceilDiv (recordCount f) 8) else dimOf o 0 % 8 != 0) || tensorsMeet t o)

/-- What R283 and R284 refuse of a SCORE_SEL. -/
def scoreBad (f : Req) : Bool :=
  let t := srcTensor f
  let m := maskTensor f
  let q := dimOf t 0 / 32 * (blockElemBytes t.etype + 1)
  selK f == 0 || decide (1024 < selK f) || bitsOf (leAt f.payload 16 2) 11 5 != 0 || bitsOf (leAt f.payload 18 1) 1 7 != 0 ||
    !zerosAt f.payload 19 13 || t.rank != 2 || t.etype == 3 || t.zskip || dimOf t 0 % 32 != 0 || decide (256 < dimOf t 0) ||
    decide (16777216 < dimOf t 1) || f.len.toNat != 14 + ceilDiv q 16 || !zerosAt f.payload (224 + q) (ceilDiv q 16 * 16 - q) ||
    (if selMasked f then m.etype != 3 || m.rank != 1 || m.zskip || decide (dimOf m 0 < ceilDiv (dimOf t 1) 8) || tensorsMeet t m
     else !zerosAt f.payload 128 96)

/-- What R259 to R263 refuse of a GATHER or SCATTER. -/
def gsBad (f : Req) : Bool :=
  let a := srcTensor f
  let b := dstTensor f
  let x := idxTensor f
  let k := dimOf x 0 / 4
  let o := a.rank - 1
  b.zskip || a.rank != b.rank || a.etype != b.etype || tensorsMeet a b ||
    (if f.subop = 0 then a.dims != b.dims
     else x.etype != 3 || x.rank != 1 || x.zskip || dimOf x 0 % 4 != 0 || k == 0 || decide (16777216 < k) || decide (a.rank < 2) ||
      (List.range o).any (fun d => dimOf a d != dimOf b d) ||
      (if f.opcode = Op.gather then dimOf b o != k else dimOf a o != k) || tensorsMeet a x || tensorsMeet b x)

/-- What R312 refuses of an EXPAND. -/
def expandBad (f : Req) : Bool :=
  let a := srcTensor f
  let b := dstTensor f
  !a.zskip || b.zskip || a.etype != b.etype || a.rank != b.rank || a.dims != b.dims || tensorsMeet a b

/-- The output ranges of a request stay within PROT objects of its tenant here when a source object is PROT (R595). -/
def protLeak (s : State) (f : Req) : Bool :=
  let rs := namedRanges f 1
  (rs.any fun r => !r.out && rangeProt s r.lo r.hi) && rs.any fun r => r.out && !rangeSafe s f.tenant r.lo r.hi

/-- What an engine operation's chapter refuses with DENIED at the executing device (R189, R351, R595). -/
def opBad (s : State) (f : Req) : Bool :=
  dlBad s f || protLeak s f ||
    (if f.opcode = Op.filter then filterBad f
     else if f.opcode = Op.scoreSel then scoreBad f
     else if f.opcode = Op.gather ∨ f.opcode = Op.scatter then gsBad f
     else if f.opcode = Op.expand then expandBad f
     else false)

/-- The object whose stream a request expands: the one an expanding copy is of, or the one that holds its source (R311, R321). -/
def streamOid (s : State) (own : Option Oid) (base : Nat) : Option Oid :=
  match own with
  | some oid => some oid
  | none => (s.obj.tab.find? fun e => objHolds e.2 base).map (·.1)

/-- Whether a request would expand part of a damaged object (R321). -/
def expandsDamaged (s : State) (f : Req) (own : Option Oid) : Bool :=
  (needsFns f).contains .expand && ((streamOid s own (srcTensor f).base).bind fun oid => tget s.obj.tab oid).any (·.damaged)

/-- Whether a request still has a portion to place. -/
def unplaced (r : EngReq) : Bool := r.portions.isEmpty || r.portions.any fun p => !p.placed

/-- Requests in a quadrant's dispatcher queue: those with a portion not yet placed (R199, Table 4.19). -/
def queuedIn (s : State) (q : Quad) : Nat := (s.eng.reqs.filter fun r => r.quad == q && unplaced r).length

/-- What the tier-1 pages of the ranges that a request reads say of it: an allocated page its object's answer, another DENIED. -/
def sourceAccess (s : State) (f : Req) : List Status :=
  ((namedRanges f 1).filter fun x => !x.out && inT1 s x.lo).flatMap fun x =>
    let a := pageNo s x.lo
    let n := (x.hi - t1Base s) / 4096 + 1 - a
    let rs := s.obj.pages.filter fun p => decide (p.first < a + n) && decide (a < p.first + p.n)
    let have_ := (rs.map fun p => min (a + n) (p.first + p.n) - max a p.first).sum
    (rs.filterMap fun p => t1Check s (t1Base s + 4096 * max a p.first) f.tenant f.src (genTag s f.tenant) false) ++
      if have_ < n then [.denied] else []

/-- The status that an engine request has at queue entry, if it goes no further: the first of R22. A check of the pages it reads
comes before an answer that depends on them (R22); by itself it is made as they are read (R212). -/
def entryStatus (s : State) (q : Quad) (f : Req) (own : Option Oid) (bad : Bool) : Option Status :=
  let xs : List Status := (if bad then [.denied] else []) ++ (if isRemoving s f.tenant then [.revoked] else []) ++
    (if fnsOn s f then [] else [.funcOff]) ++ (if expandsDamaged s f own then [.format] else []) ++
    (if 4096 ≤ queuedIn s q then [.retry] else [])
  if xs.isEmpty then none else firstOf (xs ++ if own.isSome then [] else sourceAccess s f)

/-! ### Completion (R195, Table 4.7) -/

/-- An engine request's record (Table 4.7). -/
def engRecord (tiles sat : Nat) (info : List Byte) : List Byte := leBytes tiles 2 ++ [0, 0] ++ leBytes (min sat 0xFFFFFFFF) 4 ++ slice info 0 8

/-- Saturation events added to ENG_SAT (Table 4.16). -/
def addSat (s : State) (n : Nat) : State := { s with eng := { s.eng with satTotal := satAdd 32 s.eng.satTotal n } }

/-- The request of a tile's running descriptor and its portion. -/
def running_ (s : State) (t : TileNo) : Option (EngReq × Nat × Portion) :=
  (tileOf s t).queue.head?.bind fun d => (engReq s d.src d.tag).bind fun r => (r.portions[d.portion]?).map fun p => (r, d.portion, p)

/-- The stream that a request expands, as tiles tell re-reads apart (R322). -/
def streamOf (r : EngReq) : Option Oid × Nat := (r.own, (readTensor r).base)

/-- The stream of a tile's running portion. -/
def tileStream (s : State) (t : TileNo) : Option (Option Oid × Nat) := (running_ s t).map fun x => streamOf x.1

/-- A tile's part in a re-read. -/
def rereadOf (x : TileRec) : Reread :=
  match x.zsk with
  | some z => z.reread
  | none => .none

/-- A tile's part in a re-read set. -/
def setReread (s : State) (t : TileNo) (x : Reread) : State := modTile s t fun r => { r with zsk := r.zsk.map fun z => { z with reread := x } }

/-- Tiles that wait for a re-read which no tile makes any more: the first of each stream and item makes it (R322). -/
def passRereads (s : State) : State :=
  s.eng.tiles.foldl (fun s x =>
    match rereadOf (tileOf s x.1) with
    | .follows i =>
      if s.eng.tiles.any fun y => decide (rereadOf y.2 = .asked i) && decide (tileStream s y.1 = tileStream s x.1) then s
      else setReread s x.1 (.asked i)
    | _ => s) s

/-- The request at the head of a tile's queue has started (R210). -/
def startHead (s : State) (t : TileNo) : State :=
  match (tileOf s t).queue.head? with
  | none => s
  | some d => { s with eng := { s.eng with reqs := modWhere s.eng.reqs (fun r => r.f.src == d.src && r.f.tag == d.tag) fun r =>
      { r with started := true } } }

/-- A descriptor's note asked of a tile's die as the descriptor leaves it (R626). -/
def noteLeft (s : State) (t : TileNo) (d : Desc) : State := askNote s (tileDie t) (descNote s d)

/-- A request's descriptors gone from the tiles; the next ones start. -/
def clearWork (s : State) (r : EngReq) : State :=
  let mine : Desc → Bool := fun d => d.src == r.f.src && d.tag == r.f.tag
  let hit := (s.eng.tiles.filter fun x => x.2.queue.any mine).map (·.1)
  let s := hit.foldl (fun s t =>
    let heads := (tileOf s t).queue.head?.any mine
    let s := ((tileOf s t).queue.filter mine).foldl (fun s d => noteLeft s t d) s
    startHead (modTile s t fun x =>
      let x := { x with queue := x.queue.filter fun d => !mine d }
      if heads then { x with zsk := none, smooth := [] } else x) t) s
  passRereads s

/-- A request with its portions and descriptors gone from the dispatchers and tiles. -/
def dropReq (s : State) (r : EngReq) : State :=
  let s := clearWork s r
  { s with eng := { s.eng with reqs := s.eng.reqs.filter fun x => x.no != r.no } }

/-- A tier-1 copy that an expanding placement was filling, dropped when its EXPAND fails: T1STATE returns to 0 and its pages
are freed (R337). -/
def dropFilling (s : State) (oid : Oid) : State :=
  match tget s.obj.tab oid with
  | some o =>
    if o.t1 ≠ .filling then s
    else
      let n := objPages s oid
      let s := zeroRange s (o.addr - t1Base s) (4096 * n)
      let k := (o.tenant, (1 : BitVec 2))
      let use := tset s.obj.quotaUse k (tgetD s.obj.quotaUse k 0 - n)
      { s with obj := { s.obj with pages := s.obj.pages.filter fun r => !heldRun oid r
                                   quotaUse := use
                                   fills := s.obj.fills.filter fun x => !(x.oid == oid && !x.t0)
                                   tab := tset s.obj.tab oid { o with t1 := .none, addr := 0, cdense := false } } }
  | none => s

/-- An expanding copy whose EXPAND is done: the device's own request leaves no more to fetch. -/
def fillDone (s : State) (oid : Oid) : State :=
  { s with obj := { s.obj with fills := modWhere s.obj.fills (fun x => x.oid == oid && !x.t0) fun x => { x with waits := [], got := [] } } }

/-- ENG_SEL_CNT and OBJ_DL_CNT count an ALT_DELIVERED or DEADLINE_MISS (R296, R353). -/
def countDeadline (s : State) (f : Req) (st : Status) : State :=
  if f.opcode = Op.scoreSel then
    (if st = .altDelivered then { s with eng := { s.eng with selAlt := satInc 16 s.eng.selAlt } }
     else if st = .deadlineMiss then { s with eng := { s.eng with selMiss := satInc 16 s.eng.selMiss } } else s)
  else if f.dlx then
    (if st = .altDelivered then { s with obj := { s.obj with dlAlt := satInc 16 s.obj.dlAlt } }
     else if st = .deadlineMiss then { s with obj := { s.obj with dlMiss := satInc 16 s.obj.dlMiss } } else s)
  else s

/-- A request in flight: its first portion has started on a tile, and it has not completed (R210). -/
def inFlight (r : EngReq) : Bool := r.started && r.f.opcode != Op.accOpen

/-- Whether an accord round is in flight (R258). -/
def roundsActive (s : State) : Bool := s.acc.slots.any fun x => decide (x.2.state = .active)

/-- Work in flight that needs a function. -/
def fnBusy (s : State) (fn : EngFn) : Bool :=
  (s.eng.reqs.any fun r => (needsFns r.f).contains fn && inFlight r) || (decide (fn = .reduce) && roundsActive s)

/-- DRAINING ends once no work in flight needs the function (Table 4.10 step 7). -/
def endDrains (s : State) : State :=
  { s with eng := { s.eng with draining := s.eng.draining.filter fun x => fnBusy s x.1 } }

/-- An engine request ends: its completion goes out, with data on OK and ALT_DELIVERED only (R195). The device's own EXPAND
reports to no one; when it fails its copy is dropped (R337). -/
def endEng (s : State) (r : EngReq) (st : Status) (data : List Byte) : State :=
  let s := endDrains (countDeadline (dropReq s r) r.f st)
  match r.own with
  | some oid => if st = .ok then fillDone s oid else dropFilling s oid
  | none => completeAt s r.f st (if st = .ok || st = .altDelivered then data else [])

/-- LATE: the completion is sent after the deadline (R290, R353). -/
def isLate (s : State) (r : EngReq) : Bool := r.deadline.any fun d => decide (d < s.counter)

/-- Two ranked lists merged, `k` entries kept (R293). -/
def mergeTop (k : Nat) (a b : List Scored) : List Scored := b.foldl (fun l x => rankInsert k x l) a

/-- One level of the merge: lists 2i and 2i + 1 (R293). -/
def mergeLevel (k : Nat) : List (List Scored) → List (List Scored)
  | a :: b :: rest => mergeTop k a b :: mergeLevel k rest
  | l => l

/-- The binary tree of merges, level by level (R293). -/
def mergeTree (k : Nat) : Nat → List (List Scored) → List Scored
  | 0, l => l.headD []
  | n + 1, l => if l.length ≤ 1 then l.headD [] else mergeTree k n (mergeLevel k l)

/-- The positions that a SCORE_SEL selects, from its portions' lists (R289, R293). -/
def selected (r : EngReq) : List Scored := mergeTree (selK r.f) r.portions.length (r.portions.map (·.best))

/-- OP_INFO of a request (R262, R279, R290, R313, R353). -/
def opInfo (s : State) (r : EngReq) : List Byte :=
  if r.f.opcode = Op.scoreSel then
    leBytes r.countA 4 ++ leBytes (selected r).length 2 ++ [BitVec.ofNat 8 (bit (usesAlt r) + 2 * bit (isLate s r)), 0]
  else if r.f.opcode = Op.gather ∨ r.f.opcode = Op.scatter then
    leBytes r.countA 4 ++ [0, 0, BitVec.ofNat 8 (2 * bit (isLate s r)), 0]
  else leBytes r.countA 4 ++ leBytes r.countB 4

/-- A result entry of a SCORE_SEL (Table 6.5). -/
def selEntry (x : Scored) : List Byte :=
  leBytes x.pos 4 ++ leBytes (BitVec.ofInt 32 x.score).toNat 4 ++ leBytes (BitVec.ofInt 16 x.exp).toNat 2 ++ List.replicate 6 0

/-- The maximal runs of passing records of a FILTER (R277). -/
def passRuns (r : EngReq) : List (Nat × Nat) := runsOf (r.passes.insertionSort (· ≤ ·))

/-- A request's completion once its last write has been answered (R195, R208, R262, R277, R279, R290, R313). -/
def completeEng (s : State) (r : EngReq) : State :=
  let rec_ := engRecord r.tiles.length r.sat (opInfo s r)
  if r.f.opcode = Op.tileXfer then endEng s r .ok []
  else if r.f.opcode = Op.filter then
    let s := if filterOutput r.f = 1 && decide (dimOf (dstTensor r.f) 0 / 8 < (passRuns r).length) then
        { s with eng := { s.eng with fltTrunc := satInc 32 s.eng.fltTrunc } } else s
    endEng s r .ok rec_
  else
    endEng s r (if usesAlt r then .altDelivered else .ok)
      (rec_ ++ if r.f.opcode = Op.scoreSel then ((selected r).map selEntry).flatten else [])

/-- Whether a request still awaits the answer to a write (R279). -/
def awaitsWrites (r : EngReq) : Bool := r.frames.any fun x => x.data.isSome

/-- A request's record put back. -/
def setEng (s : State) (r : EngReq) : State :=
  { s with eng := { s.eng with reqs := modWhere s.eng.reqs (fun x => x.no == r.no) fun _ => r } }

/-- Every portion is done: the request's last writes are made, and it completes once those outside tier 1 are answered (R277,
R279). -/
def finishEng (s : State) (r : EngReq) : State :=
  let ext := filterOutput r.f = 1 && r.f.opcode == Op.filter
  let r := if r.f.opcode = Op.filter then { r with countA := r.passes.length, countB := if ext then (passRuns r).length else 0 } else r
  let o := dstTensor r.f
  let out := if ext then ((passRuns r).take (dimOf o 0 / 8)).zipIdx.map fun (x, i) => (o.base + 8 * i, leBytes x.1 4 ++ leBytes x.2 4) else []
  match engWrites s r out with
  | (s, r, some st) => endEng s r st []
  | (s, r, none) => if awaitsWrites r then setEng s { r with closing := true } else completeEng s r

/-! ### Portions (R201, R280, R291, R314) -/

/-- Quadrants a mask allows; 0: any. -/
def maskQuads (m : BitVec 4) : List Quad := ([0, 1, 2, 3] : List Quad).filter fun q => m == 0 || m.getLsbD q.toNat

/-- An ungated, not FAILED tile. -/
def tileOpen (s : State) (t : TileNo) : Bool := !(tileOf s t).gated && !(tileOf s t).failed

/-- The quadrants of a request. -/
def reqQuads (f : Req) : List Quad := maskQuads (if f.opcode = Op.tileXfer then 0 else hdrQmask f)

/-- Ungated, not FAILED tiles of some quadrants. -/
def openTiles (s : State) (qs : List Quad) : List TileNo := allTiles.filter fun t => qs.contains (tileQuad t) && tileOpen s t

/-- MAX_TILES as it acts (Table 4.11). -/
def maxTiles (s : State) : Nat := min 512 (max 1 s.eng.maxTiles.toNat)

/-- Source bytes of a request, counted for R201 (R265, R291; a zero-skip stream by its stored range). -/
def sourceBytes (s : State) (r : EngReq) : Nat :=
  let t := srcTensor r.f
  if r.f.opcode = Op.tileXfer then 4096 * xferCount r.f
  else if t.zskip && (r.f.opcode == Op.expand || r.f.subop == 0) then
    leAt (runBytes (engByte s r) (t.base + 16, 8)) 0 8 + 32 + 16 * ceilDiv (zskGroups t) 2
  else if (r.f.opcode = Op.gather ∨ r.f.opcode = Op.scatter) ∧ r.f.subop = 1 then
    dimOf (idxTensor r.f) 0 / 4 * (tensorBytes t / max 1 (dimOf t (t.rank - 1)))
  else tensorBytes t

/-- Portions wanted: n of R201, at least one. -/
def portionCount (s : State) (r : EngReq) : Nat :=
  let want := if r.f.opcode = Op.tileXfer then 1
    else if hdrTiles r.f != 0 then hdrTiles r.f
    else max 1 (min (maxTiles s) (ceilDiv (sourceBytes s r) (2 ^ min 30 (max 16 s.eng.splitLog2.toNat))))
  max 1 (min want (openTiles s (reqQuads r.f)).length)

/-- `total` units in `n` parts that differ by at most one, the larger first: first unit and count of each. -/
def evenParts (total n : Nat) : List (Nat × Nat) :=
  (List.range n).map fun i =>
    let q := total / n
    let m := total % n
    (i * q + min i m, q + if i < m then 1 else 0)

/-- The stack of the first element byte of a position's key, or none outside tier 1 (R291); an exponent leads an interleaved
block. -/
def posStack (s : State) (t : Tensor) (p : Nat) : Option Quad := (pageAt s (rowAddr t p + bit (!t.planar))).map (·.stack)

/-- The positions of each group: by stack, then those outside tier 1; empty groups left out. -/
def posGroups (s : State) (t : Tensor) : List (List Nat) :=
  ([some 0, some 1, some 2, some 3, none] : List (Option Quad)).filterMap fun g =>
    let ps := (List.range (dimOf t 1)).filter fun p => decide (posStack s t p = g)
    if ps.isEmpty then none else some ps

/-- The place of the greatest of some numbers, the first of equals. -/
def greatestAt (l : List Nat) : Nat := l.idxOf (l.foldl max 0)

/-- The greatest share lowered by one, so many times. -/
def trimShares : Nat → List Nat → List Nat
  | 0, l => l
  | n + 1, l => trimShares n (modAt l (greatestAt l) (· - 1))

/-- Shares of n among groups in proportion to their sizes, by largest remainder, ties to the lower, at least one each (R291).
DESIGN CHOICE (log entry 17): what lifts a share to one is taken from the greatest. -/
def shares (sizes : List Nat) (n : Nat) : List Nat :=
  let total := max 1 sizes.sum
  let base := sizes.map fun z => n * z / total
  let order := (sizes.zipIdx.insertionSort fun a b =>
    n * b.1 % total < n * a.1 % total ∨ (n * b.1 % total = n * a.1 % total ∧ a.2 ≤ b.2)).map (·.2)
  let more := order.take (n - base.sum)
  let l := base.zipIdx.map fun (b, i) => b + bit (more.contains i)
  trimShares (l.filter (· == 0)).length (l.map (max 1))

/-- A portion not yet placed. -/
def newPortion (runs : List (Nat × Nat)) : Portion := ⟨runs, false, false, []⟩

/-- The ranges of a SCORE_SEL's portions (R291). -/
def scorePortions (s : State) (t : Tensor) (n : Nat) : List Portion :=
  let groups := posGroups s t
  if groups.length ≤ n then
    (groups.zip (shares (groups.map (·.length)) n)).flatMap fun (g, k) =>
      (evenParts g.length k).map fun x => newPortion (runsOf ((g.drop x.1).take x.2))
  else (evenParts (dimOf t 1) n).map fun x => newPortion [x]

/-- A request's portions (R201, R265, R280, R291, R314); where n exceeds the units of division some are empty. -/
def divide (s : State) (r : EngReq) : List Portion :=
  let t := readTensor r
  let n := portionCount s r
  let parts : Nat → List Portion := fun total => (evenParts total n).map fun x => newPortion [x]
  if r.f.opcode = Op.tileXfer then parts 1
  else if r.f.opcode = Op.scoreSel then scorePortions s t n
  else if r.f.opcode = Op.filter then parts (ceilDiv (recordCount r.f) 128)
  else if r.f.opcode = Op.expand ∨ (t.zskip ∧ r.f.subop = 0) then parts (zskGroups t)
  else if r.f.subop = 1 then parts (dimOf (idxTensor r.f) 0 / 4)
  else parts (dimOf t (t.rank - 1))

/-- First unit and count of a portion that has one range. -/
def portionRange (p : Portion) : Nat × Nat := p.runs.headD (0, 0)

/-! ### What a portion reads -/

/-- The runs of a portion's index list. -/
def portionIndexRuns (r : EngReq) (p : Portion) : List (Nat × Nat) :=
  if (r.f.opcode = Op.gather ∨ r.f.opcode = Op.scatter) ∧ r.f.subop = 1 then
    [((idxTensor r.f).base + 4 * (portionRange p).1, 4 * (portionRange p).2)]
  else if r.f.opcode = Op.scoreSel ∧ selMasked r.f then
    (runItems p.runs).map fun q => ((maskTensor r.f).base + q / 8, 1)
  else []

/-- The stretches of a portion's zero-skip blocks. -/
def portionStretches (s : State) (r : EngReq) (p : Portion) : List (Nat × Nat) :=
  zskStretches (engByte s r) r.f (portionRange p).1 (portionRange p).2

/-- The runs that a portion's stretches occupy, block by block as their lengths say. -/
def zskRuns (s : State) (r : EngReq) (p : Portion) : List (Nat × Nat) :=
  let t := readTensor r
  let rd := engByte s r
  (portionStretches s r p).map fun x => (zskData t + (zskSpan rd t x).1, (zskSpan rd t x).2 - (zskSpan rd t x).1)

/-- The header and the index of a stream: what says where its groups stand (R304, R314). -/
def zskHeadRuns (t : Tensor) : List (Nat × Nat) := [(t.base, 32), (t.base + 32, 16 * ceilDiv (zskGroups t) 2)]

/-- The groups of a stream that a portion reads, whole: what is fetched before their blocks' lengths are known. -/
def zskGroupRuns (s : State) (r : EngReq) (p : Portion) : List (Nat × Nat) :=
  let t := readTensor r
  let rd := engByte s r
  (portionStretches s r p).map fun x =>
    let a := zskStart rd t (x.1 / 64)
    (zskData t + a, zskStart rd t ((x.1 + x.2 - 1) / 64 + 1) - a)

/-- The first byte of a piece. -/
def pieceAddr (t : Tensor) (q : Piece) : Nat := rowAddr t q.row + q.off * unitBytes t

/-- The moves of a portion of a GATHER or SCATTER. -/
def portionMoves (s : State) (r : EngReq) (p : Portion) : List Move :=
  gsMoves (engByte s r) r.f (readTensor r) (dstTensor r.f) (portionRange p).1 (portionRange p).2

/-- The runs a GATHER's or SCATTER's portion reads, and those it writes (R260, R265, R314). -/
def gsSrcRuns (s : State) (r : EngReq) (p : Portion) : List (Nat × Nat) :=
  if (readTensor r).zskip then zskRuns s r p
  else (portionMoves s r p).flatMap fun m =>
    match m.1 with
    | some q => pieceRuns (readTensor r) q
    | none => []
def gsDstRuns (s : State) (r : EngReq) (p : Portion) : List (Nat × Nat) :=
  let t := readTensor r
  let d := dstTensor r.f
  if t.zskip && r.f.subop == 0 then (groupPieces t (portionRange p).1 (portionRange p).2).flatMap (pieceRuns d)
  else (portionMoves s r p).flatMap fun m => pieceRuns d m.2

/-- The runs of source data that a portion reads (R206, R285, R292). -/
def portionRuns (s : State) (r : EngReq) (p : Portion) : List (Nat × Nat) :=
  let t := readTensor r
  let rd := engByte s r
  let x := portionRange p
  if r.f.opcode = Op.tileXfer then
    (List.range (64 * xferCount r.f)).map fun k => (xferSrc r.f + k * xferSrcPitch r.f, 64)
  else if t.zskip then zskRuns s r p
  else if r.f.opcode = Op.filter then (portionRecords r.f x.1 x.2).map fun k => (rowAddr t k, dimOf t 0)
  else if r.f.opcode = Op.scoreSel then
    ((runItems p.runs).filter (isCandidate rd r.f)).flatMap fun k => pieceRuns t ⟨k, 0, rowUnits t⟩
  else gsSrcRuns s r p

/-- The byte by whose stack a portion's tile is preferred: the first of its source (R202), of a DIRECT SCATTER the first of its
destination (R260). -/
def portionHome (s : State) (r : EngReq) (p : Portion) : Nat :=
  let t := readTensor r
  let x := portionRange p
  if r.f.opcode = Op.tileXfer then xferSrc r.f
  else if r.f.opcode = Op.scatter ∧ r.f.subop = 0 then ((gsDstRuns s r p).head?.map (·.1)).getD (dstTensor r.f).base
  else if r.f.opcode = Op.filter then rowAddr t (128 * x.1)
  else if r.f.opcode = Op.scoreSel then rowAddr t x.1
  else ((portionRuns s r p).head?.map (·.1)).getD t.base

/-! ### Placement (R202, R203) -/

/-- A tile that a portion may go to. -/
def tileFree (s : State) (t : TileNo) : Bool := tileOpen s t && !(tileOf s t).marked && decide ((tileOf s t).queue.length < 16)

/-- The better of two tiles: in the preferred quadrant, then the fewest queued, then the lowest index (R202). -/
def tileScore (s : State) (home : Option Quad) (t : TileNo) : Nat :=
  (if home = some (tileQuad t) then 0 else 16) + (tileOf s t).queue.length

/-- The tile that a portion goes to (R202, R337). -/
def chooseTile (s : State) (qs : List Quad) (a : Nat) (part : Option TileNo) : Option TileNo :=
  match part.bind fun t => if qs.contains (tileQuad t) && tileFree s t then some t else none with
  | some t => some t
  | none => leastBy (tileScore s ((pageAt s a).map (·.stack))) (allTiles.filter fun t => qs.contains (tileQuad t) && tileFree s t)

/-- Whether every earlier engine request of a source to this device has completed (Table 4.6, ORDERED). -/
def orderedReady (s : State) (r : EngReq) : Bool :=
  !(s.eng.reqs.any fun x => x.f.src == r.f.src && decide (x.no < r.no)) &&
    !(s.acc.slots.any fun a => a.2.members.any fun m => m.ep == r.f.src && m.startTag.isSome && !m.done && decide (m.startNo < r.no))

/-- Whether a request waits under ORDERED. -/
def waitsOrdered (s : State) (r : EngReq) : Bool :=
  r.f.opcode != Op.tileXfer && hdrOrdered r.f && !(r.portions.any (·.placed)) && !orderedReady s r

/-- A die asked for the note of a descriptor (R626). -/
def noteFor (s : State) (t : TileNo) (r : EngReq) : State := followNotes (askNote s (tileDie t) (phaseNote s (hdrPhase r.f)))

/-- Device frames that read runs of bytes outside tier 1 for a request (R190); the stream of an expanding copy comes by fetches. -/
def readFar (s : State) (r : EngReq) (xs : List (Nat × Nat)) : State × EngReq :=
  if r.own.isSome then (s, r)
  else
    let fs : List FarFrame := (xs.filter fun x => x.2 != 0 && !inT1 s x.1).map fun x => ⟨x.1, x.2, none⟩
    (fs.foldl (fun s x => sendFar s r.f x) s, { r with frames := r.frames ++ fs })

/-- The runs that say which data a request reads: its mask or index list, and a stream's header and index (R261, R283, R304). -/
def controlRuns (r : EngReq) : List (Nat × Nat) :=
  let t := readTensor r
  (if t.zskip && r.f.opcode != Op.tileXfer then zskHeadRuns t else []) ++
    (if (r.f.opcode = Op.gather ∨ r.f.opcode = Op.scatter) ∧ r.f.subop = 1 then [((idxTensor r.f).base, dimOf (idxTensor r.f) 0)] else []) ++
    if r.f.opcode = Op.scoreSel ∧ selMasked r.f then [((maskTensor r.f).base, ceilDiv (dimOf (srcTensor r.f) 1) 8)] else []

/-- Whether they are at hand. -/
def controlReady (s : State) (r : EngReq) : Bool := (controlRuns r).all (runReady s r)

/-- Runs joined where they touch, in rising order. -/
def joinRuns (xs : List (Nat × Nat)) : List (Nat × Nat) :=
  ((xs.insertionSort fun a b => a.1 ≤ b.1).foldl (fun (l : List (Nat × Nat)) x =>
    match l with
    | y :: l => if x.1 ≤ y.1 + y.2 then (y.1, max (y.1 + y.2) (x.1 + x.2) - y.1) :: l else x :: y :: l
    | [] => [x]) []).reverse

/-- The runs that a portion's data are fetched by: its source's, or the groups of a stream. -/
def fetchRuns (s : State) (r : EngReq) (p : Portion) : List (Nat × Nat) :=
  if (readTensor r).zskip && r.f.opcode != Op.tileXfer then zskGroupRuns s r p else portionRuns s r p

/-- Device frames that fetch the data of a request's portions outside tier 1; of keys, only the candidates' (R190, R285). -/
def fetchData (s : State) (r : EngReq) : State × EngReq := readFar s r (joinRuns (r.portions.flatMap (fetchRuns s r)))

/-- A portion's last source byte, for a replica part (R337). -/
def portionEnd (s : State) (r : EngReq) (p : Portion) : Nat :=
  (((portionRuns s r p).map fun x => x.1 + x.2 - 1).foldl max 0)

/-- The candidate tile of a portion. -/
def nextTile (s : State) (r : EngReq) (p : Portion) : Option TileNo :=
  let a := portionHome s r p
  let part := if (objHolding s a).any (·.t0rep) then replicaTile s a (portionEnd s r p) else none
  chooseTile s (reqQuads r.f) a part

/-- The first portion not placed, with its number. -/
def nextPortion (r : EngReq) : Option (Portion × Nat) := r.portions.zipIdx.find? fun x => !x.1.placed

/-- A portion put on a tile (R171, R600); on an idle tile it starts. -/
def putPortion (s : State) (r : EngReq) (k : Nat) (t : TileNo) : State :=
  let d : Desc := ⟨r.f.src, r.f.tag, k⟩
  let s := modTile s t fun x =>
    { x with queue := x.queue ++ [d], tenants := if x.tenants.contains r.f.tenant then x.tenants else x.tenants ++ [r.f.tenant] }
  let tiles := if r.tiles.contains t then r.tiles else r.tiles ++ [t]
  let r := { r with portions := modAt r.portions k fun p => { p with placed := true }, tiles := tiles }
  noteFor (startHead (setEng s r) t) t r

/-! ### Deadlines (R295, R296, R352, R353) -/

/-- Steps of a portion (R265, R292). -/
def portionSteps (s : State) (r : EngReq) (p : Portion) : Nat :=
  let rd := engByte s r
  let t := readTensor r
  if r.f.opcode = Op.scoreSel then
    let cand := (runItems p.runs).filter (isCandidate rd r.f)
    let packed := t.planar || strideOf t 1 == (rowBytes t : Int)
    let move := if packed then ceilDiv ((runItems p.runs).length * tensorBytes t / max 1 (dimOf t 1)) 64
      else ((cand.flatMap fun k => pieceRuns t ⟨k, 0, rowUnits t⟩).map granules).sum
    max move (ceilDiv (cand.length * dimOf t 0 * elemBits t.etype) 512)
  else ((if r.f.opcode = Op.gather then gsSrcRuns s r p else gsDstRuns s r p).map granules).sum

/-- The tiles that a request's portions would go to now, one after the other (R202, R295). -/
def placement (s : State) (r : EngReq) : List Portion → List (Option TileNo)
  | [] => []
  | p :: ps =>
    let t := nextTile s r p
    let s := match t with
      | some t => modTile s t fun x => { x with queue := x.queue ++ [⟨r.f.src, r.f.tag, 0⟩] }
      | none => s
    t :: placement s r ps

/-- Min step rate where a portion would run now: at its tile's die (R295). DESIGN CHOICE (log entry 18): that of Base where it has
no candidate. -/
def rateAt (s : State) (t : Option TileNo) : Nat :=
  match t with
  | some t => minRate (currentNote s (tileDie t))
  | none => 1200

/-- The estimate E of a SCORE_SEL over its keys (R295), or of a GATHER or SCATTER (R352). -/
def estimate (s : State) (r : EngReq) : Rat :=
  let ps := divide s r
  let n := ps.length
  let rates := (placement s r ps).map (rateAt s)
  let runs := ps.flatMap fun p => portionRuns s r p
  let live := runs.filter fun x => (replicaTile s x.1 (x.1 + x.2 - 1)).isNone
  let tile := (ps.zip rates).map (fun x => per (portionSteps s r x.1) x.2) |>.foldl max 0
  if r.f.opcode = Op.scoreSel then
    let slow := rates.foldl min 2300
    let merge := per (Nat.clog 2 n) 1 * (per (ceilDiv (selK r.f) 2) slow + per 1 5)
    per s.eng.selAllowUs.toNat 1 + max (addrTime s live) tile + merge
  else per s.obj.allowUs.toNat 1 + max (addrTime s live) tile

/-- A request with its deadline decided, once (R296, R353); none: it misses. -/
def judged (s : State) (r : EngReq) : Option EngReq :=
  if r.judged || r.deadline.isNone then some { r with judged := true }
  else
    let alt := usableAlt s r.f
    match judge s r.deadline (estimate s r) alt.isSome (dlNoAlt r.f) with
    | .run => some { r with judged := true }
    | .alternate => some { r with judged := true, alt := alt }
    | .miss => none

/-! ### Acceptance (R199, R200, R351) -/

/-- A request as its dispatcher queues it, with its deadline. -/
def newReq (s : State) (q : Quad) (f : Req) (gen : BitVec 16) (own : Option Oid) : EngReq :=
  { f := f, quad := q, no := s.eng.nextNo, at_ := s.counter, gen := gen, deadline := if f.dlx then some (s.counter + dlBudget f) else none,
    own := own, judged := false, asked := false, started := false, portions := [], tiles := [], alt := none, frames := [],
    closing := false, staged := [], sat := 0, countA := 0, countB := 0, passes := [], notice := s.counter }

/-- A request put at the end of its dispatcher's queue. -/
def queueReq (s : State) (r : EngReq) : State := { s with eng := { s.eng with reqs := s.eng.reqs ++ [r], nextNo := r.no + 1 } }

/-- A GATHER or a SCATTER: it meets its deadline at acceptance (R352). -/
def isGs (f : Req) : Bool := f.opcode == Op.gather || f.opcode == Op.scatter

/-- A request at the dispatcher of a quadrant: refused, or queued with its deadline. GATHER and SCATTER meet theirs now. DEDUCED (log
entry 19): one whose index list or stream index lies outside tier 1 meets it once these have come. -/
def engAccept (s : State) (q : Quad) (f : Req) : State :=
  match entryStatus s q f none (opBad s f) with
  | some st => completeAt s f st []
  | none =>
    let r := newReq s q f (genTag s f.tenant) none
    if isGs f && controlReady s r then
      match judged s r with
      | some r => queueReq s r
      | none => completeAt (countDeadline s f .deadlineMiss) f .deadlineMiss []
    else queueReq s r

/-- A request's first placement (R201, R296): its deadline is met, its portions are fixed, the first goes to its tile, and device
frames go out for the data. None: it has no candidate yet. -/
def beginReq (s : State) (r : EngReq) : Option State :=
  match nextPortion { r with portions := divide s r } with
  | none => none
  | some (p, _) =>
    (nextTile s r p).map fun _ =>
      match judged s r with
      | none => endEng s r .deadlineMiss []
      | some r =>
        let r := { r with portions := divide s r }
        match nextPortion r with
        | none => s
        | some (p, k) =>
          match nextTile s r p with
          | none => setEng s r
          | some t =>
            let x := fetchData s r
            putPortion (setEng x.1 x.2) x.2 k t

/-- One request tried: what says which data it reads is fetched, or its next portion is placed; none when it has no candidate or
nothing left. -/
def tryPlace (s : State) (r : EngReq) : Option State :=
  if waitsOrdered s r || (openTiles s (reqQuads r.f)).isEmpty then none
  else if !controlReady s r then
    (if r.asked then none
     else
      let x := readFar s r (controlRuns r)
      some (setEng x.1 { x.2 with asked := true }))
  else if r.portions.isEmpty then beginReq s r
  else match nextPortion r with
    | none => none
    | some (p, k) => (nextTile s r p).map fun t => putPortion s r k t

/-- The requests of a quadrant with a portion to place. -/
def waitingReqs (s : State) (q : Quad) : List EngReq := s.eng.reqs.filter fun r => r.quad == q && unplaced r

/-- Portions of a request that wait; DESIGN CHOICE (log entry 20): one, where none of its tiles is open and it is not yet divided. -/
def waitingPortions (r : EngReq) : Nat := if r.portions.isEmpty then 1 else (r.portions.filter fun p => !p.placed).length

/-- Tiles asked of the power controller: one in a request's quadrants for each waiting portion that has no candidate there, less those
that are being ungated (R203). -/
def askFor (s : State) (r : EngReq) : State :=
  let qs := reqQuads r.f
  if waitsOrdered s r || allTiles.any fun t => qs.contains (tileQuad t) && tileFree s t then s
  else (askTiles s qs (waitingPortions r - (s.eng.tiles.filter fun x => x.2.ungating && qs.contains (tileQuad x.1)).length)).1

/-- The first request of a quadrant, in queue order, that can place a portion does; the power controller is asked for tiles for
those that wait without a candidate (R202, R203). -/
def placeFrom (s : State) (place : State → EngReq → Option State) (rs : List EngReq) : State :=
  rs.foldl askFor ((rs.findSome? (place s)).getD s)

/-- DISPATCH_RETRY_TIMEOUT (R203). -/
def dispatchRetry (s : State) (src : Ep) (tag : Tag) : State :=
  match engReq s src tag with
  | some r =>
    if r.at_ + 1000 ≤ s.counter && unplaced r && !waitsOrdered s r && (openTiles s (reqQuads r.f)).isEmpty then endEng s r .retry [] else s
  | none => s

/-! ### A portion's work -/

/-- Everything a portion needs to read is at hand. -/
def portionReady (s : State) (r : EngReq) (p : Portion) : Bool :=
  controlReady s r && (portionIndexRuns r p).all (runReady s r) && (portionRuns s r p).all (runReady s r)

/-- What a finished portion leaves: writes, the request's counts, its selection list and saturation events. -/
structure Effect where
  writes : List (Nat × List Byte)
  req : EngReq
  best : List Scored
  sat : Nat
deriving DecidableEq, Repr

/-- Source blocks of a move, in the destination's type (R262, R310, R354). -/
def moveSibs (rd : Nat → Byte) (t : Tensor) (dst : Tensor) (m : Move) : List (Sib × Nat) :=
  match m.1 with
  | none => List.replicate m.2.n (Sib.zero, 0)
  | some p =>
    let bs := if t.zskip then zskPieceSibs rd t p else pieceSibs rd t p
    bs.map fun b => if t.etype = dst.etype then (b, 0) else convertBlock dst.etype b

/-- The writes of a move. -/
def moveWrites (rd : Nat → Byte) (t dst : Tensor) (m : Move) : List (Nat × List Byte) :=
  if dst.etype = 3 then
    let bytes := match m.1 with
      | some p => runBytes rd (rowAddr t p.row + p.off, p.n)
      | none => List.replicate m.2.n 0
    [(rowAddr dst m.2.row + m.2.off, bytes)]
  else pieceWrite dst m.2 ((moveSibs rd t dst m).map (·.1))

/-- The query in the type of the keys that are scored, and the lanes that its narrowing clamps (R187, R294). -/
def queryAs (r : EngReq) : List (Sib × Nat) :=
  (queryBlocks r.f).map fun b => if (readTensor r).etype = (srcTensor r.f).etype then (b, 0) else convertBlock (readTensor r).etype b

/-- The candidates of a portion (R283). -/
def candidates (s : State) (r : EngReq) (p : Portion) : List Nat := (runItems p.runs).filter (isCandidate (engByte s r) r.f)

/-- The highest-ranked candidates of a portion, from an empty list, and the saturation events (R287 to R289, R293). -/
def scorePortion (rd : Nat → Byte) (r : EngReq) (ks : List Nat) : List Scored × Nat :=
  let t := readTensor r
  let qs := (queryAs r).map (·.1)
  ks.foldl (fun x k =>
    let sc := scoreOf qs (pieceSibs rd t ⟨k, 0, rowUnits t⟩)
    (rankInsert (selK r.f) ⟨k, sc.1, sc.2.1⟩ x.1, x.2 + sc.2.2)) ([], 0)

/-- The effect of a portion whose bytes `rd` gives (R206, R260 to R262, R273, R276, R287, R303, R307). -/
def portionEffect (s : State) (rd : Nat → Byte) (r : EngReq) (p : Portion) : Effect :=
  let t := readTensor r
  let dst := dstTensor r.f
  let x := portionRange p
  if r.f.opcode = Op.tileXfer then
    ⟨(List.range (64 * xferCount r.f)).map fun k =>
      (xferDst r.f + k * xferDstPitch r.f, runBytes rd (xferSrc r.f + k * xferSrcPitch r.f, 64)), r, [], 0⟩
  else if r.f.opcode = Op.filter then
    let ps := (portionRecords r.f x.1 x.2).filter fun k => recordPasses r.f (runBytes rd (rowAddr t k, dimOf t 0))
    let w := if filterOutput r.f = 0 then [(dst.base + 16 * x.1, bitmapBytes ps (recordCount r.f) x.1 x.2)] else []
    ⟨w, { r with passes := r.passes ++ ps }, [], 0⟩
  else if r.f.opcode = Op.scoreSel then
    let ks := candidates s r p
    let y := scorePortion rd r ks
    ⟨[], { r with countA := r.countA + ks.length }, y.1, y.2⟩
  else if r.f.opcode = Op.expand ∨ (t.zskip ∧ r.f.subop = 0) then
    let blocks := ((portionStretches s r p).map (·.2)).sum
    ⟨(groupPieces t x.1 x.2).flatMap fun q => pieceWrite dst q (zskPieceSibs rd t q),
      if r.f.opcode = Op.expand then { r with countA := r.countA + blocks } else r, [], 0⟩
  else
    let ms := portionMoves s r p
    ⟨ms.flatMap (moveWrites rd t dst), { r with countA := r.countA + gsOut (engByte s r) r.f t dst x.1 x.2 }, [],
      if dst.etype = 3 then 0 else ((ms.flatMap fun m => moveSibs rd t dst m).map (·.2)).sum⟩

/-- A tile's running descriptor leaves, its smoothing queue empty; the next one starts (R171, R316). -/
def popTile (s : State) (t : TileNo) : State :=
  passRereads (startHead (modTile s t fun x => { x with queue := x.queue.drop 1, zsk := none, smooth := [] }) t)

/-- Every portion of a SCORE_SEL scored again over the alternate keys (R297). -/
def rescore (s : State) (r : EngReq) (t : Tensor) : State :=
  let m := maskTensor r.f
  let n := ceilDiv (dimOf (srcTensor r.f) 1) 8
  setEng (clearWork s r)
    { r with alt := some t, judged := true, portions := [], frames := [], sat := 0, countA := 0,
             staged := r.staged.filter fun x => selMasked r.f && decide (m.base ≤ x.1) && decide (x.1 < m.base + n) }

/-- Keys found bad: the alternate keys are scored in their place when they may be; everything else completes with the status (R297,
R671). -/
def engFail (s : State) (r : EngReq) (st : Status) : State :=
  match usableAlt s r.f with
  | some t =>
    if st = .poison && r.f.opcode == Op.scoreSel && !usesAlt r && !dlNoAlt r.f then rescore s r t else endEng s r st []
  | none => endEng s r st []

/-- Blocks of the running portion expanded so far (R316). -/
def zskDone (s : State) (t : TileNo) : Nat :=
  match (tileOf s t).zsk with
  | some z => z.blocks
  | none => 0

/-- Whether a request's source is expanded. -/
def expanding (r : EngReq) : Bool := (readTensor r).zskip && r.f.opcode != Op.tileXfer

/-- The bytes a portion reads on a tile: the part of a replica there that holds them all, or their source (R337). -/
def tileByte (part : Option (Obj × Nat × T0Part)) (s : State) (r : EngReq) (a : Nat) : Byte :=
  match part with
  | some x => if (tget r.staged a).isSome then engByte s r a else replicaByte s x a
  | none => engByte s r a

/-- A portion's work takes effect: its writes, then its counts; with the last portion the request finishes (R171, R212). -/
def portionDone (s : State) (t : TileNo) (k : Nat) (e : Effect) : State :=
  match engWrites s e.req e.writes with
  | (s, r, some st) => endEng s r st []
  | (s, r, none) =>
    let r := { r with portions := modAt r.portions k (fun p => { p with done := true, best := e.best }), sat := r.sat + e.sat }
    let s := noteFor (popTile (setEng (addSat s e.sat) r) t) t r
    if r.portions.all (·.done) then
      finishEng s (match engReq s r.f.src r.f.tag with
        | some x => x
        | none => r)
    else s

/-- DESCRIPTOR_COMPLETE (R171): the running portion's work takes effect, once its source has come and its blocks are
expanded. -/
def descriptorComplete (s : State) (t : TileNo) : State :=
  match running_ s t with
  | none => s
  | some (r, k, p) =>
    let runs := portionRuns s r p
    let part := replicaOn s t runs
    let s := readStack s (portionIndexRuns r p ++ if part.isSome then [] else runs)
    let left := expanding r && decide (zskDone s t < ((portionStretches s r p).map (·.2)).sum)
    match runsCheck s r false (portionIndexRuns r p) with
    | some st => endEng s r st []
    | none =>
      if !portionReady s r p || left then s
      else match runsCheck s r part.isSome runs with
        | some st => engFail s r st
        | none => portionDone s t k (portionEffect s (tileByte part s r) r p)

/-! ### Device frames, progress and tile failure -/

/-- The bytes a device frame or a re-read brings. -/
def stageBytes (r : EngReq) (a : Nat) (bs : List Byte) : EngReq :=
  { r with staged := bs.zipIdx.foldl (fun t x => tset t (a + x.2) x.1) r.staged }

/-- Whether an address lies in the mask of a SCORE_SEL. -/
def inMask (r : EngReq) (a : Nat) : Bool :=
  selMasked r.f && decide ((maskTensor r.f).base ≤ a) && decide (a < (maskTensor r.f).base + ceilDiv (dimOf (srcTensor r.f) 1) 8)

/-- DEVICE_FRAME_COMPLETE (R190) for a request's frame: data read are at hand, a write is made; RETRY sends the frame again (log
entry 21), any other status ends the request (R212). -/
def deviceFrame (s : State) (r : EngReq) (a : Addr) (st : Status) (data : List Byte) : State :=
  match frameAt r.frames a.toNat with
  | none => s
  | some x =>
    if st = .ok then
      let r := { r with frames := frameDone r.frames a.toNat }
      let r := if x.data.isSome then r else stageBytes r a.toNat data
      if r.closing && !awaitsWrites r then completeEng s r else setEng s r
    else if st = .retry then sendFar s r.f x
    else if !farEnds st then s
    else if x.data.isSome || inMask r a.toNat then endEng s r st []
    else engFail s r st

/-- PROGRESS_NOTICE_SEND for an engine request (R194). -/
def progressEng (s : State) (r : EngReq) : State :=
  if r.notice + 200 ≤ s.counter then
    match epDev s r.f.src with
    | some d => notify (setEng s { r with notice := s.counter }) d (.progress r.f.src r.f.tag)
    | none => s
  else s

/-- A portion back in its dispatcher's queue, to be placed on another tile (R173). -/
def requeuePortion (s : State) (d : Desc) : State :=
  match engReq s d.src d.tag with
  | none => s
  | some r => setEng s { r with portions := modAt r.portions d.portion fun p => { p with placed := false } }

/-- A tile's work taken from it, to run elsewhere (R173). -/
def unloadTile (s : State) (t : TileNo) (f : TileRec → TileRec) : State :=
  let q := (tileOf s t).queue
  let s := q.foldl (fun s d => noteLeft s t d) s
  passRereads (q.foldl requeuePortion (modTile s t fun x => f { x with queue := [], zsk := none, smooth := [] }))

/-- A tile marked FAILED: it takes no more work, and what it held runs elsewhere (R173). -/
def failTile (s : State) (t : TileNo) : State := unloadTile s t fun x => { x with failed := true }

/-! ### Functions disabled and enabled (R210 to R214) -/

/-- An RD_OBJ that has yet to expand its rows. -/
def rdExpands (r : ObjRead) : Bool := (byteAt r.f.payload 20).getLsbD 0 && !r.useAlt && r.done.isNone

/-- An enable bit cleared (Table 4.10 steps 1 to 4): queued requests that have not started complete with FUNC_OFF. -/
def disableFn (s : State) (fn : EngFn) : State :=
  if !s.eng.enabled.contains fn then s
  else
    let s := { s with eng := { s.eng with enabled := s.eng.enabled.filter fun x => decide (x ≠ fn) } }
    let idle := s.eng.reqs.filter fun r => (needsFns r.f).contains fn && !r.started
    let reads := if fn = .expand then s.obj.reads.filter rdExpands else []
    let s := idle.foldl (fun s r => endEng s r .funcOff []) s
    let s := reads.foldl (fun s r =>
      completeAt { s with obj := { s.obj with reads := s.obj.reads.filter fun x => !(x.f.src == r.f.src && x.f.tag == r.f.tag) } } r.f
        .funcOff []) s
    if fnBusy s fn then
      { s with eng := { s.eng with draining := s.eng.draining.filter (fun x => decide (x.1 ≠ fn)) ++ [(fn, some s.counter)] } }
    else s

/-- An enable bit set (R214): step 6 of a drain in progress is cancelled, and the drain ends with the work in flight. -/
def enableFn (s : State) (fn : EngFn) : State :=
  if s.eng.enabled.contains fn then s
  else { s with eng := { s.eng with enabled := s.eng.enabled ++ [fn]
                                    draining := s.eng.draining.map fun x => if x.1 = fn then (fn, none) else x } }

/-- A write of T0_UNITS (Table 4.17): refused over 23 or while the tile's tier-0 area holds an object. -/
def writeT0 (s : State) (t : TileNo) (v : Word) : State × Status :=
  let n := bitsOf v.toNat 0 5
  let used := s.obj.tab.any fun e => e.2.t0tiles.any fun x => x.tile == t
  if 23 < n || used then (s, .denied) else (modTile s t fun x => { x with t0 := n }, .ok)

end Sys2Proof.Machine
end

