-- ==== Sys2Proof/Machine/FlashBase.lean ====
section
/-! DEFINITION. The flash tier's parts that seals, reads and collection share: blocks and LUN-planes (R365, R381, R382), the
map (R371, R372, R388), logical runs (R380), the journal (R385 to R390), and retirement (R403, R404). -/

namespace Sys2Proof.Machine

/-! ### LUN-planes and blocks -/

/-- Whether a chip enable of a channel carries a target. -/
def hasTarget (g : Geom) (c e : Nat) : Bool := (g.ces.getD c 0).getLsbD e

/-- The targets found, in ascending order of chip enable and then of channel (R367), as channel and chip enable. -/
def targetsIn (g : Geom) : List (Nat × Nat) :=
  (List.range 8).flatMap fun e => ((List.range 16).filter fun c => hasTarget g c e).map fun c => (c, e)

/-- Raw bytes of one target (R367). -/
def targetBytes (g : Geom) : Nat := g.luns * g.planes * g.blocks * g.pages * (16384 + g.spare)

/-- Targets taken into use: as far as 256 TiB of raw capacity allow (R367). -/
def targetsTaken (g : Geom) : Nat :=
  if targetBytes g = 0 then 0 else min (targetsIn g).length (256 * 2 ^ 40 / targetBytes g)

/-- The targets in use. -/
def targetsOf (s : State) : List (Nat × Nat) := (targetsIn s.ftl.geom).take s.ftl.targets

/-- The properties of Table 9.1 that all targets share. -/
def geomOk (g : Geom) : Bool :=
  decide (1 ≤ g.luns) && decide (g.luns ≤ 4) && decide (1 ≤ g.planes) && decide (g.planes ≤ 4) && decide (384 ≤ g.pages) &&
    decide (g.pages ≤ 3072) && g.pages % 3 == 0 && decide (1 ≤ g.blocks) && decide (g.blocks ≤ 65536) && decide (2048 ≤ g.spare)

/-- Raw capacity of the targets in use. -/
def rawBytes (g : Geom) : Nat := targetsTaken g * targetBytes g

/-- A set of targets that the device supports (R365): at least one on every channel, each within Table 9.1, 4 TiB or more in all. -/
def targetsOk (g : Geom) : Bool :=
  geomOk g && ((List.range 16).all fun c => g.ces.getD c 0 != 0) && decide (4 * 2 ^ 40 ≤ rawBytes g)

/-- The LUN-planes in ascending (channel, chip enable, LUN, plane) order, each as its block 0. -/
def lunPlanes (s : State) : List BlkAddr :=
  let g := s.ftl.geom
  (List.range 16).flatMap fun c => ((List.range 8).filter fun e => (targetsOf s).contains (c, e)).flatMap fun e =>
    (List.range g.luns).flatMap fun l => (List.range g.planes).map fun p =>
      (⟨BitVec.ofNat 4 c, BitVec.ofNat 3 e, BitVec.ofNat 2 l, BitVec.ofNat 2 p, 0⟩ : BlkAddr)

/-- A block of a LUN-plane. -/
def blkIn (lp : BlkAddr) (k : Nat) : BlkAddr := { lp with block := BitVec.ofNat 16 k }

/-- Whether a block is of a LUN-plane. -/
def sameLunPlane (a b : BlkAddr) : Bool := a.chan == b.chan && a.ce == b.ce && a.lun == b.lun && a.plane == b.plane

/-- A block no record lists: free, never erased. -/
def BlkRec.blank : BlkRec := ⟨.free, 0, 0, 0, 0, 0⟩

/-- A block's record. -/
def blkOf (s : State) (b : BlkAddr) : BlkRec := tgetD s.ftl.blocks b BlkRec.blank

/-- A block's record changed. -/
def modBlk (s : State) (b : BlkAddr) (f : BlkRec → BlkRec) : State :=
  { s with ftl := { s.ftl with blocks := tset s.ftl.blocks b (f (blkOf s b)) } }

/-- Blocks of the device. -/
def allBlocks (s : State) : Nat := (lunPlanes s).length * s.ftl.geom.blocks

/-- Blocks not in the bad-block table. -/
def goodBlocks (s : State) : Nat := allBlocks s - (s.ftl.blocks.filter fun x => decide (x.2.use = .bad)).length

/-- Blocks of the journal, the checkpoint, the anchor and the drydown region (R384, R389, R436). -/
def reservedBlocks (s : State) : Nat :=
  let g := s.ftl.geom
  let slc := max 1 (g.pages / 3)
  let lps := max 1 (lunPlanes s).length
  2 + ceilDiv 524288 slc + ceilDiv (2 * ceilDiv s.ftl.l 2048) (max 1 g.pages) + lps * ceilDiv (ceilDiv 270464 lps) slc

/-- Free blocks: good, not in use, and not reserved. -/
def freeBlocks (s : State) : Nat :=
  let used := (s.ftl.blocks.filter fun x => decide (x.2.use ≠ .bad) && decide (x.2.use ≠ .free) && decide (x.2.use ≠ .reserved)).length
  goodBlocks s - used - reservedBlocks s

/-- FREE_PM (Table 9.16). -/
def freePm (s : State) : Nat := if goodBlocks s = 0 then 0 else min 1000 (freeBlocks s * 1000 / goodBlocks s)

/-- The free block that a LUN-plane gives: lowest erase count, or highest for the wear rule's destination (R382). -/
def drawFree (s : State) (lp : BlkAddr) (worn : Bool) : Option BlkAddr :=
  if freeBlocks s = 0 then none
  else
    let cand := ((List.range s.ftl.geom.blocks).map (blkIn lp)).filter fun b => decide ((blkOf s b).use = .free)
    leastBy (fun b => if worn then 0xFFFFFFFF - (blkOf s b).erases else (blkOf s b).erases) cand

/-- The next page of a LUN-plane's open block of a use; a free block is opened when there is none (R381). -/
def placePage (s : State) (use : BlkUse) (worn : Bool) (lp : BlkAddr) : Option (State × PageAddr) :=
  let opened := (s.ftl.blocks.find? fun x =>
    sameLunPlane x.1 lp && decide (x.2.use = use) && decide (x.2.nextPage < s.ftl.geom.pages)).map (·.1)
  let b := match opened with
    | some b => some b
    | none => drawFree s lp worn
  b.map fun b =>
    let n := (blkOf s b).nextPage
    (modBlk s b fun r => { r with use := use, nextPage := n + 1 }, ⟨b, BitVec.ofNat 12 n⟩)

/-- A list turned to start at a place. -/
def rotate {α : Type} (l : List α) (k : Nat) : List α := l.drop (k % max 1 l.length) ++ l.take (k % max 1 l.length)

/-- Pages for some units, one a LUN-plane in rotation; a LUN-plane with no free block is passed over (R381). -/
def placeUnits (use : BlkUse) (worn : Bool) : List Nat → Nat → State → Option (State × List (Nat × PageAddr))
  | [], _, s => some (s, [])
  | u :: us, k, s =>
    match (rotate (lunPlanes s) k).findSome? (placePage s use worn) with
    | none => none
    | some (s, a) => (placeUnits use worn us (k + 1) s).map fun x => (x.1, (u, a) :: x.2)

/-! ### Units and the map (R371, R372) -/

/-- Mapping units of an object. -/
def objUnits (o : Obj) : Nat := ceilDiv o.size 16384

/-- The logical number of a unit of an object with these runs. -/
def runUnit : List (Nat × Nat) → Nat → Option Nat
  | [], _ => none
  | (a, n) :: rest, u => if u < n then some (a + u) else runUnit rest (u - n)

/-- The map entry of a logical unit. -/
def mapEnt (s : State) (lu : Nat) : MapEnt := tgetD s.ftl.map lu .unmapped

/-- A mirrored entry written in both copies: neither is bad now (R33). -/
def bothWritten (s : State) (pl : StackPlace) : State :=
  { s with err := { s.err with badCopies := s.err.badCopies.filter fun x => !decide (x.1 = pl) } }

/-- A map entry set, in both copies. -/
def setMap (s : State) (lu : Nat) (e : MapEnt) : State :=
  bothWritten { s with ftl := { s.ftl with map := if e = .unmapped then tdel s.ftl.map lu else tset s.ftl.map lu e } } (.map lu)

/-- The map entry of a unit of an object. -/
def unitEnt (s : State) (o : Obj) (u : Nat) : MapEnt :=
  match runUnit o.runs u with
  | some lu => mapEnt s lu
  | none => .unmapped

/-- The 16,384 bytes of a page as read for a unit of an object: each codeword's data field decrypted under the key in use (R585,
R586, R588); zeros for a discarded unit (R373). -/
def pageView (s : State) (oid : Oid) (o : Obj) (u : Nat) (a : Option PageAddr) : List Byte :=
  match a with
  | none => List.replicate 16384 0
  | some a =>
    match tget s.ftl.media.pages a with
    | some p =>
      ((List.range 4).map fun k => underKey p.key (objKey s o) (tweak (4 * u + k) oid true) (slice p.data (4096 * k) 4096)).flatten
    | none => []

/-- A delta applied: only when the entry is still the one the record replaced (R388). -/
def applyDelta (s : State) (d : Delta) : State := if mapEnt s d.unit = d.old then setMap s d.unit d.new else s

/-- Mapped units that point into a block: logical unit and page. -/
def unitsIn (s : State) (b : BlkAddr) : List (Nat × PageAddr) :=
  s.ftl.map.filterMap fun x =>
    match x.2 with
    | .mapped a => if a.blk = b then some (x.1, a) else none
    | _ => none

/-- The object and unit that a logical unit belongs to. -/
def unitOwner (s : State) (lu : Nat) : Option (Oid × Nat) :=
  s.obj.tab.findSome? fun x => ((List.range (objUnits x.2)).find? fun u => runUnit x.2.runs u == some lu).map fun u => (x.1, u)

/-! ### Logical runs (R380) -/

/-- Runs in use: those of objects and of seals in progress. -/
def usedRuns (s : State) : List (Nat × Nat) :=
  ((s.obj.tab.flatMap fun x => x.2.runs) ++ s.ftl.seals.flatMap fun x => x.runs).insertionSort fun a b => a.1 ≤ b.1

/-- Free stretches between runs, from a place to the end of the logical space. -/
def freeStretches (l : Nat) : List (Nat × Nat) → Nat → List (Nat × Nat)
  | [], at_ => if at_ < l then [(at_, l - at_)] else []
  | (a, n) :: rest, at_ =>
    (if at_ < a then [(at_, a - at_)] else []) ++ freeStretches l rest (max at_ (a + n))

/-- At most `k` runs for some units, lowest free stretch first. -/
def takeRuns : Nat → List (Nat × Nat) → Nat → Option (List (Nat × Nat))
  | _, _, 0 => some []
  | 0, _, _ => none
  | _, [], _ => none
  | k + 1, (a, n) :: rest, want => (takeRuns k rest (want - min n want)).map fun l => (a, min n want) :: l

/-- The runs of a new seal. -/
def allocRuns (s : State) (units : Nat) : Option (List (Nat × Nat)) :=
  takeRuns 8 (freeStretches s.ftl.l (usedRuns s) 0) units

/-! ### The journal (R385 to R390) -/

/-- Bytes of a record: its 32-byte header, and the body of Table 9.8. -/
def jSize : JBody → Nat
  | .sealRec _ _ t ds => 32 + 64 + 128 + (if t.isSome then 136 else 0) + 12 * ds.length
  | .gc _ ds => 32 + 8 + 12 * ds.length
  | .format _ | .erase _ _ | .retire _ _ | .segment _ | .damage _ _ => 32 + 16
  | .discard _ _ _ => 32 + 24
  | .delete _ | .serial _ => 32 + 8

/-- A record added to the journal, its JSEQ the next (R385). -/
def jAdd (s : State) (body : JBody) (needs : List PageAddr) (ready : Bool) (waiter : Option Req) : State :=
  { s with ftl := { s.ftl with journal := s.ftl.journal ++ [⟨s.ftl.nextJ, body, needs, ready, waiter⟩], nextJ := s.ftl.nextJ + 1 } }

/-- A record of the journal changed. -/
def modJ (s : State) (j : Nat) (f : JRec → JRec) : State :=
  { s with ftl := { s.ftl with journal := modWhere s.ftl.journal (fun r => r.jseq == j) f } }

/-- The serials the journal keeps safe: below the floor of the latest durable SERIAL record (R331). -/
def serialFloor (s : State) : Nat :=
  s.ftl.media.committed.foldl (fun n r => match r.2 with
    | .serial k => max n k
    | _ => n) 1

/-- A record whose JSEQ was reserved by work that ends without it: it repeats the serial floor, so that the sequence has no
gap (R385, R386). -/
def voidRecord (s : State) (j : Nat) : State :=
  modJ s j fun r => { r with body := .serial (serialFloor s), needs := [], ready := true, waiter := none }

/-! ### Health, queues and retirement (R377, R403, R404) -/

/-- The health counters changed. -/
def modHealth (s : State) (f : Health → Health) : State := { s with ftl := { s.ftl with health := f s.ftl.health } }

/-- A block put on the refresh and relocation queue, at most 4,096 (Table 9.23). -/
def queueBlock (s : State) (b : BlkAddr) : State :=
  if s.ftl.refreshQ.contains b || decide (4096 ≤ s.ftl.refreshQ.length) then s
  else { s with ftl := { s.ftl with refreshQ := s.ftl.refreshQ ++ [b] } }

/-- S of R404. -/
def spareS (s : State) : Nat := goodBlocks s - ceilDiv s.ftl.l (max 1 s.ftl.geom.pages) - reservedBlocks s

/-- RDONLY follows the spare (R404). -/
def checkSpare (s : State) : State :=
  if s.ftl.rdonly || decide (s.ftl.freeCrit.toNat * goodBlocks s ≤ 1000 * spareS s) then s
  else setAlert (raise { s with ftl := { s.ftl with rdonly := true } } (report 13 .none { locNone with die := 26 })) alertFlash

/-- A block retired for a cause of Table 9.11, with its RETIRE record; what it still holds is queued for relocation. -/
def retireBlock (s : State) (b : BlkAddr) (cause : Nat) : State :=
  if decide ((blkOf s b).use = .bad) then s
  else
    let s := modBlk s b fun r => { r with use := .bad, cause := cause }
    let s := modHealth s fun h =>
      if cause = 1 then { h with factory := satInc 32 h.factory } else { h with grown := satInc 32 h.grown }
    let s := if (unitsIn s b).isEmpty then s else queueBlock s b
    checkSpare (jAdd s (.retire b cause) [] true none)

/-- What a unit's decoding adds to the health counters (Table 9.21). -/
def countDecode (s : State) (d : Decoded) : State :=
  modHealth s fun h =>
    { h with corr := if d.rung == 1 && d.corrected != 0 then satInc 32 h.corr else h.corr
             retry := if d.rung == 2 then satInc 32 h.retry else h.retry
             soft := satAdd 32 h.soft d.soft
             uncorr := if d.rung == 4 || !d.metaOk then satInc 32 h.uncorr else h.uncorr }

/-- Whether a unit's decoding found it uncorrectable (R375, R376). -/
def decodeBad (d : Decoded) : Bool := d.rung == 4 || !d.metaOk

/-- What a read of a page does for its block: counts, the refresh queue, retirement (R377, R403). -/
def afterRead (s : State) (a : PageAddr) (d : Decoded) : State :=
  let s := countDecode s d
  let s := modBlk s a.blk fun r => { r with soft := r.soft + d.soft }
  if decodeBad d then retireBlock s a.blk 4
  else
    let s := if d.rung == 2 || d.rung == 3 || decide (s.ftl.refreshBits.toNat < d.corrected) then queueBlock s a.blk else s
    if 8 ≤ (blkOf s a.blk).soft then retireBlock s a.blk 5 else s

end Sys2Proof.Machine
end

