-- ==== Sys2Proof/Machine/Objects.lean ====
section
/-! DEFINITION. The object table's commands (R330 to R341): descriptors, quotas, tier-1 pages, copies and replicas, alternates,
deletion, and stream plans (R355 to R357). -/

namespace Sys2Proof.Machine

/-! ### Descriptors (Table 8.2) -/

/-- The command data of a source, as bytes (R362). -/
def objBytes (p : Priv) : List Byte := (List.range 16).flatMap fun k => leBytes (tgetD p.objData (BitVec.ofNat 4 k) 0).toNat 4

/-- Command data registers written with bytes from register 0. -/
def putObjData (s : State) (w : Who) (bs : List Byte) : State :=
  modPriv s w fun p => { p with objData := (List.range (ceilDiv bs.length 4)).foldl (fun t k =>
    tset t (BitVec.ofNat 4 k) (BitVec.ofNat 32 (leAt bs (4 * k) 4))) p.objData }

/-- An object as CREATE finds it in the command data; fields that only the device sets are ignored (R333). -/
def descOf (d : List Byte) (t : TenantId) : Obj :=
  let b8 := byteAt d 8
  { tier := b8.extractLsb' 0 2, zskip := b8.getLsbD 2, prot := b8.getLsbD 3, isSealed := false, damaged := false,
    etype := (byteAt d 9).extractLsb' 0 2, t1 := .none, t0rep := false, sealing := false, cdense := false, tenant := t,
    stackMask := (byteAt d 12).extractLsb' 0 4, qmask := (byteAt d 12).extractLsb' 4 4, size := leAt d 16 5,
    rows := leAt d 24 5, rowBytes := leAt d 32 4, addr := bitsOf (leAt d 40 8) 0 58, alt := 0, deleted := false,
    runs := [], t0tiles := [], fillsT0 := false, fillGen := 0 }

/-- The 64 bytes of an object's descriptor. -/
def descBytes (oid : Oid) (o : Obj) : List Byte :=
  let t1 := match o.t1 with
    | .none => 0
    | .filling => 1
    | .valid => 2
  leBytes oid.toNat 8 ++
    [BitVec.ofNat 8 (o.tier.toNat + 4 * bit o.zskip + 8 * bit o.prot + 16 * bit o.isSealed + 32 * bit o.damaged)] ++
    [BitVec.ofNat 8 (o.etype.toNat + 4 * t1 + 16 * bit o.t0rep + 32 * bit o.sealing + 64 * bit o.cdense)] ++
    leBytes o.tenant.toNat 2 ++ [o.qmask ++ o.stackMask, 0, 0, 0] ++ leBytes o.size 8 ++ leBytes o.rows 8 ++
    leBytes o.rowBytes 8 ++ leBytes (if hasAddr o then o.addr else 0) 8 ++ leBytes o.alt.toNat 8 ++ List.replicate 8 0

/-- Reserved bits of a descriptor. -/
def descReserved (d : List Byte) : Bool :=
  zerosAt d 5 3 && bitsOf (leAt d 8 1) 6 2 == 0 && bitsOf (leAt d 9 1) 7 1 == 0 && bitsOf (leAt d 10 2) 12 4 == 0 && zerosAt d 13 3 &&
    zerosAt d 21 3 && zerosAt d 29 3 && zerosAt d 36 4 && bitsOf (leAt d 40 8) 58 6 == 0 && zerosAt d 53 3 && zerosAt d 56 8

/-- Elements of a dense interleaved row. -/
def rowElems (o : Obj) : Nat := if o.etype = 3 then o.rowBytes else o.rowBytes / (blockElemBytes o.etype.toNat + 1) * 32

/-- What R334 and R587 refuse. -/
def descBad (d : List Byte) (o : Obj) : Bool :=
  let block := blockElemBytes o.etype.toNat + 1
  !descReserved d || o.tier == 0 || (o.zskip && o.prot) || (o.tier == 2 && o.prot) ||
    (o.zskip && o.etype == 3) || o.size == 0 || o.rows == 0 || o.rowBytes == 0 ||
    (o.etype != 3 && o.rowBytes % block != 0) || (o.zskip && rowElems o % 256 != 0) || (!o.zskip && o.size != o.rows * o.rowBytes)

/-! ### Quotas (R340, R341) -/

/-- Use of a tenant in a tier. -/
def quotaUse (s : State) (t : TenantId) (tier : BitVec 2) : Nat := tgetD s.obj.quotaUse (t, tier) 0

/-- Whether `n` more units stay within a tenant's limit. -/
def quotaRoom (s : State) (t : TenantId) (tier : BitVec 2) (n : Nat) : Bool :=
  decide (quotaUse s t tier + n ≤ tgetD s.obj.quotaLim (t, tier) 0)

/-- Use raised. -/
def quotaAdd (s : State) (t : TenantId) (tier : BitVec 2) (n : Nat) : State :=
  { s with obj := { s.obj with quotaUse := tset s.obj.quotaUse (t, tier) (quotaUse s t tier + n) } }

/-- Use lowered. -/
def quotaSub (s : State) (t : TenantId) (tier : BitVec 2) (n : Nat) : State :=
  { s with obj := { s.obj with quotaUse := tset s.obj.quotaUse (t, tier) (quotaUse s t tier - n) } }

/-! ### Tier-1 pages (R330, R32, R35) -/

/-- Tier-1 pages of one stack: 101 GiB, and what the map leaves of its 24 GiB once L is known. -/
def stackPages (s : State) : Nat := (101 * 2 ^ 30 + if s.ftl.l = 0 then 0 else 24 * 2 ^ 30 - 3 * s.ftl.l) / 4096

/-- Frames of a stack that lie in isolated banks (R673, R677). -/
def badFrames (s : State) (q : Quad) : List (Nat × Nat) :=
  (s.err.badBanks.filter fun x => x.1 == q).flatMap fun x =>
    (List.range (ceilDiv (stackPages s) 4096)).map fun k => (4096 * k + x.2.toNat, 1)

/-- Frames of a stack that pages and plan staging use, or that no page may use, as runs in rising order. -/
def usedFrames (s : State) (q : Quad) : List (Nat × Nat) :=
  let pages := s.obj.pages.filterMap fun r => if r.stack == q then some (r.frame, r.n) else none
  let staging := s.obj.plans.flatMap fun p => p.2.frames.filterMap fun r => if r.stack == q then some (r.frame, r.n) else none
  (pages ++ staging ++ badFrames s q).insertionSort fun a b => a.1 ≤ b.1

/-- The lowest `n` free frames of a stack, as runs; none when it lacks them. -/
def freeFrames (s : State) (q : Quad) (n : Nat) : Option (List FrameRun) :=
  let free := freeStretches (stackPages s) (usedFrames s q) 0
  (takeRuns free.length free n).map fun l => l.map fun x => ⟨q, x.1, x.2⟩

/-- The stacks of a STACKS field. -/
def stacksOf (m : BitVec 4) : List Quad := maskQuads m

/-- Pages on each stack: runs of q pages, then what remains (R330). -/
def stackShares (m : BitVec 4) (size : Nat) : List (Quad × Nat) :=
  let c := (stacksOf m).length
  let q := ceilDiv size (c * 4096)
  let pages := ceilDiv size 4096
  (stacksOf m).zipIdx.map fun (k, i) => (k, min q (pages - i * q))

/-- Frames for a range, in the order of its pages; none when a stack lacks them. -/
def takeFrames (s : State) (m : BitVec 4) (size : Nat) : Option (List FrameRun) :=
  (stackShares m size).foldl (fun l x => l.bind fun l => (freeFrames s x.1 x.2).map fun fs => l ++ fs) (some [])

/-- Pages from a number upward, backed by runs of frames in their order. -/
def backRuns (oid : Oid) : Nat → List FrameRun → List PageRun
  | _, [] => []
  | p, f :: fs => ⟨p, f.n, oid, f.stack, f.frame, none⟩ :: backRuns oid (p + f.n) fs

/-- The first free stretch of aperture pages of a length (log entry 29). -/
def freeRange (s : State) (n : Nat) : Option Nat :=
  let used := (s.obj.pages.map fun r => (r.first, r.n)).insertionSort fun a b => a.1 ≤ b.1
  ((freeStretches (2 ^ 27) used 0).find? fun x => decide (n ≤ x.2)).map (·.1)

/-- A tier-1 range allocated: its base (R330). -/
def allocRange (s : State) (oid : Oid) (m : BitVec 4) (size : Nat) : Option (State × Nat) :=
  (takeFrames s m size).bind fun fs => (freeRange s (fs.map (·.n)).sum).map fun p =>
    ({ s with obj := { s.obj with pages := s.obj.pages ++ backRuns oid p fs } }, t1Base s + 4096 * p)

/-- Page runs freed and scrubbed, with the use of their tenant (R339, R340). -/
def freeRuns (s : State) (t : TenantId) (p : PageRun → Bool) : State :=
  let rs := s.obj.pages.filter p
  let s := rs.foldl (fun s r => zeroRange s (4096 * r.first) (4096 * r.n)) s
  quotaSub { s with obj := { s.obj with pages := s.obj.pages.filter fun r => !p r } } t 1 ((rs.map (·.n)).sum)

/-- An object's tier-1 range given up: engine requests so far may still use it (R339). -/
def giveUp (s : State) (oid : Oid) : State :=
  let n := s.eng.nextNo
  { s with obj := { s.obj with pages := s.obj.pages.map fun r => if heldRun oid r then { r with gone := some n } else r } }

/-- Units of a tile's tier-0 area that no replica holds, the lowest first. -/
def t0Free (s : State) (t : TileNo) : List Nat :=
  let used := s.obj.tab.flatMap fun x => (x.2.t0tiles.filter fun y => y.tile == t).flatMap (·.units)
  (List.range (tileOf s t).t0).filter fun u => !used.contains u

/-- The bytes of some units of a tile's tier-0 area erased. -/
def eraseUnits (x : TileRec) (us : List Nat) : TileRec :=
  { x with sram := us.foldl (fun c u => cellDrop c (workLimit x + 65536 * u) 65536) x.sram }

/-- A replica's tile space scrubbed and freed (R339). -/
def freeReplica (s : State) (oid : Oid) (o : Obj) : State :=
  let s := o.t0tiles.foldl (fun s p => modTile s p.tile fun x => eraseUnits x p.units) s
  let s := { s with obj := { s.obj with fills := s.obj.fills.filter fun x => !(x.oid == oid && x.t0) } }
  quotaSub (modObj s oid fun o => { o with t0rep := false, fillsT0 := false, t0tiles := [] }) o.tenant 0
    ((o.t0tiles.map (·.units.length)).sum)

/-- An object's fill ends, and with it the device's own EXPAND. -/
def stopFill (s : State) (oid : Oid) : State :=
  let s := match s.eng.reqs.find? fun r => decide (r.own = some oid) with
    | some r => endDrains (dropReq s r)
    | none => s
  { s with obj := { s.obj with fills := s.obj.fills.filter fun x => !(x.oid == oid && !x.t0) } }

/-! ### Commands (Table 8.3) -/

/-- Whether drydown has begun, so that object commands not yet accepted complete with RETRY (Table 10.2 step 2). -/
def dryingDown (s : State) : Bool := s.dry.drying && s.dry.image.any fun i => !i.committed

/-- The object that a command or request names (R335). -/
def objNamed (s : State) (oid : Oid) (t : TenantId) : Option Obj :=
  if oid == 0 || oid.extractLsb' 34 6 != devId s then none
  else (objOf s oid).bind fun o => if o.tenant == t then some o else none

/-- Whether an object is registered as some object's alternate (R338). -/
def isAlternate (s : State) (oid : Oid) : Bool := s.obj.tab.any fun x => !x.2.deleted && x.2.alt == oid

/-- Units an object of home tier 2 counts (Table 8.4). -/
def tier2Units (o : Obj) : Nat := ceilDiv o.size (2 ^ 20)
/-- Units an object of home tier 3 counts (Table 8.4). -/
def tier3Units (o : Obj) : Nat := ceilDiv o.size 65536

/-- CREATE (R334, R336). A serial at or above the durable floor waits for its SERIAL record (R331) while the flash tier is online;
offline, no journal can take one. DESIGN CHOICE (log entry 28): past the last serial the answer is NO_SLOT. -/
def createCmd (s : State) (w : Who) (t : TenantId) : State × Option Status :=
  let d := objBytes (privOf s w)
  let o := descOf d t
  if descBad d o || o.tier == 3 then (s, some .denied)
  else
    let (tier, units) : BitVec 2 × Nat := if o.tier = 1 then (1, ceilDiv o.size 4096) else (2, tier2Units o)
    if !quotaRoom s t tier units then (s, some .quota)
    else if 1048576 ≤ s.obj.tab.length || 2 ^ 34 ≤ s.obj.nextSerial then (s, some .noSlot)
    else if s.ftl.state = .online && s.obj.nextSerial ≥ serialFloor s then
      let waits := s.ftl.journal.any fun r => match r.body with
        | .serial k => decide (s.obj.nextSerial < k)
        | _ => false
      (if waits then s else jAdd s (.serial (s.obj.nextSerial + 4096)) [] true none, none)
    else
      let oid : Oid := devId s ++ BitVec.ofNat 34 s.obj.nextSerial
      let place := if o.tier = 1 then allocRange s oid o.stackMask o.size else some (s, o.addr)
      match place with
      | none => (s, some .noSlot)
      | some (s, a) =>
        let s := quotaAdd s t tier units
        let s := { s with obj := { s.obj with tab := tset s.obj.tab oid { o with addr := a }, nextSerial := s.obj.nextSerial + 1 }
                          ftl := { s.ftl with media := { s.ftl.media with serial := max s.ftl.media.serial (s.obj.nextSerial + 1) } } }
        (putObjData s w (leBytes oid.toNat 8), some .ok)

/-- A descriptor written as 96 payload bytes (Table 4.8). -/
def tensorPut (t : Tensor) : List Byte :=
  leBytes t.base 8 ++ [BitVec.ofNat 8 t.rank, BitVec.ofNat 8 (t.etype + 4 * bit t.planar + 8 * bit t.zskip)] ++ List.replicate 6 0 ++
    leBytes t.expAddr 8 ++ ((List.range 6).flatMap fun k => leBytes (dimOf t k) 4) ++
    ((List.range 6).flatMap fun k => leBytes (BitVec.ofInt 64 (strideOf t k)).toNat 8)

/-- An object's data as a tensor at a base: rows of dense blocks or raw bytes, or a zero-skip stream. -/
def objTensor (o : Obj) (base : Nat) (zskip : Bool) : Tensor :=
  { base := base, rank := 2, etype := o.etype.toNat, planar := false, zskip := zskip, expAddr := 0,
    dims := [rowElems o, o.rows, 0, 0, 0, 0], strides := [0, if zskip then 0 else (o.rowBytes : Int), 0, 0, 0, 0] }

/-- The bytes of an object's unit as flash returns them; none for a damaged or unmapped one. -/
def unitBytes3 (s : State) (oid : Oid) (o : Obj) (u : Nat) : Option (List Byte) :=
  match unitEnt s o u with
  | .mapped a => some (pageView s oid o u (some a))
  | .discarded => some (List.replicate 16384 0)
  | _ => none

/-- A unit known not to be readable: in the damaged-extent table, an object damaged whole, or STATE 0 or 3 (R359, R373). -/
def unitLost (s : State) (oid : Oid) (o : Obj) (u : Nat) : Bool :=
  s.obj.damagedExt.contains (oid, u) || (o.damaged && !o.zskip) || match unitEnt s o u with
    | .mapped _ | .discarded => false
    | _ => true

/-! ### Fetches (R358) -/

/-- Tier-3 fetches outstanding at once (Table 8.17). -/
def fetchCapacity : Nat := 16384

/-- A fetch of a unit begun, unless one runs or the table is full (R358). -/
def startFetch (s : State) (oid : Oid) (o : Obj) (u : Nat) : State :=
  if (s.obj.fetches.any fun x => x.oid == oid && x.unit == u) || fetchCapacity ≤ s.obj.fetches.length then s
  else
    let page := match unitEnt s o u with
      | .mapped a => some a
      | _ => none
    let s := { s with obj := { s.obj with fetches := s.obj.fetches ++ [⟨oid, u, page, unitLost s oid o u, s.counter⟩] } }
    match page with
    | some a => emit s (.nandRead a u)
    | none => s

/-- Units that reads, plan steps, plans and copies await. -/
def wantedUnits (s : State) : List (Oid × Nat) :=
  (s.obj.reads.flatMap fun r => r.waits.map fun u => (r.oid, u)) ++
    (s.obj.plans.flatMap fun p => p.2.waits.map (fun u => (p.2.oid, u)) ++ p.2.steps.flatMap fun x => x.need.map fun u => (x.oid, u)) ++
    s.obj.fills.flatMap fun x => x.waits.map fun u => (x.oid, u)

/-- Fetches begun for every unit that is awaited (R358). -/
def fillFetches (s : State) : State :=
  (wantedUnits s).foldl (fun s x => match tget s.obj.tab x.1 with
    | some o => startFetch s x.1 o x.2
    | none => s) s

/-! ### Copies that fill (R337, R311) -/

/-- The EXPAND of the device's own functions that fills an expanding copy (R311): its stream comes by fetches. -/
def ownReq (s : State) (o : Obj) : Req :=
  { blankReq with opcode := Op.expand, src := ownEp s, dst := ownEp s, tag := BitVec.ofNat 16 s.eng.nextNo, tenant := o.tenant,
                  chk := true, len := 13,
                  payload := [0, 0, 0, 0, 0, 0] ++ leBytes 12 2 ++ List.replicate 8 0 ++ tensorPut (objTensor o (ownBase s) true) ++
                    tensorPut (objTensor o o.addr false) }

/-- A copy's EXPAND issued. RETRY leaves it to be issued again; another refusal drops the copy (R200, R321, R337). -/
def issueFill (s : State) (oid : Oid) : State :=
  match tget s.obj.tab oid with
  | none => s
  | some o =>
    let f := ownReq s o
    match entryStatus s 0 f (some oid) false with
    | none =>
      queueReq { s with obj := { s.obj with fills := modWhere s.obj.fills (fun x => x.oid == oid && !x.t0) fun x => { x with issued := true } } }
        (newReq s 0 f o.fillGen (some oid))
    | some .retry => s
    | some _ => dropFilling s oid

/-- Expanding copies whose EXPAND the full queue turned away (R311): it is issued again. -/
def issueFills (s : State) : State :=
  (s.obj.fills.filter fun x => x.expand && !x.issued).foldl (fun s x => issueFill s x.oid) s

/-- Lines of a unit of a copy marked, because its flash unit cannot be read. -/
def poisonUnit (s : State) (base size u : Nat) : State :=
  (List.range (ceilDiv (min 16384 (size - 16384 * u)) 128)).foldl (fun s k => poisonLine s (lineOf s (base + 16384 * u + 128 * k))) s

/-- A filling copy changed. -/
def modFill (s : State) (oid : Oid) (f : Fill → Fill) : State :=
  { s with obj := { s.obj with fills := modWhere s.obj.fills (fun x => x.oid == oid && !x.t0) f } }

/-- A unit that a copy awaited has come: written, or kept for the copy's EXPAND; the cipher stage may end the fill (R591). -/
def fillGot (s : State) (oid : Oid) (u : Nat) (bs : List Byte) : State :=
  match fillOf s oid false, tget s.obj.tab oid with
  | some x, some o =>
    if !x.waits.contains u then s
    else if (cipherCheck s o.tenant o.prot o.fillGen).isSome then dropFilling (stopFill s oid) oid
    else
      let s := modFill s oid fun x => { x with waits := x.waits.filter (· != u), got := if x.expand then tset x.got u bs else x.got }
      if x.expand then s else t1Write 129 (o.addr + 16384 * u) (bs.take (o.size - 16384 * u)) s
  | _, _ => s

/-- A unit that a copy awaited is lost: its lines are marked; an expanding copy is dropped (R671). -/
def fillLost (s : State) (oid : Oid) (u : Nat) : State :=
  match fillOf s oid false, tget s.obj.tab oid with
  | some x, some o =>
    if !x.waits.contains u then s
    else if x.expand then dropFilling (stopFill s oid) oid
    else poisonUnit (modFill s oid fun x => { x with waits := x.waits.filter (· != u) }) o.addr o.size u
  | _, _ => s

/-! ### PLACE and UNPLACE (R337, R339) -/

/-- PLACE with TIER 1 (R337). -/
def placeCopy (s : State) (oid : Oid) (o : Obj) (m : BitVec 4) (dense : Bool) : State × Status :=
  let expands := o.zskip && dense
  let size := if expands then o.rows * o.rowBytes else o.size
  if o.tier != 3 || o.t1 != .none || (!o.zskip && !dense) then (s, .denied)
  else if expands && !(s.eng.enabled.contains .expand) then (s, .funcOff)
  else if !quotaRoom s o.tenant 1 (ceilDiv size 4096) then (s, .quota)
  else match allocRange s oid m size with
    | none => (s, .noSlot)
    | some (t, a) =>
      if o.sealing then (s, .busyRetry)
      else
        let o := { o with t1 := T1State.filling, addr := a, cdense := expands, stackMask := m, fillGen := genTag s o.tenant }
        let us := List.range (objUnits o)
        let x : Fill := { oid := oid, t0 := false, expand := expands, issued := false, waits := us, got := [], frames := [] }
        let s := quotaAdd t o.tenant 1 (ceilDiv size 4096)
        let s := { s with obj := { s.obj with tab := tset s.obj.tab oid o, fills := s.obj.fills ++ [x] } }
        let s := (us.filter (unitLost s oid o)).foldl (fun s u => fillLost s oid u) s
        (fillFetches (if expands then issueFill s oid else s), .ok)

/-- The tiles of a replica: parts of equal whole rows over the ungated tiles in ascending index (R337). -/
def replicaTiles (s : State) (o : Obj) (m : BitVec 4) : List TileNo :=
  let tiles := openTiles s (maskQuads m)
  tiles.take (ceilDiv o.rows (ceilDiv o.rows (max 1 tiles.length)))

/-- A part of an object's replica: where its bytes begin, and how many it has. -/
def partRange (o : Obj) (parts k : Nat) : Nat × Nat :=
  (o.addr + k * partBytes o parts, min (partBytes o parts) (rangeBytes o - k * partBytes o parts))

/-- The epoch of the device's own functions. -/
def ownEpoch (s : State) : Epoch := ((tget s.lse.comps (compOf s (ownEp s))).map (·.stamp)).getD 0

/-- The header of a device frame that the device's own functions send for a tenant (R190). -/
def ownHead (s : State) (tag : Tag) (t : TenantId) : DevHead := ⟨ownEp s, tag, t, ownEpoch s, true⟩

/-- The tag of the device frames that fill replicas; the lower ones are the plans'. -/
def replicaTag : Tag := 256

/-- A device frame that reads for a replica. -/
def askPart (s : State) (o : Obj) (x : FarFrame) : State := emit s (.devRead (ownHead s replicaTag o.tenant) (BitVec.ofNat 58 x.a) x.n)

/-- PLACE with TIER 0 (R337). The parts of an object on a tray are read by device frames. -/
def placeReplica (s : State) (oid : Oid) (o : Obj) (m : BitVec 4) : State × Status :=
  let used := replicaTiles s o m
  let n := used.length
  let units := ceilDiv (partBytes o n) 65536
  let busy : Status := if o.sealing then .busyRetry else .ok
  if !readOnly o || !hasAddr o || (o.tier == 3 && o.t1 != .valid) || o.t0rep || o.fillsT0 then (s, .denied)
  else if !quotaRoom s o.tenant 0 (units * n) then (s, .quota)
  else if used.isEmpty || used.any fun t => decide ((t0Free s t).length < units) then (s, .noSlot)
  else if busy = .busyRetry then (s, busy)
  else
    let parts := used.map fun t => T0Part.mk t ((t0Free s t).take units)
    let far : List FarFrame := if o.tier = 2 then (List.range n).map fun k => ⟨(partRange o n k).1, (partRange o n k).2, none⟩ else []
    let x : Fill := { oid := oid, t0 := true, expand := false, issued := false, waits := [], got := [], frames := far }
    let s := modObj s oid fun o => { o with fillsT0 := true, qmask := m, t0tiles := parts }
    let s := quotaAdd { s with obj := { s.obj with fills := s.obj.fills ++ [x] } } o.tenant 0 (units * n)
    (far.foldl (fun s y => askPart s o y) s, .ok)

/-- PLACE (R337, R339). -/
def placeCmd (s : State) (w : Who) (t : TenantId) : State × Option Status :=
  let d := objBytes (privOf s w)
  let oid : Oid := BitVec.ofNat 40 (leAt d 0 5)
  let tier := bitsOf (leAt d 8 1) 0 2
  match objNamed s oid t with
  | none => (s, some .denied)
  | some o =>
    if !zerosAt d 5 3 || 1 < tier then (s, some .denied)
    else
      let r := if tier = 1 then placeCopy s oid o ((byteAt d 12).extractLsb' 0 4) (!(byteAt d 8).getLsbD 2)
        else placeReplica s oid o ((byteAt d 12).extractLsb' 4 4)
      (r.1, some r.2)

/-- UNPLACE (R339): later reads go to the home tier; the pages go when the reads in flight end. A replica goes with the copy whose
range it replicates (log entry 30). -/
def unplaceCmd (s : State) (w : Who) (t : TenantId) : State × Option Status :=
  let d := objBytes (privOf s w)
  let oid : Oid := BitVec.ofNat 40 (leAt d 0 5)
  let tier := bitsOf (leAt d 8 1) 0 2
  match objNamed s oid t with
  | none => (s, some .denied)
  | some o =>
    if !zerosAt d 5 3 || 1 < tier || (tier = 1 && (o.tier != 3 || o.t1 == .none)) || (tier = 0 && !o.t0rep && !o.fillsT0) then
      (s, some .denied)
    else if o.sealing then (s, some .busyRetry)
    else if tier = 1 then
      (modObj (giveUp (stopFill (freeReplica s oid o) oid) oid) oid fun o => { o with t1 := .none, cdense := false, addr := 0 }, some .ok)
    else (freeReplica s oid o, some .ok)

/-- SET_ALT (R338, R420). -/
def setAltCmd (s : State) (w : Who) (t : TenantId) : State × Option Status :=
  let d := objBytes (privOf s w)
  let oid : Oid := BitVec.ofNat 40 (leAt d 0 5)
  let alt : Oid := BitVec.ofNat 40 (leAt d 48 5)
  match objNamed s oid t with
  | none => (s, some .denied)
  | some o =>
    let fits := (objNamed s alt t).any fun a =>
      a.prot == o.prot && a.rows == o.rows && !a.zskip && a.alt == 0 && (a.isSealed || a.tier == 2)
    if !zerosAt d 5 3 || !zerosAt d 53 3 || (alt != 0 && (isAlternate s oid || alt == oid || !fits)) then (s, some .denied)
    else if o.sealing then (s, some .busyRetry)
    else
      let s := modObj s oid fun o => { o with alt := alt }
      (if s.dry.buf.any fun r => r.live && r.oid == oid then dryDesc s oid { o with alt := alt } else s, some .ok)

/-- Staging of a plan freed, and the plan with it (R356). -/
def endPlan (s : State) (n : BitVec 8) : State :=
  match tget s.obj.plans n with
  | some p => quotaSub { s with obj := { s.obj with plans := tdel s.obj.plans n } } p.tenant 1 (16 * p.stage)
  | none => s

/-- Plans whose plan object is gone end. -/
def endPlansOf (s : State) (oid : Oid) : State := s.obj.plans.foldl (fun s x => if x.2.oid == oid then endPlan s x.1 else s) s

/-- Plans whose every step is consumed or skipped end (R356). -/
def endDonePlans (s : State) : State :=
  s.obj.plans.foldl (fun s x => if !x.2.steps.isEmpty && x.2.steps.all (·.over_) then endPlan s x.1 else s) s

/-- Steps of plans over an object that is deleted or sealed again are skipped, their staging freed (R356). -/
def passSteps (s : State) (oid : Oid) : State :=
  endDonePlans { s with obj := { s.obj with plans := tmap s.obj.plans fun _ p =>
    { p with steps := modWhere p.steps (fun x => x.oid == oid) fun x => { x with over_ := true, staged := false, need := [], got := [] } } } }

/-- The DELETE record of a deleted object of home tier 3, written once no read of it is in flight (R339, R409; log entry 31). -/
def writeDelete (s : State) (oid : Oid) : State :=
  match tget s.obj.tab oid with
  | some o =>
    let written := s.ftl.journal.any fun j => match j.body with
      | .delete x => x == oid
      | _ => false
    if o.deleted && o.tier == 3 && !o.runs.isEmpty && !written && !(s.obj.reads.any fun r => r.oid == oid) then jAdd s (.delete oid) [] true none
    else s
  | none => s

/-- An object removed from new requests' sight; its DELETE record follows when it is sealed (R339, R409). -/
def deleteObj (s : State) (oid : Oid) : State :=
  let s := dryExposed (killRecs (giveUp (stopFill s oid) oid) fun r => r.oid == oid)
  writeDelete (modObj (passSteps (endPlansOf s oid) oid) oid fun o => { o with deleted := true }) oid

/-- DELETE (R338, R339). -/
def deleteCmd (s : State) (w : Who) (t : TenantId) : State × Option Status :=
  let d := objBytes (privOf s w)
  let oid : Oid := BitVec.ofNat 40 (leAt d 0 5)
  match objNamed s oid t with
  | none => (s, some .denied)
  | some o =>
    if !zerosAt d 5 3 || isAlternate s oid then (s, some .denied)
    else if o.sealing || o.t1 = .filling || o.fillsT0 then (s, some .busyRetry)
    else (deleteObj s oid, some .ok)

/-- QUERY (R336). -/
def queryCmd (s : State) (w : Who) (t : TenantId) : State × Option Status :=
  let oid : Oid := BitVec.ofNat 40 (leAt (objBytes (privOf s w)) 0 5)
  match objNamed s oid t with
  | some o => (putObjData s w (descBytes oid o), some .ok)
  | none => (s, some .denied)

/-! ### Background completions (R337, R339) -/

/-- Whether a request in flight still uses a run of pages that was given up. -/
def runInUse (s : State) (r : PageRun) : Bool :=
  let lo := t1Base s + 4096 * r.first
  let hits : Int × Int → Bool := fun x => rangesMeet x ((lo : Int), (lo + 4096 * r.n : Nat) - 1)
  (s.eng.reqs.any fun q => decide (q.no < r.gone.getD 0) && (namedRanges q.f 1).any fun x => hits ((x.lo : Int), (x.hi : Int))) ||
    s.acc.slots.any fun x => decide (x.2.state ≠ .free) && decide (x.2.no < r.gone.getD 0) &&
      (x.2.result.any fun t => (tensorRanges t).any hits)

/-- A deleted object leaves the table once it has no pages and no reads, one of home tier 3 once its DELETE record is durable (R339,
R409). -/
def leaveTable (s : State) (oid : Oid) : State :=
  match tget s.obj.tab oid with
  | none => s
  | some o =>
    if !o.deleted || (s.obj.pages.any fun r => r.oid == oid) || (s.obj.reads.any fun r => r.oid == oid) || (o.tier == 3 && !o.runs.isEmpty)
    then s
    else
      let s := if o.tier = 2 then quotaSub s o.tenant 2 (tier2Units o) else s
      let s := freeReplica s oid o
      { s with obj := { s.obj with tab := tdel s.obj.tab oid } }

/-- OBJECT_SCRUB_FREE (R339): once nothing in flight uses it, a given-up range is scrubbed and freed, and with a deleted object its
replica. -/
def objectScrubFree (s : State) (oid : Oid) : State :=
  match tget s.obj.tab oid with
  | none => s
  | some o =>
    let old : PageRun → Bool := fun r => r.oid == oid && r.gone.isSome
    if s.obj.pages.any fun r => old r && runInUse s r then s
    else
      let s := freeRuns s o.tenant old
      leaveTable (if o.deleted then freeReplica s oid o else s) oid

/-- A tier-1 copy dropped: its pages freed, T1STATE 0 (R337). -/
def dropCopy (s : State) (oid : Oid) : State :=
  match tget s.obj.tab oid with
  | none => s
  | some o =>
    modObj (freeRuns (freeReplica (stopFill s oid) oid o) o.tenant (heldRun oid)) oid fun o => { o with t1 := .none, addr := 0, cdense := false }

/-- T1_COPY_FILLED (R337): the copy holds the object's units, or the dense expansion that its EXPAND wrote. -/
def t1CopyFilled (s : State) (oid : Oid) : State :=
  match fillOf s oid false with
  | none => s
  | some x =>
    if !x.waits.isEmpty || (x.expand && (!x.issued || s.eng.reqs.any fun r => decide (r.own = some oid))) then s
    else stopFill (modObj s oid fun o => { o with t1 := .valid }) oid

/-- Bytes put into a part of a replica, unit by unit. -/
def putPart (x : TileRec) (p : T0Part) (bs : List Byte) : TileRec :=
  (List.range (ceilDiv bs.length 65536)).foldl (fun x k =>
    { x with sram := cellWriteN x.sram (partAt x p (65536 * k)) (slice bs (65536 * k) (min 65536 (bs.length - 65536 * k))) }) x

/-- A part of a replica filled. -/
def fillPart (s : State) (p : T0Part) (bs : List Byte) : State := modTile s p.tile fun x => putPart x p bs

/-- Whether tier-1 lines of a range of an object are marked. -/
def rangePoisoned (s : State) (a n : Nat) : Bool := (runLines s (a, n)).any fun b => isPoisoned s (lineOf s b)

/-- A replica that cannot be filled, dropped. -/
def dropReplica (s : State) (oid : Oid) : State :=
  match tget s.obj.tab oid with
  | some o => freeReplica s oid o
  | none => s

/-- REPLICA_FILLED (R337): the parts hold the object's bytes; log entry 32: bytes found bad end it. -/
def replicaFilled (s : State) (oid : Oid) : State :=
  match fillOf s oid true, tget s.obj.tab oid with
  | some x, some o =>
    if !x.frames.isEmpty then s
    else if o.tier ≠ 2 ∧ rangePoisoned s o.addr (rangeBytes o) then dropReplica s oid
    else
      let s := if o.tier = 2 then s else o.t0tiles.zipIdx.foldl (fun s (p, k) =>
        let r := partRange o o.t0tiles.length k
        fillPart s p ((List.range r.2).map fun i => t1View s (r.1 + i))) s
      { modObj s oid (fun o => { o with fillsT0 := false, t0rep := true }) with
        obj := { (modObj s oid fun o => { o with fillsT0 := false, t0rep := true }).obj with
          fills := s.obj.fills.filter fun y => !(y.oid == oid && y.t0) } }
  | _, _ => s

/-- A tray's answer for a replica (R190). -/
def replicaArrive (s : State) (a : Addr) (st : Status) (bs : List Byte) : State :=
  match s.obj.fills.findSome? fun x => if x.t0 then (frameAt x.frames a.toNat).map fun y => (x.oid, y) else none with
  | none => s
  | some (oid, y) =>
    match tget s.obj.tab oid with
    | none => s
    | some o =>
      if st = .retry then askPart s o y
      else if st = .ok then
        let k := (y.a - o.addr) / partBytes o o.t0tiles.length
        let s := match o.t0tiles[k]? with
          | some p => fillPart s p bs
          | none => s
        { s with obj := { s.obj with fills := modWhere s.obj.fills (fun x => x.oid == oid && x.t0) fun x =>
          { x with frames := frameDone x.frames y.a } } }
      else if farEnds st then dropReplica s oid
      else s

/-! ### Stream plans (R355, R356) -/

/-- The steps in a plan object's bytes. -/
def planSteps (bs : List Byte) (n : Nat) : List PlanStep :=
  (List.range n).map fun k =>
    { oid := BitVec.ofNat 40 (leAt bs (16 * k) 5), first := leAt bs (16 * k + 5) 5, rows := leAt bs (16 * k + 10) 4, staged := false,
      need := [], got := [], served := [], over_ := leAt bs (16 * k + 10) 4 == 0 || !zerosAt bs (16 * k + 14) 2 }

/-- The lowest plan number not in use. -/
def freePlan (s : State) : Option (BitVec 8) :=
  ((List.range 256).map (BitVec.ofNat 8)).find? fun n => (tget s.obj.plans n).isNone

/-- A plan's record. -/
def setPlan (s : State) (k : BitVec 8) (p : Plan) : State := { s with obj := { s.obj with plans := tset s.obj.plans k p } }

/-- A device frame that reads a plan object on a tray. -/
def askPlan (s : State) (k : BitVec 8) (o : Obj) (p : Plan) : State :=
  emit s (.devRead (ownHead s (k.setWidth 16) p.tenant) (BitVec.ofNat 58 o.addr) (16 * p.count))

/-- The plan object's bytes read: at once from tier 1, by a device frame from a tray, by fetches from flash. Bytes found bad end the
plan (log entry 33). -/
def readPlan (s : State) (k : BitVec 8) (p : Plan) (o : Obj) : State :=
  let n := 16 * p.count
  if o.tier = 1 ∨ o.t1 = .valid then
    (if rangePoisoned s o.addr n then endPlan s k
     else setPlan s k { p with steps := planSteps ((List.range n).map fun i => t1View s (o.addr + i)) p.count })
  else if o.tier = 2 then askPlan s k o p
  else
    let us := List.range (ceilDiv n 16384)
    if us.any (unitLost s p.oid o) then endPlan s k else fillFetches (setPlan s k { p with waits := us })

/-- PLAN_OPEN (R355). -/
def planOpenCmd (s : State) (w : Who) (t : TenantId) : State × Option Status :=
  let d := objBytes (privOf s w)
  let oid : Oid := BitVec.ofNat 40 (leAt d 0 5)
  let n := leAt d 8 4
  let stage := leAt d 12 2
  match objNamed s oid t with
  | none => (s, some .denied)
  | some o =>
    if !zerosAt d 5 3 || o.etype != 3 || o.zskip || n == 0 || 65536 < n || o.size < 16 * n || stage == 0 || 16384 < stage then
      (s, some .denied)
    else if !quotaRoom s t 1 (16 * stage) then (s, some .quota)
    else match freePlan s, takeFrames s 0 (65536 * stage) with
      | some k, some fs =>
        let p : Plan := { oid := oid, tenant := t, stage := stage, count := n, frames := fs, waits := [], got := [], steps := [] }
        (readPlan (putObjData (quotaAdd (setPlan s k p) t 1 (16 * stage)) w (leBytes k.toNat 4)) k p o, some .ok)
      | _, _ => (s, some .noSlot)

/-- The steps of a plan whose object a tray has returned. -/
def planArrive (s : State) (k : BitVec 8) (st : Status) (bs : List Byte) : State :=
  match tget s.obj.plans k with
  | some p =>
    match tget s.obj.tab p.oid with
    | none => s
    | some o =>
      if o.tier ≠ 2 ∨ !p.steps.isEmpty then s
      else if st = .ok then setPlan s k { p with steps := planSteps bs p.count }
      else if st = .retry then askPlan s k o p
      else if farEnds st then endPlan s k
      else s
  | none => s

/-- A unit of plan objects has come from flash. -/
def planObjGot (s : State) (oid : Oid) (u : Nat) (bs : List Byte) : State :=
  { s with obj := { s.obj with plans := tmap s.obj.plans fun _ p =>
    if p.oid == oid && p.waits.contains u then
      let p := { p with waits := p.waits.filter (· != u), got := tset p.got u bs }
      if p.waits.isEmpty then
        { p with got := [], steps := planSteps ((List.range (16 * p.count)).map fun i => byteAt (tgetD p.got (i / 16384) []) (i % 16384)) p.count }
      else p
    else p } }

/-- A unit of plan objects is lost: the plans end. -/
def planObjLost (s : State) (oid : Oid) (u : Nat) : State :=
  s.obj.plans.foldl (fun s x => if x.2.oid == oid && x.2.waits.contains u then endPlan s x.1 else s) s

/-- PLAN_CLOSE (R356). -/
def planCloseCmd (s : State) (w : Who) (t : TenantId) : State × Option Status :=
  let d := objBytes (privOf s w)
  let k : BitVec 8 := BitVec.ofNat 8 (leAt d 0 1)
  match tget s.obj.plans k with
  | some p => if leAt d 0 2 < 256 && p.tenant == t then (endPlan s k, some .ok) else (s, some .denied)
  | none => (s, some .denied)

/-- The effect of an object command (Table 8.3). -/
def objEffect (s : State) (w : Who) (op : Nat) (t : TenantId) : State × Option Status :=
  match op with
  | 1 => createCmd s w t
  | 2 => placeCmd s w t
  | 3 => unplaceCmd s w t
  | 4 => setAltCmd s w t
  | 5 => deleteCmd s w t
  | 6 => queryCmd s w t
  | 7 => planOpenCmd s w t
  | 8 => planCloseCmd s w t
  | _ => (s, some .denied)

/-- An object command of a source: DENIED while its tenant is REMOVING (Table 15.2 step 2), RETRY once drydown has begun where no
earlier code of R22 applies (Table 10.2 step 2). -/
def objCommand (s : State) (w : Who) (op : Nat) (t : TenantId) : State × Option Status :=
  if isRemoving s t then (s, some .denied)
  else
    let r := objEffect s w op t
    if dryingDown s then (match r.2 with
      | some st => (s, some (statusFirst st .retry))
      | none => (s, some .retry))
    else r

/-- A CREATE that waited for its SERIAL record goes on (R331). -/
def resumeCreate (s : State) : State :=
  match s.mg.blocks.find? fun b => b.block == blkObj && b.started && b.v.toNat / 2 ^ 28 == 1 with
  | some b =>
    match createCmd s b.w (b.v.setWidth 12) with
    | (s, some st) => finishCmd s b.w blkObj st
    | (s, none) => s
  | none => s

/-! ### Rows -/

/-- OBJECT_SCRUB_FREE (R339). -/
def execObjectScrubFree (oid : Oid) (s : State) : Res := whenUp s fun s => objectScrubFree s oid
/-- T1_COPY_FILLED (R337). -/
def execT1CopyFilled (oid : Oid) (s : State) : Res := whenUp s fun s => t1CopyFilled s oid
/-- REPLICA_FILLED (R337). -/
def execReplicaFilled (oid : Oid) (s : State) : Res := whenUp s fun s => replicaFilled s oid

end Sys2Proof.Machine
end

