-- ==== Sys2Proof/Machine/Zskip.lean ====
section
/-! DEFINITION. Expansion of zero-skip streams on tiles (R316 to R323): the smoothing queue, the format checks block by block, and
re-reads. -/

namespace Sys2Proof.Machine

/-- Bytes of the smoothing queue (Table 4.2). -/
def smoothBytes : Nat := 65536

/-- The move unit's reading ahead (R316): vectors of 64 bytes of a stretch that begins at `base` and has `len` bytes go into the
queue while 560 bytes of it are free and they are at hand; how far the stretch is read then, and the queue. -/
def readAhead (has : Nat × Nat → Bool) (rd : Nat → Byte) (base len : Nat) : Nat → Nat × List Byte → Nat × List Byte
  | 0, x => x
  | n + 1, (filled, q) =>
    let k := min 64 (len - filled)
    if len ≤ filled || decide (smoothBytes < q.length + 560) || !has (base + filled, k) then (filled, q)
    else readAhead has rd base len n (filled + k, q ++ runBytes rd (base + filled, k))

/-- What the next block of a queue comes to: it is not whole yet, it fails a check of Table 7.5, or it passes. -/
inductive BlockCheck where
  | stall
  | fails (x : ZskItem)
  | passes (n : Nat)
deriving DecidableEq, Repr

/-- The check of block `b` at the front of a queue (R316, R318): `start` is where its stretch begins in the block data, `filled` how
far it is read, and `ended` that there is no more of it. -/
def checkBlock (rd : Nat → Byte) (t : Tensor) (b start filled : Nat) (ended : Bool) (q : List Byte) : BlockCheck :=
  let n := zskLen q
  if q.length < n then (if ended then .fails (.group (b / 64)) else .stall)
  else if !zskBlockOk t.etype (q.take n) then .fails (.block b)
  else if !zskGroupOk rd t b (start + filled - q.length + n) then .fails (.group (b / 64))
  else .passes n

/-- The expansion of a tile's running portion, as it stands. -/
def zskOf (s : State) (t : TileNo) (r : EngReq) (k : Nat) : ZskRun := ((tileOf s t).zsk).getD ⟨r.f.src, r.f.tag, k, 0, 0, .none⟩

/-- A tile's expansion set, and its queue. -/
def setZsk (s : State) (t : TileNo) (z : ZskRun) (q : List Byte) : State := modTile s t fun x => { x with zsk := some z, smooth := q }

/-- Whether another tile already re-reads an item of a stream (R322). -/
def rereadPending (s : State) (t : TileNo) (r : EngReq) (x : ZskItem) : Bool :=
  s.eng.tiles.any fun y => y.1 != t && decide (rereadOf y.2 = .asked x) && decide (tileStream s y.1 = some (streamOf r))

/-- A format failure (R320, R322): the tile re-reads the item, or waits for the tile that does. -/
def askReread (s : State) (t : TileNo) (r : EngReq) (z : ZskRun) (x : ZskItem) (q : List Byte) : State :=
  setZsk s t { z with reread := if rereadPending s t r x then .follows x else .asked x } q

/-- A step that the expand unit waits (R316). -/
def zskStalled (s : State) : State := { s with eng := { s.eng with zskStall := satInc 32 s.eng.zskStall } }

/-- ZSK_BLOCK_EXPAND (R316, R318, R320): the move unit reads ahead, and the next block of the running portion is checked once the
whole of it is in the queue. -/
def zskBlockExpand (s : State) (t : TileNo) : State :=
  match running_ s t with
  | none => s
  | some (r, k, p) =>
    let src := readTensor r
    let z := zskOf s t r k
    match expanding r && decide (z.reread = .none), zskLocate (portionStretches s r p) z.blocks with
    | true, some (x, i) =>
      let part := replicaOn s t (portionRuns s r p)
      let rd := tileByte part s r
      if !controlReady s r then zskStalled s
      else match runsCheck s r part.isSome (zskHeadRuns src) with
        | some st => engFail s r st
        | none =>
          match if z.blocks = 0 then zskHeadFails rd src else none with
          | some e => askReread s t r z e []
          | none =>
            let span := zskSpan rd src x
            let base := zskData src + span.1
            let len := span.2 - span.1
            let y := readAhead (runReady s r) rd base len (smoothBytes / 64) (z.filled, (tileOf s t).smooth)
            let got := (base + z.filled, y.1 - z.filled)
            match runReadCheck s r part.isSome got with
            | some st => engFail s r st
            | none =>
              let s := if part.isSome then s else readStack s [got]
              let z := { z with filled := y.1 }
              match checkBlock rd src (x.1 + i) span.1 y.1 (decide (len ≤ y.1)) y.2 with
              | .stall => zskStalled (setZsk s t z y.2)
              | .fails e => askReread s t r z e y.2
              | .passes n =>
                if i + 1 = x.2 then setZsk s t { z with blocks := z.blocks + 1, filled := 0 } []
                else setZsk s t { z with blocks := z.blocks + 1 } (y.2.drop n)
    | _, _ => s

/-- An object marked damaged, once, with one error record (R321, R322). -/
def markDamaged (s : State) (oid : Oid) : State :=
  match tget s.obj.tab oid with
  | some o =>
    if o.damaged then s
    else
      let s := modObj s oid fun o => { o with damaged := true }
      let s := { s with eng := { s.eng with zskDamaged := satInc 16 s.eng.zskDamaged } }
      raise s { report 8 (.oid oid) locNone with status := .format }
  | none => s

/-- A re-read block counted (R320). -/
def zskRecover (s : State) : State := { s with eng := { s.eng with zskRecovered := satInc 16 s.eng.zskRecovered } }

/-- The tiles that a re-read serves: the one that made it and those that wait for it (R322). -/
def rereadTiles (s : State) (t : TileNo) (r : EngReq) (x : ZskItem) : List TileNo :=
  t :: ((s.eng.tiles.filter fun y => y.1 != t && decide (rereadOf y.2 = .follows x) && decide (tileStream s y.1 = some (streamOf r))).map (·.1))

/-- A tile goes on after a re-read: its queue is filled again from the block that it stands at. -/
def zskResume (s : State) (t : TileNo) : State :=
  match running_ s t, (tileOf s t).zsk with
  | some (r, _, p), some z =>
    let src := readTensor r
    let rd := tileByte (replicaOn s t (portionRuns s r p)) s r
    match zskLocate (portionStretches s r p) z.blocks with
    | some (x, i) => setZsk s t { z with reread := .none, filled := zskOffset rd src (x.1 + i) - (zskSpan rd src x).1 } []
    | none => setZsk s t { z with reread := .none } []
  | _, _ => s

/-- The requests that run on some tiles, each once. -/
def tileReqs (s : State) (ts : List TileNo) : List EngReq := (ts.filterMap fun t => (running_ s t).map (·.1)).eraseDups

/-- ZSK_REREAD_RESULT (R320 to R322): the re-read bytes pass, and every tile that waited goes on with them; or the object is marked
damaged and their requests complete with FORMAT. -/
def zskReread (s : State) (t : TileNo) (bytes : List Byte) : State :=
  match running_ s t, rereadOf (tileOf s t) with
  | some (r, _, p), .asked x =>
    let src := readTensor r
    let run := zskItemRun (tileByte (replicaOn s t (portionRuns s r p)) s r) src x
    let put : EngReq → EngReq := fun q => stageBytes q run.1 (bytes.take run.2)
    let ts := rereadTiles s t r x
    let qs := tileReqs s ts
    if zskItemOk (tileByte (replicaOn s t (portionRuns s r p)) s (put r)) src x then
      let s := qs.foldl (fun s q => setEng s { put q with countB := q.countB + 1 }) (zskRecover s)
      ts.foldl zskResume s
    else
      let s := match streamOid s r.own src.base with
        | some oid => markDamaged s oid
        | none => s
      qs.foldl (fun s q => endEng s q .format []) s
  | _, _ => s

end Sys2Proof.Machine
end

