-- ==== Sys2Proof/Machine/Reads.lean ====
section
/-! DEFINITION. RD_OBJ (R347 to R354), tier-3 fetches (R358), damaged extents (R359, R360), and plan fetches (R356). -/

namespace Sys2Proof.Machine

/-! ### The payload (Table 8.5) -/

def rdOid (f : Req) : Oid := BitVec.ofNat 40 (leAt f.payload 0 5)
def rdFirst (f : Req) : Nat := leAt f.payload 8 5
def rdCount (f : Req) : Nat := leAt f.payload 16 4
def rdXp (f : Req) : Bool := (byteAt f.payload 20).getLsbD 0

/-- Reserved bits of the payload are zero. -/
def rdReserved (f : Req) : Bool :=
  zerosAt f.payload 5 3 && zerosAt f.payload 13 3 && bitsOf (leAt f.payload 20 1) 1 7 == 0 && zerosAt f.payload 21 3 &&
    bitsOf (leAt f.payload 24 8) 58 6 == 0

/-- Bytes of the rows of an object that a read delivers. -/
def rdBytes (o : Obj) (f : Req) : Nat := rdCount f * o.rowBytes

/-- A delivery within the bounds of R348: 65,536 bytes inline, 2^36 to DADDR. -/
def rdFits (o : Obj) (f : Req) : Bool := if objDaddr f = 0 then decide (rdBytes o f ≤ 65536) else decide (rdBytes o f ≤ 2 ^ 36)

/-- DADDR lies in PROT objects of the tenant here, when the object is PROT (R595). -/
def rdProtOk (s : State) (o : Obj) (f : Req) : Bool :=
  !o.prot || objDaddr f == 0 || rangeSafe s f.tenant (objDaddr f) (objDaddr f + rdBytes o f - 1)

/-! ### Where the rows come from (R349) -/

/-- The place an object's rows are read from. -/
inductive ReadSrc where
  | tier1 | staging | tray | flash
deriving DecidableEq, Repr

/-- A staged plan step that holds rows of an object. -/
def stepHolds (x : PlanStep) (oid : Oid) (first n : Nat) : Bool :=
  x.oid == oid && x.staged && !x.over_ && decide (x.first ≤ first) && decide (first + n ≤ x.first + x.rows)

/-- The staging that holds the rows of a read: its plan, the place of the step in it, and the step (R349). -/
def rdStep (s : State) (oid : Oid) (f : Req) : Option (Plan × Nat × PlanStep) :=
  s.obj.plans.findSome? fun p =>
    (p.2.steps.zipIdx.find? fun x => stepHolds x.1 oid (rdFirst f) (rdCount f)).map fun x => (p.2, x.2, x.1)

/-- The first place of R349 that exists. -/
def readSrc (s : State) (oid : Oid) (o : Obj) (f : Req) : ReadSrc :=
  if o.tier = 1 ∨ o.t1 = .valid then .tier1
  else if (rdStep s oid f).isSome then .staging
  else if o.tier = 2 then .tray
  else .flash

/-- The stored form of a source: a zero-skip stream, unless it is a dense expansion. -/
def streamed (o : Obj) (src : ReadSrc) : Bool := o.zskip && !(o.cdense && decide (src = .tier1))

/-- Zero-skip blocks of the rows read: the first and how many. -/
def rdBlocks (o : Obj) (f : Req) : Nat × Nat := (rdFirst f * rowElems o / 256, rdCount f * rowElems o / 256)

/-- The runs of an object's bytes that a read needs, from its first byte; of a stream, the header, the index and the groups of the rows,
whole (R310, R314). -/
def rdRuns (rd : Nat → Byte) (o : Obj) (f : Req) (stream : Bool) : List (Nat × Nat) :=
  if !stream then [(rdFirst f * o.rowBytes, rdBytes o f)]
  else
    let t := objTensor o 0 true
    let b := rdBlocks o f
    let lo := zskStart rd t (b.1 / 64)
    [(0, 32 + 16 * ceilDiv (zskGroups t) 2), (zskData t + lo, zskStart rd t ((b.1 + b.2 - 1) / 64 + 1) - lo)]

/-- Units that runs touch, within an object's size. -/
def runUnits (o : Obj) (rs : List (Nat × Nat)) : List Nat :=
  ((rs.flatMap fun x => if x.2 = 0 then [] else
    (List.range ((x.1 + x.2 - 1) / 16384 + 1 - x.1 / 16384)).map fun k => x.1 / 16384 + k).filter fun u => decide (u < objUnits o)).eraseDups

/-- The units of flash that a read of an object needs. DESIGN CHOICE (log entry 34): which groups a stream's rows lie in is taken from
its index as it stands in flash. -/
def rdUnits (s : State) (o : Obj) (f : Req) : List Nat :=
  runUnits o (rdRuns (fun i => byteAt ((unitBytes3 s (rdOid f) o (i / 16384)).getD []) (i % 16384)) o f o.zskip)

/-! ### Delivery -/

/-- Whether the stream passes every check of Table 7.5 that a read of some rows makes: from the first block of their group on (R310,
R318). -/
def rdPasses (rd : Nat → Byte) (t : Tensor) (b : Nat × Nat) : Bool :=
  let lo := b.1 / 64 * 64
  (zskHeadFails rd t).isNone && (List.range (b.1 + b.2 - lo)).all fun k => (zskBlockFails rd t (lo + k)).isNone

/-- The rows as delivered, dense and interleaved; none on a format failure (R318, R347). -/
def rdRows (rd : Nat → Byte) (o : Obj) (f : Req) (stream : Bool) : Option (List Byte) :=
  let t := objTensor o 0 true
  if !stream then some ((List.range (rdBytes o f)).map fun k => rd (rdFirst f * o.rowBytes + k))
  else if rdPasses rd t (rdBlocks o f) then
    some ((List.range (rdCount f)).flatMap fun k =>
      (zskPieceSibs rd t ⟨rdFirst f + k, 0, rowUnits t⟩).flatMap (sibBytes t.etype))
  else none

/-- The engine request as which a read reads and writes memory (R190). -/
def rdReq (s : State) (r : ObjRead) : EngReq :=
  { newReq s 0 r.f r.gen none with deadline := r.deadline, frames := r.frames }

/-- The tier a read took its rows from, as the read record says (R349). -/
def srcTier : ReadSrc → Nat
  | .tier1 => 1 | .staging => 1 | .tray => 2 | .flash => 3

/-- The 16-byte read record (R349). -/
def rdRecord (s : State) (r : ObjRead) (src : ReadSrc) (n : Nat) : List Byte :=
  leBytes n 8 ++ [BitVec.ofNat 8 (bit r.useAlt + 2 * bit (r.deadline.any fun d => decide (d < s.counter)) + 4 * srcTier src)] ++
    List.replicate 7 0

/-- A read that ended leaves the table. -/
def dropRead (s : State) (r : ObjRead) : State :=
  { s with obj := { s.obj with reads := s.obj.reads.filter fun x => !(x.f.src == r.f.src && x.f.tag == r.f.tag) } }

/-- A read taken up again with something changed. -/
def setRead (s : State) (r : ObjRead) : State :=
  let t := dropRead s r
  { t with obj := { t.obj with reads := t.obj.reads ++ [r] } }

/-- A read completed with a status, and data on OK and ALT_DELIVERED (R349); an object deleted meanwhile may leave (R339). -/
def rdEnd (s : State) (r : ObjRead) (st : Status) (data : List Byte) : State :=
  completeAt (leaveTable (writeDelete (dropRead s r) r.oid) r.oid) r.f st data

/-- Rows of an object delivered: the staging of plan steps they consume (R356). -/
def consume (s : State) (oid : Oid) (f : Req) : State :=
  let rows := (List.range (rdCount f)).map fun k => rdFirst f + k
  { s with obj := { s.obj with plans := tmap s.obj.plans fun _ p =>
    { p with steps := modWhere p.steps (fun x => x.oid == oid && !x.over_) fun x =>
        let served := (x.served ++ rows.filter fun k => decide (x.first ≤ k) && decide (k < x.first + x.rows)).eraseDups
        let done := x.rows ≤ served.length
        { x with served := served, over_ := done, staged := x.staged && !done, need := if done then [] else x.need
                 got := if done then [] else x.got } } } }

/-- A read whose rows are delivered completes (R349, R353, R356). -/
def rdFinish (s : State) (r : ObjRead) (data : List Byte) : State :=
  if r.useAlt then rdEnd (countDeadline s r.f .altDelivered) r .altDelivered data
  else rdEnd (endDonePlans (consume s r.oid r.f)) r .ok data

/-- A read's rows delivered: inline, or written to DADDR, where answers from outside tier 1 are awaited (R349, R361). -/
def rdGive (s : State) (r : ObjRead) (src : ReadSrc) (rows : List Byte) : State :=
  let head := rdRecord s r src rows.length
  if objDaddr r.f = 0 then rdFinish s r (head ++ rows)
  else match engWrites s (rdReq s r) [(objDaddr r.f, rows)] with
    | (s, _, some st) => rdEnd s r st []
    | (s, w, none) =>
      if w.frames.isEmpty then rdFinish s r head else setRead s { r with tray := none, done := some head, frames := w.frames }

/-- A format failure of a read's stream (R320, R321): it is read once again, from flash where the object's home is there or from its
tray; bytes that have no other home fail again. Then the object is marked damaged. -/
def rdBadFormat (s : State) (r : ObjRead) (o : Obj) : State :=
  if r.retried || o.tier == 1 then rdEnd (markDamaged s r.oid) r .format []
  else if o.tier = 2 then sendTray (setRead s { r with retried := true }) r o
  else
    let us := rdUnits s o r.f
    if us.any (unitLost s r.oid o) then rdEnd (markDamaged s r.oid) r .format []
    else fillFetches (setRead s { r with retried := true, waits := us, got := [] })
where
  /-- The device frame by which a tray is read. -/
  sendTray (s : State) (r : ObjRead) (o : Obj) : State := emit s (.devRead (devHead r.f) (BitVec.ofNat 58 o.addr) o.size)

/-- A read's rows taken from bytes at hand (R318, R320, R349). -/
def rdDeliver (s : State) (r : ObjRead) (o : Obj) (src : ReadSrc) (rd : Nat → Byte) : State :=
  match rdRows rd o r.f (streamed o src) with
  | none => rdBadFormat s r o
  | some rows => rdGive (if r.retried then zskRecover s else s) r src rows

/-! ### Starting a read -/

/-- The alternate that an RD_OBJ may be answered from (R354). -/
def rdAlt (s : State) (o : Obj) (f : Req) : Option (Oid × Obj) :=
  if o.alt = 0 then none else (objOf s o.alt).bind fun a => if rdFits a f then some (o.alt, a) else none

/-- The bytes that an object's tray read covers: its rows, or its whole stream. -/
def trayRun (o : Obj) (f : Req) : Nat × Nat := if o.zskip then (o.addr, o.size) else (o.addr + rdFirst f * o.rowBytes, rdBytes o f)

/-- A read of an object begun: delivered at once from tier 1 or staging, by a device frame from a tray, or by fetches from
flash; `lost` answers a read that needs a lost unit. -/
def beginRead (s : State) (r : ObjRead) (o : Obj) (lost : State → State) : State :=
  let src := readSrc s r.oid o r.f
  match src with
  | .tier1 =>
    let rd : Nat → Byte := fun i => t1View s (o.addr + i)
    let rs := (rdRuns rd o r.f (streamed o src)).map fun x => (o.addr + x.1, x.2)
    let s := readStack s rs
    match runsCheck s (rdReq s r) false rs with
    | some st => rdEnd s r st []
    | none => rdDeliver s r o src rd
  | .staging => rdDeliver s r o src fun i => byteAt ((((rdStep s r.oid r.f).map (·.2.2.got)).bind fun g => tget g (i / 16384)).getD []) (i % 16384)
  | .tray =>
    let x := trayRun o r.f
    emit (setRead s { r with tray := some x.1 }) (.devRead (devHead r.f) (BitVec.ofNat 58 x.1) x.2)
  | .flash =>
    let us := rdUnits s o r.f
    if us.any (unitLost s r.oid o) then lost s else fillFetches (setRead s { r with waits := us })

/-- A read answered because a unit is lost: alternate rows when they may be given, else POISON (Table 8.7 step 4); a re-read that finds
it lost, FORMAT (R321). -/
def answerLost (s : State) (r : ObjRead) : State :=
  let s := dropRead s r
  let poison : State → State := fun s => rdEnd s r .poison []
  if r.retried then rdEnd (markDamaged s r.oid) r .format []
  else if r.useAlt || dlNoAlt r.f then poison s
  else match (tget s.obj.tab r.oid).bind fun o => rdAlt s o r.f with
    | some (a, o) => beginRead s { r with useAlt := true, oid := a, waits := [], got := [], tray := none } o poison
    | none => poison s

/-- Bytes of a step in staging, and the units it takes. -/
def stepUnits (s : State) (o : Obj) (x : PlanStep) : List Nat :=
  rdUnits s o { blankReq with payload := leBytes x.oid.toNat 8 ++ leBytes x.first 8 ++ leBytes x.rows 4 ++ List.replicate 12 0 }

/-- Bytes a step takes in staging: the units it reads, once they are fetched or arriving. -/
def stepBytes (s : State) (x : PlanStep) : Nat :=
  if x.staged || !x.need.isEmpty then
    match tget s.obj.tab x.oid with
    | some o => 16384 * (stepUnits s o x).length
    | none => 0
  else 0

/-- The stack of the page of a plan's staging that holds a byte. -/
def stagingStack : List FrameRun → Nat → Option Quad
  | [], _ => none
  | r :: rs, k => if k / 4096 < r.n then some r.stack else stagingStack rs (k - 4096 * r.n)

/-- Time to read runs of a staged step: the slowest of the stacks that hold them (R352). DESIGN CHOICE (log entry 35): staged steps lie
one after the other, their units in rising order. -/
def stagingTime (s : State) (p : Plan) (i : Nat) (x : PlanStep) (runs : List (Nat × Nat)) : Rat :=
  let at_ := ((p.steps.take i).map (stepBytes s)).sum
  let us := (x.got.map (·.1)).insertionSort (· ≤ ·)
  let bytes : Quad → Nat := fun q => (runs.map fun y => ((List.range y.2).filter fun k =>
    decide (stagingStack p.frames (at_ + 16384 * us.idxOf ((y.1 + k) / 16384) + (y.1 + k) % 16384) = some q)).length).sum
  (([0, 1, 2, 3] : List Quad).map fun q => per (bytes q) 2500000).foldl max 0

/-- The estimate of an RD_OBJ (R352): under XP, tray and flash bytes count at Cmax for each block. -/
def rdEstimate (s : State) (oid : Oid) (o : Obj) (f : Req) : Rat :=
  let src := readSrc s oid o f
  let n := if o.zskip then (rdBlocks o f).2 * zskCmax o.etype.toNat else rdBytes o f
  let time := match src with
    | .tier1 => addrTime s ((rdRuns (fun i => t1View s (o.addr + i)) o f (streamed o src)).map fun x => (o.addr + x.1, x.2))
    | .staging => match rdStep s oid f with
      | some (p, i, x) => stagingTime s p i x (rdRuns (fun k => byteAt (tgetD x.got (k / 16384) []) (k % 16384)) o f o.zskip)
      | none => 0
    | .tray => addrTime s [(o.addr, n)]
    | .flash => flashTime s n
  per s.obj.allowUs.toNat 1 + time

/-- What refuses an RD_OBJ at the object's device, the first of R22 (R335, R348, R351, R418, R472, R591, R595). -/
def rdStatus (s : State) (o : Obj) (f : Req) : Option Status :=
  if !rdReserved f || rdCount f == 0 || rdXp f != o.zskip || o.rows < rdFirst f + rdCount f || !rdFits o f || dlBad s f ||
      !rdProtOk s o f then some .denied
  else match cipherCheck s f.tenant o.prot (genTag s f.tenant) with
    | some st => some st
    | none =>
      if gated s (rdOid f) f.src then some .notOwner
      else if rdXp f && !(s.eng.enabled.contains .expand) then some .funcOff
      else if rdXp f && o.damaged then some .format
      else none

/-- RD_OBJ at the object's device: refused, missed, or begun (R347 to R354). -/
def rdAccept (s : State) (f : Req) : State :=
  match objNamed s (rdOid f) f.tenant with
  | none => completeAt s f .denied []
  | some o =>
    match rdStatus s o f with
    | some st => completeAt s f st []
    | none =>
      let r : ObjRead := { f := f, gen := genTag s f.tenant, deadline := if f.dlx then some (s.counter + dlBudget f) else none,
                           useAlt := false, oid := rdOid f, waits := [], got := [], tray := none, retried := false, done := none,
                           frames := [], notice := s.counter }
      let alt := rdAlt s o f
      match judge s r.deadline (rdEstimate s (rdOid f) o f) alt.isSome (dlNoAlt f), alt with
      | .miss, _ => completeAt (countDeadline s f .deadlineMiss) f .deadlineMiss []
      | .alternate, some (a, x) => beginRead s { r with useAlt := true, oid := a } x fun s => rdEnd s r .poison []
      | _, _ => beginRead s r o fun s => answerLost s r

/-! ### Fetch results -/

/-- A read with one more unit: delivered once it has them all, or ended by the cipher stage (R591). -/
def rdGot (s : State) (r : ObjRead) (u : Nat) (bs : List Byte) : State :=
  match tget s.obj.tab r.oid with
  | none => rdEnd s r .denied []
  | some o =>
    match cipherCheck s r.f.tenant o.prot r.gen with
    | some st => rdEnd s r st []
    | none =>
      let r := { r with waits := r.waits.filter (· != u), got := tset r.got u bs }
      if r.waits.isEmpty then rdDeliver s r o .flash fun i => byteAt (tgetD r.got (i / 16384) []) (i % 16384)
      else { s with obj := { s.obj with reads := modWhere s.obj.reads (fun x => x.f.src == r.f.src && x.f.tag == r.f.tag) fun _ => r } }

/-- A unit is lost to those that await it (Table 8.7 step 4): reads are answered, plan steps passed over, copies marked. -/
def serveLost (s : State) (oid : Oid) (u : Nat) : State :=
  let s := { s with obj := { s.obj with plans := tmap s.obj.plans fun _ p =>
    { p with steps := modWhere p.steps (fun y => y.oid == oid && y.need.contains u) fun y => { y with over_ := true, need := [], got := [] } } } }
  let s := fillLost (planObjLost s oid u) oid u
  let hit := s.obj.reads.filter fun r => r.oid == oid && r.waits.contains u
  fillFetches (endDonePlans (hit.foldl answerLost s))

/-- A fetch leaves the table. -/
def dropFetch (s : State) (oid : Oid) (u : Nat) : State :=
  { s with obj := { s.obj with fetches := s.obj.fetches.filter fun x => !(x.oid == oid && x.unit == u) } }

/-- Plan steps with a unit arrived: staged once they have all theirs. -/
def planGot (s : State) (oid : Oid) (u : Nat) (bs : List Byte) : State :=
  { s with obj := { s.obj with plans := tmap s.obj.plans fun _ p =>
    { p with steps := modWhere p.steps (fun x => x.oid == oid && x.need.contains u) fun x =>
        let need := x.need.filter (· != u)
        { x with need := need, got := tset x.got u bs, staged := need.isEmpty } } } }

/-- A unit has come to all that await it (R358). -/
def serveGot (s : State) (oid : Oid) (u : Nat) (bs : List Byte) : State :=
  let hit := s.obj.reads.filter fun r => r.oid == oid && r.waits.contains u
  fillFetches (hit.foldl (fun s r => rdGot s r u bs) (fillGot (planObjGot (planGot s oid u bs) oid u bs) oid u bs))

/-- Room in the damaged-extent table (Table 8.17). -/
def damageCapacity : Nat := 65536

/-- An extent put in the damaged-extent table, or its object marked when the table is full (Table 8.7 step 3, Table 8.17). -/
def putDamage (s : State) (oid : Oid) (u : Nat) : State :=
  if s.obj.damagedExt.contains (oid, u) then s
  else if s.obj.damagedExt.length < damageCapacity then { s with obj := { s.obj with damagedExt := s.obj.damagedExt ++ [(oid, u)] } }
  else modObj s oid fun o => { o with damaged := true }

/-- Table 8.7 step 3, journalled (R387); OBJ_DMG counts the extents that are entered (Table 8.16). -/
def enterDamage (s : State) (oid : Oid) (u : Nat) : State :=
  if s.obj.damagedExt.contains (oid, u) then s
  else
    let s := if s.obj.damagedExt.length < damageCapacity then { s with obj := { s.obj with dmg := satInc 32 s.obj.dmg } } else s
    jAdd (putDamage s oid u) (.damage oid u) [] true none

/-- Table 8.7 steps 2 and 3; the record's SUBJECT names the object, its CELL the unit's page. -/
def unitDamaged (s : State) (oid : Oid) (u : Nat) (page : Option PageAddr) : State :=
  let loc := match page with
    | some a => locPage s.ftl.geom a
    | none => locNone
  enterDamage (raise s { report 5 (.oid oid) loc with action := 2, status := .poison }) oid u

/-- TIER3_UNCORRECTABLE (Table 8.7); a unit whose entry named no page has been recorded before (R373). -/
def tier3Uncorrectable (s : State) (oid : Oid) (u : Nat) : State :=
  match s.obj.fetches.find? fun x => x.oid == oid && x.unit == u with
  | none => s
  | some x =>
    let s := dropFetch s oid u
    if x.lost then serveLost s oid u
    else
      let s := match x.page with
        | some a => retireBlock (modHealth s fun h => { h with uncorr := satInc 32 h.uncorr }) a.blk 4
        | none => s
      serveLost (unitDamaged s oid u x.page) oid u

/-- TIER3_FETCH_DONE (R358, R375 to R377): everything that waits on the unit proceeds. -/
def tier3FetchDone (s : State) (oid : Oid) (u : Nat) (d : Decoded) : State :=
  match s.obj.fetches.find? fun x => x.oid == oid && x.unit == u, tget s.obj.tab oid with
  | some x, some o =>
    if x.lost || (x.page.isSome && decodeBad d) then tier3Uncorrectable s oid u
    else
      let s := match x.page with
        | some a => afterRead s a d
        | none => s
      serveGot (dropFetch s oid u) oid u (pageView s oid o u x.page)
  | some _, none => dropFetch s oid u
  | none, _ => s

/-- A device frame's answer for a read: the tray's rows, or a write to DADDR; RETRY sends the frame again, and only codes of Table 8.8
end the read (R190, R349, R361; log entry 21). -/
def rdFrame (s : State) (r : ObjRead) (a : Addr) (st : Status) (bs : List Byte) : State :=
  match r.done, r.tray, tget s.obj.tab r.oid with
  | some head, _, _ =>
    match frameAt r.frames a.toNat with
    | none => s
    | some x =>
      if st = .ok then
        let r := { r with frames := frameDone r.frames a.toNat }
        if r.frames.isEmpty then rdFinish s r head else setRead s r
      else if st = .retry then sendFar s r.f x
      else if farEnds st && decide (st ≠ .aborted) then rdEnd s r st []
      else s
  | none, some t, some o =>
    if t ≠ a.toNat then s
    else if st = .ok then rdDeliver s r o .tray fun i => byteAt bs (o.addr + i - t)
    else if st = .retry then emit s (.devRead (devHead r.f) (BitVec.ofNat 58 t) (trayRun o r.f).2)
    else if farEnds st && decide (st ≠ .aborted) then rdEnd s r st []
    else s
  | _, _, _ => s

/-! ### Plan fetches (R356) -/

/-- Staged or arriving bytes of a plan. -/
def stagedBytes (s : State) (p : Plan) : Nat := (p.steps.map (stepBytes s)).sum

/-- PLAN_STEP_FETCH (R356): the next step is fetched when it fits; one that cannot be staged is passed over. -/
def planStepFetch (s : State) (k : BitVec 8) : State :=
  match tget s.obj.plans k with
  | none => s
  | some p =>
    let setStep : State → Nat → (PlanStep → PlanStep) → State := fun s i g =>
      { s with obj := { s.obj with plans := tset s.obj.plans k { p with steps := modAt p.steps i g } } }
    match p.steps.zipIdx.find? fun x => !x.1.over_ && !x.1.staged && x.1.need.isEmpty with
    | none => endDonePlans s
    | some (x, i) =>
      let pass : State := endDonePlans (setStep s i fun x => { x with over_ := true })
      match objNamed s x.oid p.tenant with
      | none => pass
      | some o =>
        let us := stepUnits s o x
        let n := 16384 * us.length
        if o.tier != 3 || o.rows < x.first + x.rows || 65536 * p.stage < n || us.any (unitLost s x.oid o) then pass
        else if 65536 * p.stage < stagedBytes s p + n then s
        else fillFetches (setStep s i fun x => { x with need := us, got := [], staged := us.isEmpty })

/-! ### Rows -/

/-- PLAN_STEP_FETCH (R356). -/
def execPlanStepFetch (plan : BitVec 8) (s : State) : Res := whenUp s fun s => planStepFetch s plan

end Sys2Proof.Machine
end

