-- ==== Sys2Proof/Machine/Seal.lean ====
section
/-! DEFINITION. Seals (R343 to R346, Table 1.5, R380 to R383, R672) and DISCARD (R405 to R410): acceptance, what their pages and
records hold, and what their commits change. -/

namespace Sys2Proof.Machine

/-! ### Acceptance of a seal -/

def sealOid (f : Req) : Oid := BitVec.ofNat 40 (leAt f.payload 0 5)
def sealTarget (f : Req) : Oid := BitVec.ofNat 40 (leAt f.payload 8 5)

/-- What R343 to R345 refuse with DENIED. -/
def sealBad (s : State) (o : Obj) (f : Req) : Bool :=
  let t := objNamed s (sealTarget f) f.tenant
  f.dlx || 1 < f.subop.toNat || !zerosAt f.payload 5 3 || o.tier != 1 || o.isSealed ||
    (if f.subop = 0 then !zerosAt f.payload 8 8
     else !zerosAt f.payload 13 3 || sealTarget f == sealOid f ||
      !(t.any fun x => x.isSealed && x.prot == o.prot && x.zskip == o.zskip && x.etype == o.etype && x.rows == o.rows &&
        x.rowBytes == o.rowBytes))

/-- Whether a unit of a tier-1 object holds a poisoned line (R672). -/
def unitPoisoned (s : State) (o : Obj) (u : Nat) : Bool :=
  (List.range (ceilDiv (min 16384 (o.size - 16384 * u)) 128)).any fun k => isPoisoned s (lineOf s (o.addr + 16384 * u + 128 * k))

/-- The delta that a seal's unit makes of its logical unit. -/
def sealDelta (s : State) (runs : List (Nat × Nat)) (units : List (Nat × PageAddr)) (u : Nat) : Delta :=
  let lu := (runUnit runs u).getD 0
  { unit := lu, old := mapEnt s lu
    new := match units.find? fun x => x.1 == u with
      | some x => .mapped x.2
      | none => .damaged }

/-- The descriptor that a seal's record carries: the object sealed at tier 3 (Table 1.5 step 6). -/
def sealedDesc (o : Obj) (runs : List (Nat × Nat)) : Obj :=
  { o with tier := 3, isSealed := true, sealing := false, damaged := false, runs := runs }

/-- A seal's record, from where its units stand. -/
def sealBody (s : State) (oid : Oid) (o : Obj) (target : Option Oid) (runs : List (Nat × Nat)) (units : List (Nat × PageAddr)) : JBody :=
  .sealRec oid (sealedDesc o runs) target ((List.range (objUnits o)).map (sealDelta s runs units))

/-- A seal begun: seal-pending, its runs and pages taken, its record's JSEQ reserved, its programs sent (Table 1.5 steps 1 to 3). -/
def beginSeal (s : State) (f : Req) (o : Obj) (runs : List (Nat × Nat)) (units : List (Nat × PageAddr)) : State :=
  let target := if f.subop = 0 then none else some (sealTarget f)
  let run : SealRun := { f := f, oid := sealOid f, target := target, gen := genTag s f.tenant, jseq := s.ftl.nextJ, units := units,
                         runs := runs, notice := s.counter }
  let body := sealBody s (sealOid f) o target runs units
  let s := jAdd (quotaAdd s f.tenant 3 (tier3Units o)) body (units.map (·.2)) true (some f)
  let s := modObj s (sealOid f) fun o => { o with sealing := true }
  let s := match target with
    | some t => modObj s t fun o => { o with sealing := true }
    | none => s
  emits { s with ftl := { s.ftl with seals := s.ftl.seals ++ [run] } } (units.map fun x => .nandProgram x.2)

/-- SEAL_OBJ at the object's device (R335, R344 to R346, R38, R472, R591). -/
def sealAccept (s : State) (f : Req) : State :=
  let no : Status → State := fun st => completeAt s f st []
  match objNamed s (sealOid f) f.tenant with
  | none => no .denied
  | some o =>
    let target := if f.subop = 0 then none else objNamed s (sealTarget f) f.tenant
    if sealBad s o f then no .denied
    else match cipherCheck s f.tenant o.prot (genTag s f.tenant) with
      | some st => no st
      | none =>
        let us := (List.range (objUnits o)).filter fun u => !unitPoisoned s o u
        if gated s (sealOid f) f.src || (f.subop != 0 && gated s (sealTarget f) f.src) then no .notOwner
        else if !quotaRoom s f.tenant 3 (tier3Units o) then no .quota
        else if s.ftl.state ≠ .online || s.ftl.rdonly then no .noSlot
        else match allocRuns s (objUnits o), placeUnits .sealOpen false us 0 s with
          | some runs, some (t, units) =>
            if o.sealing || target.any (·.sealing) then no .busyRetry
            else if dryingDown s then no .retry
            else beginSeal t f o runs units
          | _, _ => no .noSlot

/-- The run of a seal's record put together again after its units moved. -/
def remakeSeal (s : State) (r : SealRun) : State :=
  match tget s.obj.tab r.oid with
  | some o =>
    let s := { s with ftl := { s.ftl with seals := modWhere s.ftl.seals (fun x => x.jseq == r.jseq) fun _ => r } }
    modJ s r.jseq fun j => { j with body := sealBody s r.oid o r.target r.runs r.units }
  | none => s

/-- A seal that ends without a commit: its object is writable again, its reservation and runs are given back, and its JSEQ
takes a void record. -/
def endSeal (s : State) (r : SealRun) (st : Status) : State :=
  let s := voidRecord { s with ftl := { s.ftl with seals := s.ftl.seals.filter fun x => x.jseq != r.jseq } } r.jseq
  let s := match tget s.obj.tab r.oid with
    | some o => quotaSub (modObj s r.oid fun o => { o with sealing := false }) o.tenant 3 (tier3Units o)
    | none => s
  let s := match r.target with
    | some t => modObj s t fun o => { o with sealing := false }
    | none => s
  completeAt s r.f st []

/-- A programmed page of a seal: the unit's bytes under the object's key (R371, R585). -/
def sealPage (s : State) (r : SealRun) (u : Nat) : PageData :=
  match tget s.obj.tab r.oid with
  | some o =>
    { data := (List.range 16384).map fun i => if 16384 * u + i < o.size then t1View s (o.addr + 16384 * u + i) else 0
      key := objKey s o, lunit := (runUnit r.runs u).getD 0, wseq := r.jseq }
  | none => ⟨[], [], 0, r.jseq⟩

/-! ### What a seal's commit changes (R344, R345, R423, R672) -/

/-- Extents of an object leave the damaged-extent table. -/
def dropDamage (s : State) (oid : Oid) (p : Nat → Bool) : State :=
  { s with obj := { s.obj with damagedExt := s.obj.damagedExt.filter fun x => !(x.1 == oid && p x.2) } }

/-- The units that a seal left damaged (R672). -/
def sealDamage (s : State) (oid : Oid) (deltas : List Delta) : State :=
  deltas.zipIdx.foldl (fun s (d, u) => if d.new = .damaged then enterDamage s oid u else s) s

/-- The map entries of runs released (R345, R409). -/
def releaseRuns (s : State) (runs : List (Nat × Nat)) : State :=
  runs.foldl (fun s x => (List.range x.2).foldl (fun s k => setMap s (x.1 + k) .unmapped) s) s

/-- A SEAL commits. -/
def commitSeal (s : State) (oid : Oid) (o : Obj) (deltas : List Delta) : State :=
  let s := deltas.foldl applyDelta s
  let s := modObj s oid fun x => { x with tier := 3, isSealed := true, sealing := false, damaged := false, t1 := .valid, runs := o.runs }
  sealDamage (dropDamage (dryExposed (killRecs s fun r => r.oid == oid)) oid fun _ => true) oid deltas

/-- A RESEAL commits: the target holds the source's data, and its pages as a copy; the source is gone (R345). -/
def commitReseal (s : State) (oid target : Oid) (o : Obj) (deltas : List Delta) : State :=
  match tget s.obj.tab oid, tget s.obj.tab target with
  | some x, some t =>
    let s := releaseRuns (deltas.foldl applyDelta s) t.runs
    let s := quotaSub s t.tenant 3 (tier3Units t)
    let s := freeReplica (giveUp (stopFill s target) target) target t
    let s := { s with obj := { s.obj with
        pages := s.obj.pages.map fun r => if r.oid == oid then { r with oid := target } else r
        fills := s.obj.fills.filter fun x => x.oid != oid
        tab := tset (tdel s.obj.tab oid) target { t with
          sealing := false, damaged := false, t1 := T1State.valid, cdense := false, addr := x.addr, size := x.size, runs := o.runs,
          t0rep := false, fillsT0 := false, t0tiles := [] } } }
    let s := dryExposed (killRecs s fun r => r.oid == oid)
    sealDamage (dropDamage (passSteps (endPlansOf s oid) target) target fun _ => true) target deltas
  | _, _ => s

/-! ### DISCARD (R405 to R408) -/

def discOid (f : Req) : Oid := BitVec.ofNat 40 (leAt f.payload 0 5)
def discFirst (f : Req) : Nat := bitsOf (leAt f.payload 8 8) 0 34
def discCount (f : Req) : Nat := leAt f.payload 16 4

/-- What R406 refuses with DENIED. -/
def discBad (s : State) (o : Obj) (f : Req) : Bool :=
  f.dlx || f.subop != 0 || !zerosAt f.payload 5 3 || bitsOf (leAt f.payload 8 8) 34 30 != 0 || !zerosAt f.payload 20 12 || discCount f == 0 ||
    !(o.isSealed && o.tier == 3) || o.zskip || decide (o.t1 ≠ .none) || o.t0rep || isAlternate s (discOid f) ||
    objUnits o < discFirst f + discCount f

/-- DISCARD at the object's device (R335, R406, R407, R410, R472, R591). -/
def discardAccept (s : State) (f : Req) : State :=
  let no : Status → State := fun st => completeAt s f st []
  match objNamed s (discOid f) f.tenant with
  | none => no .denied
  | some o =>
    if discBad s o f then no .denied
    else match cipherCheck s f.tenant o.prot (genTag s f.tenant) with
      | some st => no st
      | none =>
        if gated s (discOid f) f.src then no .notOwner
        else if o.sealing then no .busyRetry
        else if dryingDown s then no .retry
        else jAdd s (.discard (discOid f) (discFirst f) (discCount f)) [] true (some f)

/-- A DISCARD commits: its units read as zeros; damaged extents and staging of them are dropped (R407). -/
def commitDiscard (s : State) (oid : Oid) (first n : Nat) : State :=
  match tget s.obj.tab oid with
  | none => s
  | some o =>
    let mine : Nat → Bool := fun u => decide (first ≤ u) && decide (u < first + n)
    let s := (List.range n).foldl (fun s k => match runUnit o.runs (first + k) with
      | some lu => setMap s lu .discarded
      | none => s) s
    let s := dropDamage s oid mine
    { s with obj := { s.obj with plans := tmap s.obj.plans fun _ p =>
      { p with steps := modWhere p.steps (fun x => x.oid == oid && !x.over_ && (stepUnits s o x).any mine) fun x =>
        { x with staged := false, need := [], got := [] } } } }

/-- A DELETE commits: units unmapped, runs free, tier-3 use released (R409). -/
def commitDelete (s : State) (oid : Oid) : State :=
  match tget s.obj.tab oid with
  | none => s
  | some o =>
    let s := dropDamage (quotaSub (releaseRuns s o.runs) o.tenant 3 (tier3Units o)) oid fun _ => true
    leaveTable (modObj s oid fun o => { o with runs := [] }) oid

end Sys2Proof.Machine
end

