-- ==== Sys2Proof/Machine/Flash.lean ====
section
/-! DEFINITION. The flash tier at work: programs and erases (R381 to R383, R397, R399), the journal's commits and checkpoints
(R386 to R390), garbage collection (R391 to R400), patrol (R378), health (R414), format and replay (R368 to R370, R401, R413). -/

namespace Sys2Proof.Machine

/-! ### Programs -/

/-- Whether a page waits for its program's report. -/
def programming (s : State) (a : PageAddr) : Bool := s.ftl.journal.any fun j => j.needs.contains a

/-- What a page being programmed holds: a seal's unit, or a cycle's copy as stored (R393 step 2, R395). -/
def pageOf (s : State) (a : PageAddr) : Option PageData :=
  match s.ftl.seals.findSome? fun r => (r.units.find? fun x => decide (x.2 = a)).map fun x => sealPage s r x.1 with
  | some p => some p
  | none => s.ftl.gc.findSome? fun c => (c.copies.find? fun x => decide (x.2.2 = a)).bind fun x =>
      (tget s.ftl.media.pages x.2.1).map fun p => { p with wseq := c.jseq }

/-- A cycle whose copies are all programmed writes its record: a delta for each unit whose entry still points into the victim,
and STATE 3 for those found uncorrectable (Table 9.9 step 3, R396, R398). -/
def writeGcRecords (s : State) : State :=
  s.ftl.gc.foldl (fun s c =>
    if s.ftl.journal.any fun j => j.jseq == c.jseq && j.needs.isEmpty && !j.ready then
      let good := c.copies.filterMap fun x => if mapEnt s x.1 = .mapped x.2.1 then some (⟨x.1, .mapped x.2.1, .mapped x.2.2⟩ : Delta) else none
      let bad := c.bad.filterMap fun u => match mapEnt s u with
        | .mapped a => if a.blk = c.victim then some (⟨u, .mapped a, .damaged⟩ : Delta) else none
        | _ => none
      modJ s c.jseq fun j => { j with body := .gc c.victim (good ++ bad), ready := true }
    else s) s

/-- A seal whose data units the cipher stage no longer passes ends (R591). -/
def checkSeals (s : State) : State :=
  s.ftl.seals.foldl (fun s r => match tget s.obj.tab r.oid with
    | some o => match cipherCheck s o.tenant o.prot r.gen with
      | some st => if s.ftl.journal.any fun j => j.jseq == r.jseq && !j.needs.isEmpty then endSeal s r st else s
      | none => s
    | none => s) s

/-- A program reported good: the page stands, its record waits for one less, its block closes with its last page (R381, R386). -/
def programDone (s : State) (a : PageAddr) : State :=
  if !programming s a then s
  else
    let s := checkSeals s
    let s := match pageOf s a with
      | some p => { s with ftl := { s.ftl with media := { s.ftl.media with pages := tset s.ftl.media.pages a p } } }
      | none => s
    let s := { s with ftl := { s.ftl with journal := s.ftl.journal.map fun j =>
      { j with needs := j.needs.filter fun x => decide (x ≠ a) } } }
    let now := s.counter
    let s := if a.page.toNat + 1 = s.ftl.geom.pages && decide ((blkOf s a.blk).use ≠ .bad) then
        modBlk s a.blk fun r => { r with use := .closed, readAt := now } else s
    writeGcRecords s

/-- Units of a seal that a failed block held, placed again on other blocks (R383). -/
def replaceSeal (s : State) (r : SealRun) (b : BlkAddr) : State :=
  let lost := (r.units.filter fun x => decide (x.2.blk = b)).map (·.1)
  if lost.isEmpty then s
  else match placeUnits .sealOpen false lost 0 s with
    | none => endSeal s r .noSlot
    | some (s, units) =>
      let r' := { r with units := (r.units.filter fun x => decide (x.2.blk ≠ b)) ++ units }
      let s := modJ s r.jseq fun j => { j with needs := j.needs.filter (fun a => decide (a.blk ≠ b)) ++ units.map (·.2) }
      emits (remakeSeal s r') (units.map fun x => .nandProgram x.2)

/-- Copies of a cycle that a failed block held, made again from the victim (R397). -/
def replaceCycle (s : State) (c : Cycle) (b : BlkAddr) : State :=
  let lost := c.copies.filter fun x => decide (x.2.2.blk = b)
  if lost.isEmpty || c.committed then s
  else match placeUnits .relocOpen false (lost.map (·.1)) 0 s with
    | none => s
    | some (s, units) =>
      let moved := units.filterMap fun x => (lost.find? fun y => y.1 == x.1).map fun y => (x.1, y.2.1, x.2)
      let c' := { c with copies := (c.copies.filter fun x => decide (x.2.2.blk ≠ b)) ++ moved }
      let s := { s with ftl := { s.ftl with gc := modWhere s.ftl.gc (fun x => x.jseq == c.jseq) fun _ => c' } }
      let s := modJ s c.jseq fun j => { j with needs := j.needs.filter (fun a => decide (a.blk ≠ b)) ++ units.map (·.2), ready := false }
      emits s (units.map fun x => .nandProgram x.2)

/-- A program reported failed: the block is retired and its uncommitted units are programmed elsewhere (R383, R397); during
drydown no flash program starts but those of drydown. -/
def programFail (s : State) (a : PageAddr) (inj : Bool) : State :=
  if !programming s a then s
  else
    let s := modHealth s fun h => { h with pgmFail := satInc 32 h.pgmFail }
    let s := retireBlock (raise s { report 6 .none (locPage s.ftl.geom a) with inj := inj }) a.blk 2
    if dryingDown s then s
    else
      let s := s.ftl.seals.foldl (fun s r => replaceSeal s r a.blk) s
      s.ftl.gc.foldl (fun s c => replaceCycle s c a.blk) s

/-- Whether a Blotter entry of KIND 4 targets a block (Table 18.13). -/
def bltHits (b : BlkAddr) (e : Blt) : Bool :=
  e.portStack == b.chan.setWidth 8 && e.sub.extractLsb' 0 3 == b.ce && e.sub.extractLsb' 3 2 == b.lun

/-- A data-block program's report, with the Blotter's injection (R680). -/
def programReport (s : State) (a : PageAddr) : State :=
  if !programming s a then s
  else match bltEvent s 4 fun e => e.action == 0 && bltHits a.blk e with
    | (s, some _) => programFail s a true
    | (s, none) => programDone s a

/-! ### Records as the journal holds them (R372, R385, R387) -/

/-- A block, as the fields of a map entry name it (Table 9.3). -/
def blkBits (b : BlkAddr) : Nat :=
  b.block.toNat * 2 ^ 12 + b.plane.toNat * 2 ^ 28 + b.lun.toNat * 2 ^ 30 + b.ce.toNat * 2 ^ 32 + b.chan.toNat * 2 ^ 35

/-- The 6 bytes of a map entry (Table 9.3). -/
def entBytes (e : MapEnt) : List Byte :=
  leBytes (match e with
    | .unmapped => 0
    | .mapped a => a.page.toNat + blkBits a.blk + 2 ^ 46
    | .discarded => 2 * 2 ^ 46
    | .damaged => 3 * 2 ^ 46) 6

/-- The 12 bytes of a delta (R387). -/
def deltaBytes (d : Delta) : List Byte := leBytes d.unit 6 ++ entBytes d.new

/-- Eight runs of 16 bytes, the unused ones zero (Table 9.8). -/
def runsBytes (rs : List (Nat × Nat)) : List Byte := padTo 128 (rs.flatMap fun x => leBytes x.1 8 ++ leBytes x.2 8)

/-- TYPE of a record (Table 9.8). -/
def jType : JBody → Nat
  | .format _ => 1
  | .sealRec _ _ _ _ => 2
  | .gc _ _ => 3
  | .erase _ _ => 4
  | .discard _ _ _ => 5
  | .delete _ => 6
  | .retire _ _ => 7
  | .segment _ => 8
  | .damage _ _ => 9
  | .serial _ => 10

/-- A record's body (Table 9.8), each field that the table gives no width 8 bytes (log entry 38). -/
def jBody (s : State) : JBody → List Byte
  | .format l => leBytes l 8 ++ leBytes (Config.geomPrint (s.ftl.geom.ces.map (·.toNat) ++
      [s.ftl.geom.luns, s.ftl.geom.planes, s.ftl.geom.pages, s.ftl.geom.blocks, s.ftl.geom.spare])).toNat 8
  | .sealRec oid o t ds => descBytes oid o ++ runsBytes o.runs ++ (match t with
      | some t => leBytes t.toNat 8 ++ runsBytes (((tget s.obj.tab t).map (·.runs)).getD [])
      | none => []) ++ ds.flatMap deltaBytes
  | .gc v ds => leBytes (blkBits v) 8 ++ ds.flatMap deltaBytes
  | .erase b n => leBytes (blkBits b) 8 ++ leBytes n 8
  | .discard oid a n => leBytes oid.toNat 8 ++ leBytes a 8 ++ leBytes n 8
  | .delete oid => leBytes oid.toNat 8
  | .retire b c => leBytes (blkBits b) 8 ++ leBytes c 8
  | .segment i => leBytes i 8 ++ List.replicate 8 0
  | .damage oid u => leBytes oid.toNat 8 ++ leBytes u 8
  | .serial k => leBytes k 8

/-- A record: header and body (Table 9.6). -/
def recordBytes (s : State) (j : Nat) (b : JBody) : List Byte :=
  let body := jBody s b
  leBytes j 8 ++ [BitVec.ofNat 8 (jType b), 0, 0, 0] ++ leBytes body.length 4 ++ leBytes (crc32c body).toNat 4 ++
    List.replicate 12 0 ++ body

/-- The commit entry of a record (Table 9.7). -/
def commitEntry (s : State) (j : Nat) (b : JBody) : List Byte :=
  leBytes j 8 ++ leBytes (crc32c (recordBytes s j b)).toNat 4 ++ [BitVec.ofNat 8 (jType b), 0, 0, 0]

/-! ### Commits and checkpoints (R386 to R390) -/

/-- Map segments that a record changes (R389). -/
def recSegments (s : State) : JBody → List Nat
  | .sealRec _ o _ ds => (ds.map fun d => d.unit / 2048) ++ o.runs.flatMap fun x => [x.1 / 2048]
  | .gc _ ds => ds.map fun d => d.unit / 2048
  | .discard oid first n => match tget s.obj.tab oid with
    | some o => (List.range n).filterMap fun k => (runUnit o.runs (first + k)).map (· / 2048)
    | none => []
  | _ => []

/-- Whether a record's segments were all checkpointed after it. -/
def recDone (s : State) (rest : List (Nat × JBody)) (b : JBody) : Bool :=
  (recSegments s b).all fun g => rest.any fun x => match x.2 with
    | .segment i => i == g
    | _ => false

/-- The tail after every record that it may pass (R389). -/
def newTail (s : State) : List (Nat × JBody) → Nat → Nat
  | [], t => t
  | x :: rest, t => if recDone s rest x.2 then newTail s rest (x.1 + 1) else t

/-- The journal's tail and fill recomputed. -/
def settleJournal (s : State) : State :=
  let live := s.ftl.media.committed.filter fun x => decide (s.ftl.media.tail ≤ x.1)
  let t := if live.any fun x => match x.2 with
      | .segment _ => true
      | _ => false
    then newTail s live s.ftl.media.tail else s.ftl.media.tail
  let kept := live.filter fun x => decide (t ≤ x.1)
  { s with ftl := { s.ftl with media := { s.ftl.media with tail := t }, jBytes := (kept.map fun x => jSize x.2).sum } }

/-- The ring (R384). -/
def ringBytes : Nat := 2 ^ 33

/-- More than half full: every segment changed since its last checkpoint is written, with a SEGMENT record; erase counts and
health are checkpointed with them (R389, R414). -/
def checkpoint (s : State) : State :=
  if 2 * s.ftl.jBytes ≤ ringBytes || s.ftl.journal.any fun j => match j.body with
      | .segment _ => true
      | _ => false
  then s
  else
    let segs := ((s.ftl.media.committed.filter fun x => decide (s.ftl.media.tail ≤ x.1)).flatMap fun x => recSegments s x.2).eraseDups
    let s := segs.foldl (fun s g => jAdd s (.segment g) [] true none) s
    { s with ftl := { s.ftl with media := { s.ftl.media with health := some s.ftl.health } } }

/-- Blocks whose erase ends a tenant's ERASE_PEND (R601). -/
def erasedFor (s : State) (b : BlkAddr) : State :=
  { s with sec := { s.sec with tenants := tmap s.sec.tenants fun _ t => { t with eraseBlocks := t.eraseBlocks.filter fun x => decide (x ≠ b) } } }

/-- What a durable record changes (R388, R393, R407, R409). -/
def applyRecord (s : State) (body : JBody) : State :=
  match body with
  | .sealRec oid o target ds => match target with
    | none => commitSeal s oid o ds
    | some t => commitReseal s oid t o ds
  | .gc v ds =>
    let s := ds.foldl applyDelta s
    { s with ftl := { s.ftl with gc := modWhere s.ftl.gc (fun c => decide (c.victim = v)) fun c => { c with committed := true } } }
  | .erase b n =>
    let s := modBlk s b fun r => { r with use := if r.use = .bad then .bad else .free, erases := n, nextPage := 0, soft := 0 }
    { s with ftl := { s.ftl with gc := s.ftl.gc.filter fun c => decide (c.victim ≠ b) } }
  | .discard oid first n => commitDiscard s oid first n
  | .delete oid => commitDelete s oid
  | .format _ | .retire _ _ | .segment _ | .damage _ _ | .serial _ => s

/-- A record made durable: its effect, its waiter's completion, a waiting CREATE (R386, R331). -/
def makeDurable (s : State) (j : JRec) : State :=
  let s := emit s (.journal (recordBytes s j.jseq j.body) (commitEntry s j.jseq j.body))
  let s := { s with ftl := { s.ftl with journal := s.ftl.journal.filter fun x => x.jseq != j.jseq
                                        seals := s.ftl.seals.filter fun x => x.jseq != j.jseq
                                        media := { s.ftl.media with committed := s.ftl.media.committed ++ [(j.jseq, j.body)] } } }
  let s := applyRecord s j.body
  let s := match j.waiter with
    | some f => completeAt s f .ok []
    | none => s
  match j.body with
  | .serial _ => resumeCreate s
  | _ => s

/-- A REVOKED check at a DISCARD's commit: its tenant became REMOVING (R410). -/
def discardRevoked (s : State) (j : JRec) : Option Req :=
  match j.body, j.waiter with
  | .discard _ _ _, some f => if isRemoving s f.tenant then some f else none
  | _, _ => none

/-- JOURNAL_COMMIT (R386, R390): the record of the lowest JSEQ, once its pages and units are programmed and the ring has
room. -/
def journalCommit (s : State) : State :=
  if dryingDown s || s.ftl.state ≠ .online then s
  else match s.ftl.journal with
    | [] => s
    | j :: _ =>
      if !j.ready || !j.needs.isEmpty || ringBytes < s.ftl.jBytes + jSize j.body then s
      else match discardRevoked s j with
        | some f => completeAt (voidRecord s j.jseq) f .revoked []
        | none => checkpoint (settleJournal (makeDurable s j))

/-! ### Garbage collection (R391 to R400) -/

/-- Valid units of a block. -/
def validUnits (s : State) (b : BlkAddr) : Nat := (unitsIn s b).length

/-- A block's place in (CHAN, CE, LUN, PLANE, BLOCK) order. -/
def blkOrder (b : BlkAddr) : Nat :=
  (((b.chan.toNat * 8 + b.ce.toNat) * 4 + b.lun.toNat) * 4 + b.plane.toNat) * 65536 + b.block.toNat

/-- Whether a running cycle has a block as its victim. -/
def isVictim (s : State) (b : BlkAddr) : Bool := s.ftl.gc.any fun c => decide (c.victim = b)

/-- Closed data blocks that may be victims. -/
def closedBlocks (s : State) : List (BlkAddr × BlkRec) :=
  s.ftl.blocks.filter fun x => decide (x.2.use = .closed) && !isVictim s x.1

/-- The highest erase count among good blocks. -/
def maxErases (s : State) : Nat := ((s.ftl.blocks.filter fun x => decide (x.2.use ≠ .bad)).map fun x => x.2.erases).foldl max 0

/-- The next victim, whether the wear rule chose it, and whether it came from the queue (R392). -/
def chooseVictim (s : State) : Option (BlkAddr × Bool × Bool) :=
  let queued := s.ftl.refreshQ.find? fun b =>
    (decide ((blkOf s b).use = .closed) || decide ((blkOf s b).use = .bad)) && !isVictim s b
  match queued with
  | some b => some (b, false, true)
  | none =>
    let cs := closedBlocks s
    let least := leastBy (fun x : BlkAddr × BlkRec => x.2.erases) cs
    let spread := match least with
      | some x => decide (x.2.erases + max 16 s.ftl.wlDelta.toNat < maxErases s)
      | none => false
    if !s.ftl.gcOn then none
    else if spread && s.ftl.wlTurn == 0 then least.map fun x => (x.1, true, false)
    else (leastBy (fun x : BlkAddr × BlkRec => (validUnits s x.1 * 2 ^ 32 + x.2.erases) * 2 ^ 32 + blkOrder x.1) cs).map
      fun x => (x.1, false, false)

/-- A decoding that corrected nothing. -/
def Decoded.clean : Decoded := ⟨1, 0, 0, true⟩

/-- The valid units of a victim read: what each decoding does, and steps 2 and 3 of Table 8.7 for those found uncorrectable
(R375 to R377, R398). -/
def readVictim (s : State) (rs : List Decoded) (all : List (Nat × PageAddr)) : State :=
  all.foldl (fun s x =>
    let d := rs.getD x.2.page.toNat Decoded.clean
    let s := afterRead s x.2 d
    match decodeBad d, unitOwner s x.1 with
    | true, some (oid, u) => unitDamaged s oid u (some x.2)
    | _, _ => s) s

/-- GC_CYCLE_START (R391 to R393, R398): a victim, a reserved JSEQ, and its valid units read, and copied onto relocation blocks
but for the uncorrectable ones. -/
def gcCycleStart (s : State) (rs : List Decoded) : State :=
  if s.ftl.state ≠ .online || dryingDown s then s
  else
    let pm := freePm s
    let s := { s with ftl := { s.ftl with gcOn := decide (pm < s.ftl.freeLo.toNat) || (s.ftl.gcOn && decide (pm < s.ftl.freeHi.toNat)) } }
    if 16 ≤ s.ftl.gc.length then s
    else match chooseVictim s with
      | none => s
      | some (v, worn, queued) =>
        let all := unitsIn s v
        let lost : Nat × PageAddr → Bool := fun x =>
          decodeBad (rs.getD x.2.page.toNat Decoded.clean) || (tget s.ftl.media.pages x.2).isNone ||
            (unitOwner s x.1).any fun o => s.obj.damagedExt.contains o
        match placeUnits .relocOpen worn ((all.filter fun x => !lost x).map (·.1)) 0 s with
        | none => s
        | some (s, units) =>
          let s := readVictim s rs all
          let copies := units.filterMap fun x => (all.find? fun y => y.1 == x.1).map fun y => (x.1, y.2, x.2)
          let c : Cycle := { victim := v, jseq := s.ftl.nextJ, copies := copies, bad := (all.filter lost).map (·.1),
                             committed := false, erasing := false }
          let s := jAdd s (.gc v []) (units.map (·.2)) false none
          let turn := if worn then 15 else s.ftl.wlTurn - 1
          let s := { s with ftl := { s.ftl with gc := s.ftl.gc ++ [c], wlTurn := turn
                                                refreshQ := s.ftl.refreshQ.filter fun b => decide (b ≠ v) } }
          let s := if queued then modHealth s fun h => { h with refresh := satInc 32 h.refresh } else s
          let s := emits s (copies.flatMap fun x => [.nandRead x.2.1 x.1, .nandProgram x.2.2])
          writeGcRecords s

/-- GC_VICTIM_ERASE (R393 to R395): once its record is durable, no entry points into the victim and no fetch that read one is
outstanding. A retired victim takes no erase. -/
def gcVictimErase (s : State) (b : BlkAddr) : State :=
  match s.ftl.gc.find? fun c => decide (c.victim = b) with
  | none => s
  | some c =>
    if dryingDown s || !c.committed || c.erasing || !(unitsIn s b).isEmpty ||
        s.obj.fetches.any fun x => x.page.any fun a => decide (a.blk = b) then s
    else if (blkOf s b).use = .bad then
      erasedFor { s with ftl := { s.ftl with gc := s.ftl.gc.filter fun x => decide (x.victim ≠ b) } } b
    else
      let s := modBlk s b fun r => { r with use := .erasing }
      emit { s with ftl := { s.ftl with gc := modWhere s.ftl.gc (fun x => decide (x.victim = b)) fun x => { x with erasing := true } } }
        (.nandErase b)

/-- Pages of a block gone from the media. -/
def wipeBlock (s : State) (b : BlkAddr) : State :=
  { s with ftl := { s.ftl with media := { s.ftl.media with pages := s.ftl.media.pages.filter fun x => decide (x.1.blk ≠ b) } } }

/-- An erase reported failed: the victim is retired in place of step 8 (R399). -/
def eraseFail (s : State) (b : BlkAddr) (inj : Bool) : State :=
  if (blkOf s b).use ≠ .erasing then s
  else
    let s := modHealth s fun h => { h with ersFail := satInc 32 h.ersFail }
    let s := retireBlock (raise s { report 7 .none (locPage s.ftl.geom ⟨b, 0⟩) with inj := inj }) b 3
    { s with ftl := { s.ftl with gc := s.ftl.gc.filter fun c => decide (c.victim ≠ b) } }

/-- An erase reported good: the ERASE record follows (R393 step 8, R395). -/
def eraseDone (s : State) (b : BlkAddr) : State :=
  if (blkOf s b).use ≠ .erasing then s
  else jAdd (erasedFor (wipeBlock s b) b) (.erase b ((blkOf s b).erases + 1)) [] true none

/-- An erase's report, with the Blotter's injection (R680). -/
def eraseReport (s : State) (b : BlkAddr) : State :=
  if (blkOf s b).use ≠ .erasing then s
  else match bltEvent s 4 fun e => e.action == 1 && bltHits b e with
    | (s, some _) => eraseFail s b true
    | (s, none) => eraseDone s b

/-! ### Patrol, health and registers -/

/-- PATROL_READ (R378): a closed data block decoded page by page; an uncorrectable unit is handed to Table 8.7. -/
def patrolRead (s : State) (b : BlkAddr) (rs : List Decoded) : State :=
  if (blkOf s b).use ≠ .closed then s
  else
    let now := s.counter
    let s := modBlk s b fun r => { r with readAt := now }
    rs.zipIdx.foldl (fun s (d, k) =>
      let a : PageAddr := ⟨b, BitVec.ofNat 12 k⟩
      let owner := (unitsIn s b).findSome? fun x => if x.2 = a then unitOwner s x.1 else none
      let s := afterRead s a d
      match decodeBad d, owner with
      | true, some (oid, u) => unitDamaged s oid u (some a)
      | _, _ => s) s

/-- The bin of a temperature (R414). -/
def tempBin (c : Int) : Nat :=
  if c < 0 then 0 else if c < 25 then 1 else if c < 40 then 2 else if c < 55 then 3 else if c < 70 then 4 else if c < 85 then 5
  else if c < 100 then 6 else 7

/-- FLASH_TEMP_SAMPLE (R414): one second of powered time in a bin. -/
def flashTemp (s : State) (c : Int) : State :=
  let now := s.counter
  let binned : List Nat → List Nat := fun l => (List.range 8).map fun k =>
    if k = tempBin c then satInc 32 (l.getD k 0) else l.getD k 0
  let s := modHealth s fun h => { h with temps := binned h.temps }
  { s with ftl := { s.ftl with tempAt := now } }

/-- HEALTH_PERSIST (R414). -/
def healthPersist (s : State) : State :=
  { s with ftl := { s.ftl with persistAt := s.counter, media := { s.ftl.media with health := some s.ftl.health } } }

/-- A write of FTL_GC_CFG (Table 9.17). -/
def writeGcCfg (s : State) (v : Word) : State × Status :=
  let hi := bitsOf v.toNat 20 10
  let lo := bitsOf v.toNat 10 10
  let crit := bitsOf v.toNat 0 10
  if crit < lo && lo < hi && hi ≤ 1000 then
    ({ s with ftl := { s.ftl with freeHi := BitVec.ofNat 10 hi, freeLo := BitVec.ofNat 10 lo, freeCrit := BitVec.ofNat 10 crit } }, .ok)
  else (s, .denied)

/-! ### Discovery, format and replay (R367 to R370, R401, R413) -/

/-- The geometry found, in the registers. -/
def takeGeom (s : State) (g : Geom) : State := { s with ftl := { s.ftl with geom := g, targets := targetsTaken g } }

/-- The anchor's blocks, on channels 0 and 8 (R384): the first good block of chip enable 0, LUN 0, plane 0. -/
def anchorBlocks (s : State) : List BlkAddr :=
  ([0, 8] : List (BitVec 4)).filterMap fun c =>
    ((List.range s.ftl.geom.blocks).map fun k => (⟨c, 0, 0, 0, BitVec.ofNat 16 k⟩ : BlkAddr)).find? fun b => decide ((blkOf s b).use ≠ .bad)

/-- Media formatted (Table 9.2 step 6, R370, R402): factory-marked blocks bad, L fixed, the FORMAT record written; the floor of
the serials is kept. -/
def formatMedia (s : State) (g : Geom) (bad : List BlkAddr) (old : Tbl BlkAddr BlkRec) : State :=
  let floor := max (max (serialFloor s) s.obj.nextSerial) s.ftl.media.serial
  let s := { s with ftl := { s.ftl with blocks := old.map fun x =>
      (x.1, if x.2.use = .bad then x.2 else { BlkRec.blank with erases := x.2.erases }), l := 0 } }
  let s := bad.foldl (fun s b =>
    if (blkOf s b).use = .bad then s
    else modHealth (modBlk s b fun r => { r with use := .bad, cause := 1 }) fun h => { h with factory := satInc 32 h.factory }) s
  let d := goodBlocks s * g.pages
  let l := min (2 ^ 33) (d * 7 / 8)
  let s := (anchorBlocks s).foldl (fun s b => modBlk s b fun r => { r with use := .reserved }) { s with ftl := { s.ftl with l := l } }
  let j := s.ftl.nextJ
  let s := { s with ftl := { s.ftl with
      state := .online, rdonly := false, map := [], journal := [], gc := [], refreshQ := [], seals := [], nextJ := j + 2, jBytes := 128,
      media := { s.ftl.media with formatted := some (l, g), pages := [], committed := [(j, .format l), (j + 1, .serial floor)], tail := j,
                                    base := s.ftl.blocks } } }
  modHealth { s with obj := { s.obj with nextSerial := floor } } fun h => { h with spareAtFormat := spareS s }

/-- Tier-3 objects discarded (R413). -/
def dropSealed (s : State) : State :=
  { s with obj := { s.obj with tab := s.obj.tab.filter fun x => x.2.tier != 3, damagedExt := [] } }

/-- Whether a block's target stood at the same position with the same geometry in the previous FORMAT record (R413). -/
def targetKept (s : State) (g : Geom) (b : BlkAddr) : Bool :=
  s.ftl.media.formatted.any fun x => hasTarget x.2 b.chan.toNat b.ce.toNat && hasTarget g b.chan.toNat b.ce.toNat &&
    decide ({ x.2 with ces := g.ces } = g)

/-- FORMAT (R413): refused while the tier is not offline, or over targets that the device does not support (R365); the flash is then as
Table 9.2 steps 6 to 8 leave it. -/
def formatFlash (s : State) (d : Discovery) : State × Status :=
  if (s.ftl.state ≠ .offline && s.ftl.state ≠ .formatting) || !targetsOk d.geom then (s, .denied)
  else
    let kept := targetKept s d.geom
    (formatMedia (dropSealed (takeGeom s d.geom)) d.geom (d.factoryBad.filter fun b => !kept b) (s.ftl.blocks.filter fun x => kept x.1), .ok)

/-- The records that replay applies: in JSEQ order up to the first that is missing (R386). -/
def replayable : List (Nat × JBody) → List (Nat × JBody)
  | a :: b :: rest => if b.1 = a.1 + 1 then a :: replayable (b :: rest) else [a]
  | l => l

/-- A committed record as replay applies it (R386, R388, R401). -/
def replayRecord (s : State) (r : Nat × JBody) : State :=
  match r.2 with
  | .sealRec oid o target ds =>
    let s := ds.foldl applyDelta s
    let put : Obj := { o with t1 := T1State.none, t0rep := false, fillsT0 := false, t0tiles := [], addr := 0, cdense := false,
                              deleted := false }
    let s := match target with
      | none => { s with obj := { s.obj with tab := tset s.obj.tab oid put } }
      | some t => match tget s.obj.tab t with
        | some x =>
          let s := dropDamage (releaseRuns s x.runs) t fun _ => true
          modObj s t fun x => { x with size := o.size, runs := o.runs, damaged := false }
        | none => s
    sealDamageOnly s (target.getD oid) ds
  | .gc _ ds => ds.foldl applyDelta s
  | .erase b n => modBlk s b fun r => { r with erases := n }
  | .discard oid first n => commitDiscard s oid first n
  | .delete oid => { commitDelete s oid with obj := { (commitDelete s oid).obj with tab := tdel (commitDelete s oid).obj.tab oid } }
  | .retire b cause => modBlk s b fun r => { r with use := .bad, cause := cause }
  | .damage oid u => putDamage s oid u
  | .serial k => { s with obj := { s.obj with nextSerial := max s.obj.nextSerial k } }
  | .format _ | .segment _ => s
where
  /-- Extents that a seal left damaged, entered without a new record. -/
  sealDamageOnly (s : State) (oid : Oid) (ds : List Delta) : State :=
    ds.zipIdx.foldl (fun s (d, u) => if d.new = .damaged then putDamage s oid u else s) s

/-- Blocks after replay: those with a mapped unit closed; those with none erased, one more on their count (R401, Table 9.10). -/
def reclaim (s : State) : State :=
  let bs := (s.ftl.media.pages.map fun x => x.1.blk).eraseDups
  bs.foldl (fun s b =>
    if (blkOf s b).use = .bad then s
    else if (unitsIn s b).isEmpty then modBlk (wipeBlock s b) b fun r => { r with use := .free, erases := r.erases + 1, nextPage := 0 }
    else modBlk s b fun r => { r with use := .closed, nextPage := s.ftl.geom.pages, readAt := s.counter }) s

/-- Journal replay (Table 9.2 step 7): the map, sealed objects, their quota and the bad blocks rebuilt from committed records. -/
def replayJournal (s : State) : State :=
  let l := (s.ftl.media.formatted.map (·.1)).getD 0
  let s := { s with ftl := { s.ftl with l := l, map := [], blocks := s.ftl.media.base, journal := [], gc := [], seals := [], refreshQ := []
                                        health := s.ftl.media.health.getD s.ftl.health }
                    obj := { s.obj with tab := [], damagedExt := [] } }
  let s := (replayable s.ftl.media.committed).foldl replayRecord s
  let s := (anchorBlocks s).foldl (fun s b => modBlk s b fun r => { r with use := .reserved }) (reclaim s)
  let s := s.obj.tab.foldl (fun s x => quotaAdd s x.2.tenant 3 (tier3Units x.2)) s
  let next := (s.ftl.media.committed.getLast?.map fun x => x.1 + 1).getD 0
  checkSpare (settleJournal { s with ftl := { s.ftl with nextJ := next } })

/-- FLASH_DISCOVERY (Table 9.2, R365, R367, R369): what the targets found leave the tier as; targets that the device does not support
leave it offline (log entry 37). -/
def discover (s : State) (d : Discovery) : State :=
  let ev : State → State := fun s => raise s (report 13 .none { locNone with die := 26 })
  let s := takeGeom s d.geom
  let s := if decide ((targetsTaken d.geom) < (targetsIn d.geom).length) || d.excluded != 0 then ev s else s
  let same := d.sameTargets && s.ftl.media.formatted.any fun x => decide (x.2 = d.geom)
  if !targetsOk d.geom || (!d.anchorReadable && (d.anchorExists || !d.blockZeroBlank)) || (d.anchorReadable && !same) then
    { s with ftl := { s.ftl with state := .offline }, obj := { s.obj with nextSerial := max s.obj.nextSerial s.ftl.media.serial } }
  else if !d.anchorExists then formatMedia s d.geom d.factoryBad []
  else
    let s := replayJournal { s with ftl := { s.ftl with state := .replaying } }
    { s with ftl := { s.ftl with state := .online } }

/-! ### Rows -/

/-- GC_CYCLE_START (R393). -/
def execGcCycleStart (rs : List Decoded) (s : State) : Res := whenUp s fun s => gcCycleStart s rs
/-- GC_VICTIM_ERASE (R393). -/
def execGcVictimErase (b : BlkAddr) (s : State) : Res := whenUp s fun s => gcVictimErase s b
/-- NAND_ERASE_FAIL (R399). -/
def execNandEraseFail (b : BlkAddr) (s : State) : Res := whenUp s fun s => eraseFail s b false
/-- PATROL_READ (R378). -/
def execPatrolRead (b : BlkAddr) (rs : List Decoded) (s : State) : Res := whenUp s fun s => patrolRead s b rs
/-- FLASH_TEMP_SAMPLE (R414). -/
def execFlashTempSample (celsius : Int) (s : State) : Res := whenUp s fun s => flashTemp s celsius
/-- HEALTH_PERSIST (R414). -/
def execHealthPersist (s : State) : Res := whenUp s healthPersist

end Sys2Proof.Machine
end

