-- ==== Sys2Proof/Machine/Dry.lean ====
section
/-! DEFINITION. Drydown (R432 to R436), its replay (R440), hold-up energy and DRY_LIMIT (R427 to R431), compaction (R423). -/

namespace Sys2Proof.Machine

/-! ### Hold-up energy (R427 to R431) -/

/-- Energy in µJ that a bank of `c` µF holds above 30 V at a voltage in mV, with the tolerance 0.95 (R427). -/
def bankEnergy (c mv : Nat) : Nat := 475 * c * (mv * mv - 900000000) / 10 ^ 9

/-- The charging current in mA, and the capacitance to fall back on in µF, of the image (R426, R428). -/
def huIchg (s : State) : Nat := (s.boot.image.map (·.huIchg)).getD 0
def huCmin (s : State) : Nat := (s.boot.image.map (·.huCmin)).getD 0

/-- V_TOP in mV (R427). -/
def vTop (vHu : Nat) : Nat := min 50000 (vHu - 4000)

/-- The bank was measured: it started below 30 V and settled above 34 V (R428). -/
def huMeasured (m : HoldMeas) : Bool := !m.startedAbove && decide (34000 < m.vHuMv)

/-- c in µF (R427, R428). -/
def huCap (s : State) (m : HoldMeas) : Nat :=
  if huMeasured m then huIchg s * m.riseUs / (vTop m.vHuMv - 30000) else huCmin s

/-- The program rate of R411 in bytes per µs with a program time, over the channels. -/
def programRate (s : State) (tProg : Nat) : Rat :=
  let g := s.ftl.geom
  let rate := (s.boot.image.map (·.nandRate)).getD 3600
  let bus : Rat := per (16384 * 100 * rate) (552 * 3600)
  let array : Nat → Rat := fun c =>
    per (((targetsOf s).filter fun x => x.1 == c).length * g.luns * g.planes * 3 * 16384) (max 1 tProg)
  ((List.range 16).map fun c => min bus (array c)).foldl (· + ·) 0

/-- The flush rate R_f in bytes per µs (R433). -/
def flushRate (s : State) : Rat := min 30000 (programRate s s.ftl.profile.pslcProgUs)

/-- The durable limit in bytes that an energy in µJ gives (R429). -/
def limitFor (s : State) (e : Nat) : Nat :=
  let t : Rat := per e 175 - per (3000 + s.ftl.profile.tProgUs) 1
  let b : Rat := t * flushRate s
  let room : Rat := min (per (2 ^ 31) 1) b - per (2 ^ 26) 1
  (room / 65536).floor.toNat * 65536

/-- ARMED once the limit is set and the region is erased; DRYING ends (Table 10.6 step 7). -/
def armDry (s : State) : State :=
  if s.dry.replayStep7 && s.dry.limitSet && s.dry.regionErased then
    { s with dry := { s.dry with drying := false, armed := true, replayStep7 := false } }
  else s

/-- c, e_meas and DRY_LIMIT set; HU_LOW below 14 J (R429, R430). -/
def setHoldup (s : State) (measured : Bool) (c e : Nat) : State :=
  let low := decide (e < 14000000)
  let s := { s with dry := { s.dry with measured := measured, huC := c, huE := e / 1000, huLow := low } }
  let s := { s with dry := { s.dry with limit := limitFor s e, limitStart := limitFor s e, limitSet := true }
                    boot := { s.boot with huTimer := false } }
  let s := if low then setAlert (raise s (report 12 .none locCtl)) alertHoldup else s
  armDry (dryExposed s)

/-- HOLDUP_MEASURE_DONE (R427, R428). -/
def holdupMeasured (s : State) (m : HoldMeas) : State :=
  if !s.boot.huTimer then s
  else
    let c := huCap s m
    setHoldup s (huMeasured m) c (bankEnergy c m.vHuMv)

/-- HOLDUP_TIMEOUT (R655): not settled within 10 s. -/
def holdupTimeout (s : State) : State :=
  if s.boot.huTimer && decide (10000000 ≤ s.counter) then setHoldup s false s.dry.huC 0 else s

/-- HOLDUP_RECOMPUTE (R431). -/
def holdupRecompute (s : State) (mv : Nat) : State :=
  if !s.dry.limitSet then s
  else dryExposed { s with dry := { s.dry with limit := min s.dry.limitStart (limitFor s (bankEnergy s.dry.huC mv)) } }

/-! ### Drydown (Table 10.2) -/

/-- A buffer record as its bytes (Table 10.1). -/
def dryRecBytes (r : DryRec) : List Byte :=
  leBytes r.oid.toNat 5 ++ leBytes (r.line + 2 ^ 33 * if r.desc.isSome then 2 else 1) 5 ++ leBytes r.tenant.toNat 2 ++ List.replicate 4 0 ++
    match r.desc with
    | some o => descBytes r.oid o
    | none => padTo 128 r.data

/-- The bytes of an image's pending records, and of its buffer records. -/
def imgPend (s : State) (i : DryImg) : List Byte := i.pend.flatMap fun x => recordBytes s x.1 x.2
def imgRecs (i : DryImg) : List Byte := i.recs.flatMap dryRecBytes

/-- The data pages of an image. -/
def imgData (s : State) (i : DryImg) : List Byte :=
  let bs := imgPend s i ++ imgRecs i
  padTo (16384 * ceilDiv bs.length 16384) bs

/-- The image header page (Table 10.3). -/
def imgHeader (s : State) (i : DryImg) : List Byte :=
  padTo 16384 (leBytes 0x44525931 4 ++ List.replicate 4 0 ++ leBytes i.seq 8 ++ leBytes i.jseqFirst 8 ++ leBytes (imgPend s i).length 8 ++
    leBytes (imgRecs i).length 8 ++ leBytes ((imgData s i).length / 16384) 4)

/-- The CRC over the header page and every data page (Table 10.4). -/
def imgCrc (s : State) (i : DryImg) : Word := crc32c (imgHeader s i ++ imgData s i)

/-- The image commit page (Table 10.4). -/
def imgCommit (i : DryImg) : List Byte := padTo 16384 (leBytes i.seq 8 ++ leBytes i.crc.toNat 4 ++ leBytes i.durationUs 4)

/-- The pending records within the 64 MiB that the device holds unprogrammed; a SEAL, DISCARD or DELETE beyond it waits, and no
later record passes it (R425). -/
def heldRecords : List JRec → Nat → List JRec
  | [], _ => []
  | j :: js, n =>
    let waits := match j.body with
      | .sealRec .. | .discard .. | .delete _ => decide (67108864 < n + jSize j.body)
      | _ => false
    if waits then [] else j :: heldRecords js (n + jSize j.body)

/-- The pending records that drydown takes: in JSEQ order up to the first whose units are not all programmed, or that belongs to
an abandoned cycle (R435). -/
def takePending (js : List JRec) : List (Nat × JBody) :=
  ((heldRecords js 0).takeWhile fun j => j.ready && j.needs.isEmpty).map fun j => (j.jseq, j.body)

/-- Steps 5 and 6, once the programs in flight have reported (Table 10.2 step 4). -/
def chooseImage (s : State) : State :=
  match s.dry.image with
  | some i =>
    if i.committed || i.chosen || s.ftl.journal.any fun j => !j.needs.isEmpty then s
    else
      let pend := takePending s.ftl.journal
      let i := { i with pend := pend, jseqFirst := (pend.head?.map (·.1)).getD 0, recs := s.dry.buf.filter (·.live), chosen := true }
      { s with dry := { s.dry with image := some i } }
  | none => s

/-- A port as drydown leaves it: down, with its configuration and counts. -/
def portDead (r : PortRec) : PortRec :=
  { PortRec.blank with
    width := r.width, role := r.role, classes := r.classes, cipher := r.cipher, degrade := r.degrade, peerDev := r.peerDev,
    peerPort := r.peerPort, lastFault := r.lastFault, retrains := r.retrains, replays := r.replays, crcErr := r.crcErr, tagErr := r.tagErr }

/-- Garbage-collection cycles before step 4 of Table 9.9 abandoned (R400): their records are never ready. -/
def abandonCycles (s : State) : State :=
  let gone := s.ftl.gc.filter fun c => !c.committed
  let s := gone.foldl (fun s c => modJ s c.jseq fun j => { j with ready := false, needs := [] }) s
  { s with ftl := { s.ftl with gc := s.ftl.gc.filter (·.committed) } }

/-- Drydown begun (Table 10.2 steps 1 to 3): durable service ends, the Blotter is disarmed, ports, sessions, tiles and engine
work stop; then the device will hold itself in reset for a cause. -/
def beginDrydown (s : State) (cause : HoldCause) : State :=
  if dryingDown s || !isUp s then s
  else
    let i : DryImg := { seq := s.ftl.media.imgSeq + 1, jseqFirst := 0, pend := [], recs := [], chosen := false, committed := false,
                        startAt := s.counter, durationUs := 0, crc := 0 }
    let s := { s with dry := { s.dry with drying := true, armed := false, replayStep7 := false, image := some i }
                      err := { s.err with arm := false }
                      boot := { s.boot with heldNext := cause, ready := false } }
    let s := { s with lnk := tmap s.lnk fun _ r => portDead r
                      swc := { s.swc with land := [], queue := [] }
                      hp := { s.hp with link := false, phy := false, rb := [], part := [] }
                      mg := { s.mg with link := false, sources := [], blocks := [] }
                      ing := { s.ing with buf := [], trk := [], srcs := [] }
                      eng := { s.eng with reqs := [], tiles := tmap s.eng.tiles fun _ t =>
                        { t with gated := true, queue := [], zsk := none, smooth := [] } }
                      acc := { s.acc with slots := s.acc.slots.map fun x => (x.1, { Accord.blank with gen := x.2.gen }), wins := [] }
                      obj := { s.obj with reads := [], fetches := [], fills := [] } }
    chooseImage (abandonCycles s)

/-- PFAIL_ASSERT (R432); before READY no drydown runs, and the device holds itself in reset (R714). -/
def pfailAssert (s : State) : State :=
  let s := { s with pins := { s.pins with pfailN := false } }
  if s.boot.ready then beginDrydown s .drydown
  else if s.dry.drying then s
  else { s with boot := { s.boot with held := .drydown } }

/-- DRYDOWN_IMAGE_COMMIT (Table 10.2 steps 7 and 8): then the device holds itself in reset (R432). -/
def imageCommit (s : State) : State :=
  match s.dry.image with
  | some i =>
    if !s.dry.drying || !i.chosen || i.committed then s
    else
      let i := { i with committed := true, durationUs := s.counter - i.startAt, crc := imgCrc s i }
      emit { s with dry := { s.dry with image := some i }, boot := { s.boot with held := s.boot.heldNext } }
        (.image (imgHeader s i ++ imgData s i) (imgCommit i))
  | none => s

/-- NAND_PROGRAM_COMPLETE, which may be the last that drydown waits for. -/
def nandProgramComplete (s : State) (a : PageAddr) : State := chooseImage (programReport s a)

/-- NAND_PROGRAM_FAIL; during drydown its page is not programmed again. -/
def nandProgramFail (s : State) (a : PageAddr) : State :=
  let s := programFail s a false
  let stop : JRec → JRec := fun j => if j.needs.contains a then { j with needs := [], ready := false } else j
  if dryingDown s then chooseImage { s with ftl := { s.ftl with journal := s.ftl.journal.map stop } } else s

/-- NAND_ERASE_COMPLETE: a victim's erase, or the drydown region's (Table 10.6 step 7). -/
def nandEraseComplete (s : State) (b : BlkAddr) : State :=
  if (blkOf s b).use = .erasing then eraseReport s b
  else if s.dry.replayStep7 then armDry { s with dry := { s.dry with regionErased := true } }
  else s

/-! ### Replay at start (Table 10.6) -/

/-- An object recreated at its recorded ADDR and STACKS, its pages zero (Table 10.6 step 5). -/
def recreate (s : State) (oid : Oid) (o : Obj) : State :=
  if (tget s.obj.tab oid).isSome then s
  else
    let fs := (takeFrames s o.stackMask o.size).getD []
    let p := (o.addr - t1Base s) / 4096
    let o := { o with t1 := T1State.none, t0rep := false, fillsT0 := false, t0tiles := [], sealing := false, deleted := false }
    quotaAdd { s with obj := { s.obj with pages := s.obj.pages ++ backRuns oid p fs, tab := tset s.obj.tab oid o } } o.tenant 1 ((fs.map (·.n)).sum)

/-- A line record written back: as stored, under the key it had (Table 10.6 step 5); poisoned when both copies failed (R424). -/
def restoreLine (s : State) (r : DryRec) : State :=
  match tget s.obj.tab r.oid with
  | some o =>
    let n := (o.addr - t1Base s) / 128 + r.line
    if o.tier != 1 then s else if r.bad then poisonLine s n else linePut s n r.key r.data
  | none => s

/-- Records that replay keeps: of objects that are not sealed by now, and the ownership lines (Table 10.6 steps 5 and 6). -/
def recordStays (s : State) (r : DryRec) : Bool := r.oid == 0 || (tget s.obj.tab r.oid).any fun o => o.tier == 1

/-- A valid image replayed: its pending records committed in JSEQ order, its objects recreated, the buffer rebuilt. -/
def replayImage (s : State) (i : DryImg) : State :=
  let last := s.ftl.nextJ
  let pend := if i.jseqFirst = last then i.pend else []
  let s := { s with ftl := { s.ftl with media := { s.ftl.media with committed := s.ftl.media.committed ++ pend, imgSeq := i.seq } } }
  let s := if pend.isEmpty then s else replayJournal { s with obj := { s.obj with quotaUse := [] } }
  let s := i.recs.foldl (fun s r => match r.desc with
    | some o => recreate s r.oid o
    | none => s) s
  let s := i.recs.foldl (fun s r => if r.desc.isNone then restoreLine s r else s) s
  { s with dry := { s.dry with buf := i.recs.filter (recordStays s), last := 1, lastUs := i.durationUs } }

/-- DRYDOWN_REPLAY (Table 10.6) once the journal ring is replayed; the region's erase follows. -/
def drydownReplay (s : State) : State :=
  let s := match s.dry.image with
    | none => { s with dry := { s.dry with last := 0, lastUs := 0 } }
    | some i =>
      if i.committed && i.seq == s.ftl.media.imgSeq + 1 then replayImage s i
      else raise { s with dry := { s.dry with last := 2, lastUs := 0 } } (report 14 .none locCtl)
  { s with dry := { s.dry with image := none, drying := true, replayStep7 := true, regionErased := false } }

/-- DRY_COMPACT (R423): dead records go, live ones keep their order. -/
def dryCompact (s : State) : State := { s with dry := { s.dry with buf := s.dry.buf.filter (·.live) } }

/-! ### Rows -/

/-- NAND_PROGRAM_COMPLETE (R381). -/
def execNandProgramComplete (a : PageAddr) (s : State) : Res := whenUp s fun s => nandProgramComplete s a
/-- NAND_PROGRAM_FAIL (R383). -/
def execNandProgramFail (a : PageAddr) (s : State) : Res := whenUp s fun s => nandProgramFail s a
/-- NAND_ERASE_COMPLETE (R393). -/
def execNandEraseComplete (b : BlkAddr) (s : State) : Res := whenUp s fun s => nandEraseComplete s b
/-- DRY_COMPACT (R423). -/
def execDryCompact (s : State) : Res := whenUp s dryCompact
/-- PFAIL_ASSERT (R432). -/
def execPfailAssert (s : State) : Res := whenUp s pfailAssert
/-- DRYDOWN_IMAGE_COMMIT (R434). -/
def execDrydownImageCommit (s : State) : Res := whenUp s imageCommit
/-- HOLDUP_MEASURE_DONE (R427). -/
def execHoldupMeasureDone (m : HoldMeas) (s : State) : Res := whenUp s fun s => holdupMeasured s m
/-- HOLDUP_TIMEOUT (R655). -/
def execHoldupTimeout (s : State) : Res := whenUp s holdupTimeout
/-- HOLDUP_RECOMPUTE (R431). -/
def execHoldupRecompute (mv : Nat) (s : State) : Res := whenUp s fun s => holdupRecompute s mv

end Sys2Proof.Machine
end

