-- ==== Sys2Proof/Machine/Accord.lean ====
section
/-! DEFINITION. Accords (R218 to R258): slots and handles, opening and binding, rounds, segments and stripes, results, member
failure, trees, and closing. -/

namespace Sys2Proof.Machine

/-! ### Slots and handles (R218 to R222) -/

/-- An accord slot. -/
def accOf (s : State) (n : BitVec 12) : Accord := tgetD s.acc.slots n Accord.blank

/-- A slot set. -/
def setAcc (s : State) (n : BitVec 12) (a : Accord) : State := { s with acc := { s.acc with slots := tset s.acc.slots n a } }

/-- A slot changed. -/
def modAcc (s : State) (n : BitVec 12) (g : Accord → Accord) : State := setAcc s n (g (accOf s n))

/-- The handle of a slot (Table 5.1). -/
def accHandle (s : State) (n : BitVec 12) : Word := (devId s) ++ (accOf s n).gen ++ n

/-- The slot that a handle names, when it names a slot in use of this device (R220). -/
def accNamed (s : State) (h : Word) : Option (BitVec 12) :=
  let n : BitVec 12 := h.extractLsb' 0 12
  if h.extractLsb' 26 6 == devId s && h.extractLsb' 12 14 == (accOf s n).gen && decide ((accOf s n).state ≠ .free) then some n else none

/-- Member entries in use (Table 5.13). -/
def membersUsed (s : State) : Nat :=
  ((s.acc.slots.filter fun x => decide (x.2.state ≠ .free)).map fun x => x.2.members.length).sum

/-- The lowest free slot. -/
def freeAccSlot (s : State) : Option (BitVec 12) :=
  ((List.range 4096).map (BitVec.ofNat 12)).find? fun n => decide ((accOf s n).state = .free)

/-! ### The ACC_OPEN body (Table 5.2, R224) -/

def accOp (f : Req) : BitVec 4 := BitVec.ofNat 4 (bitsOf (leAt f.payload 16 1) 0 4)
def accEtype (f : Req) : Nat := bitsOf (leAt f.payload 17 1) 0 2
def accOnFail (f : Req) : Bool := (byteAt f.payload 17).getLsbD 4
def accMembers (f : Req) : Nat := bitsOf (leAt f.payload 18 2) 0 11
def accElemBytes (f : Req) : Nat := bitsOf (leAt f.payload 20 8) 0 37
def accStall (f : Req) : Nat := if leAt f.payload 28 2 = 0 then 400 else leAt f.payload 28 2
def accIdle (f : Req) : Nat := if leAt f.payload 30 2 = 0 then 1000 else leAt f.payload 30 2
def accParent (f : Req) : Word := BitVec.ofNat 32 (leAt f.payload 32 4)
def accParentMember (f : Req) : BitVec 10 := BitVec.ofNat 10 (bitsOf (leAt f.payload 36 2) 0 10)
/-- The member list. -/
def accList (f : Req) : List Ep := (List.range (accMembers f)).map fun i => BitVec.ofNat 12 (bitsOf (leAt f.payload (48 + 2 * i) 2) 0 12)

/-- Element bytes of one block of a reduction: 64 for raw bytes (R236, Table 5.5). -/
def accBlockBytes (etype : Nat) : Nat := if etype = 3 then 64 else blockElemBytes etype

/-- Element bytes that a RESULT descriptor addresses. -/
def resultBytes (t : Tensor) : Nat := if t.etype = 3 then elemCount t else blockCount t * blockElemBytes t.etype

/-- An operation that suits an element type (Table 5.6). -/
def accOpOk (op : BitVec 4) (etype : Nat) : Bool :=
  if etype = 3 then [8, 9, 10, 11].contains op.toNat else decide (op.toNat ≤ 2)

/-- What R224 refuses of an ACC_OPEN. -/
def accOpenBad (f : Req) : Bool :=
  let m := accMembers f
  let listEnd := 48 + 2 * m
  let padded := accResultAt f
  let want := if accDeliver f = 0 then padded else padded + 96
  let t := tensorAt f.payload padded
  bitsOf (leAt f.payload 16 1) 4 4 != 0 || bitsOf (leAt f.payload 17 1) 5 3 != 0 || bitsOf (leAt f.payload 18 2) 11 5 != 0 ||
    bitsOf (leAt f.payload 20 8) 37 27 != 0 || bitsOf (leAt f.payload 36 2) 10 6 != 0 || !zerosAt f.payload 38 10 ||
    accDeliver f == 3 || !accOpOk (accOp f) (accEtype f) || m == 0 || decide (1024 < m) ||
    (List.range m).any (fun i => bitsOf (leAt f.payload (48 + 2 * i) 2) 12 4 != 0) || !zerosAt f.payload listEnd (padded - listEnd) ||
    (accList f).eraseDups.length != m || accElemBytes f == 0 || accElemBytes f % accBlockBytes (accEtype f) != 0 ||
    decide (2 ^ 36 < accElemBytes f) || (accParent f == 0 && accParentMember f != 0) || 16 * f.len.toNat != want ||
    (accDeliver f != 0 && (!tensorOk f.payload padded || t.etype != accEtype f || t.zskip || resultBytes t != accElemBytes f))

/-! ### Allotment (R225, R226) -/

/-- The port through which a member's frames of a class enter this device: its own, or the trunk at the end of their route. -/
def entryPort (s : State) (c : Cls) (e : Ep) : Option Port :=
  match epEntry s e with
  | some x => if x.dev == devId s then some x.at_ else ((pathHere s e (ownEp s) c).getLast?).map fun r => .lane r.2
  | none => none

/-- The lanes of an entry port. -/
def portLanes (s : State) : Port → Nat
  | .lane p => (portOf s p).width.toNat
  | .host => 4
  | .own => 0

/-- The entry ports of some members: an endpoint port for each member behind it, a trunk once. -/
def memberPorts (s : State) (c : Cls) (es : List Ep) : List Port :=
  es.foldl (fun l e =>
    match entryPort s c e with
    | some (.lane p) => if isTrunk s p && l.contains (.lane p) then l else l ++ [.lane p]
    | some o => l ++ [o]
    | none => l) []

/-- L of R225. -/
def memberLanes (s : State) (c : Cls) (es : List Ep) : Nat := ((memberPorts s c es).map (portLanes s)).sum

/-- T as asked for (R225). -/
def accWant (s : State) (f : Req) : Nat :=
  min (maxTiles s) (max 1 (if hdrTiles f != 0 then hdrTiles f else ceilDiv (memberLanes s f.cls (accList f) * 125) 192))

/-- Member lanes whose ports lie in a quadrant. -/
def quadLanes (s : State) (c : Cls) (es : List Ep) (q : Quad) : Nat :=
  (((memberPorts s c es).filter fun p => portQuad p == q).map (portLanes s)).sum

/-- The tile allotted next: in the quadrant with the most member lanes, the fewest queued, the lowest index (R202, R225). -/
def accTile (s : State) (r : EngReq) : Option TileNo :=
  let lanes := quadLanes s r.f.cls (accList r.f)
  let top := ([0, 1, 2, 3] : List Quad).map lanes |>.foldl max 0
  leastBy (fun t => (top - lanes (tileQuad t)) * 32 + (tileOf s t).queue.length)
    (allTiles.filter fun t => (reqQuads r.f).contains (tileQuad t) && tileFree s t && !r.tiles.contains t)

/-- Accumulator bytes of a full segment: A of R226. -/
def accSegBytes (etype : Nat) : Nat :=
  if etype = 3 then 65536 else 65536 / blockElemBytes etype * 32 * 4 + 65536 / blockElemBytes etype

/-- The segment window W (R226). -/
def accWindow (s : State) (t etype : Nat) : Nat := min 64 (max 1 (t * max 1 s.acc.units.toNat * 65536 / accSegBytes etype))

/-- An accord opened on its tiles: a root completes, a child asks its parent (R227, R228, R251). -/
def openAccord (s : State) (r : EngReq) : State :=
  let f := r.f
  match freeAccSlot s with
  | none => endEng { s with acc := { s.acc with noslot := satInc 32 s.acc.noslot } } r .noSlot []
  | some n =>
    if 262144 < membersUsed s + accMembers f then endEng { s with acc := { s.acc with noslot := satInc 32 s.acc.noslot } } r .noSlot []
    else
      let root := accParent f == 0
      let now := s.counter
      let mem : List MemberRec := (accList f).map fun e =>
        ⟨e, none, 0, 0, 0, false, false, 0, 0, none, none⟩
      let a : Accord :=
        { state := .idle, gen := (accOf s n).gen, opener := f.src, openTag := f.tag, tenant := f.tenant, cls := f.cls,
          epoch := f.epoch, quad := r.quad, op := accOp f, etype := BitVec.ofNat 2 (accEtype f), deliver := BitVec.ofNat 2 (accDeliver f),
          onFail := accOnFail f, elemBytes := accElemBytes f, stallUs := accStall f, idleMs := accIdle f, parent := accParent f,
          parentMember := accParentMember f, bound := root, bindAt := now, depth := 1,
          result := if accDeliver f = 0 then none else some (tensorAt f.payload (accResultAt f)), keyGen := r.gen,
          tiles := r.tiles.insertionSort (· ≤ ·), allotted := r.tiles.length, window := accWindow s r.tiles.length (accEtype f),
          nextRound := 0, members := mem, roundAt := 0, b := 0, stripes := [], sat := 0, upWait := [], upSent := false,
          writes := [], idleSince := now, no := r.no }
      let s := setAcc s n a
      if root then endEng s r .ok (engRecord a.allotted 0 (leBytes (accHandle s n).toNat 4))
      else
        let b : Binding := { parent := a.parent, member := a.parentMember, child := accHandle s n, op := a.op, etype := a.etype,
                             elemBytes := a.elemBytes }
        notify (setEng s { r with started := true }) ((accParent f).extractLsb' 26 6) (.binding b)

/-- ACC_OPEN at the dispatcher of a quadrant (R199, R200, R224, R227). -/
def accOpenAccept (s : State) (q : Quad) (f : Req) : State :=
  let f' := { f with dlx := false }
  if accOpenBad f || f.dlx || isRemoving s f.tenant then completeAt s f .denied []
  else if !fnsOn s f' then completeAt s f .funcOff []
  else if (freeAccSlot s).isNone || decide (262144 < membersUsed s + accMembers f) then
    completeAt { s with acc := { s.acc with noslot := satInc 32 s.acc.noslot } } f .noSlot []
  else engAccept s q f

/-- The tiles of an ACC_OPEN allotted one by one; with the last the accord opens (R225). -/
def placeAcc (s : State) (r : EngReq) : Option State :=
  if waitsOrdered s r || (openTiles s (reqQuads r.f)).isEmpty then none
  else
    let n := max 1 (min (accWant s r.f) (openTiles s (reqQuads r.f)).length)
    let r := if r.portions.isEmpty then { r with portions := List.replicate n (newPortion []) } else r
    (accTile s r).map fun t =>
      let r := { r with portions := modAt r.portions r.tiles.length (fun p => { p with placed := true }), tiles := r.tiles ++ [t] }
      let s := noteFor (setEng s r) t r
      if unplaced r then s else openAccord s r

/-! ### Segments and stripes (R231, R236) -/

/-- Segments of a contribution: S. -/
def accSegs (a : Accord) : Nat := ceilDiv a.elemBytes 65536
/-- Element bytes of a segment. -/
def segElem (a : Accord) (k : Nat) : Nat := min 65536 (a.elemBytes - 65536 * k)
/-- Blocks of a segment. -/
def segBlocks (a : Accord) (k : Nat) : Nat := segElem a k / accBlockBytes a.etype.toNat
/-- LEN of a segment frame (Tables 5.4, 5.5). -/
def segLen (a : Accord) (k : Nat) : Nat := segElem a k / 16 + if a.etype = 3 then 0 else ceilDiv (segBlocks a k) 16
/-- Blocks of a stripe: N (R236). -/
def stripeBlocks (a : Accord) : Nat :=
  let eb := accBlockBytes a.etype.toNat
  (((List.range 13).reverse.map fun k => 2 ^ k).find? fun n =>
    decide (n ≤ 65536 / eb) && decide (a.members.length * n * eb ≤ 32768)).getD 1
/-- Stripes of a full segment: P. -/
def stripesPer (a : Accord) : Nat := 65536 / accBlockBytes a.etype.toNat / stripeBlocks a
/-- Stripes that a segment fills. -/
def segStripes (a : Accord) (k : Nat) : Nat := ceilDiv (segBlocks a k) (stripeBlocks a)
/-- The tile of a stripe, among the allotted tiles that are open and not marked for gating (R204, R236, R242). DESIGN CHOICE (log entry
24): a gated tile that is opened again takes stripes again; where no allotted tile is open it is tile 0. -/
def stripeTile (s : State) (a : Accord) (k j : Nat) : TileNo :=
  let live := a.tiles.filter fun t => tileOpen s t && !(tileOf s t).marked
  live.getD ((k * stripesPer a + j) % max 1 live.length) 0

/-- The blocks of one member's slice of a stripe, from a segment's payload. -/
def sliceSibs (a : Accord) (bs : List Byte) (k first n : Nat) : List Sib :=
  let eb := accBlockBytes a.etype.toNat
  (List.range n).map fun i => sibOf a.etype.toNat (slice bs ((first + i) * eb) eb) (byteAt bs (segElem a k + first + i))

/-- A member's slice combined into its stripe in the order of arrival (R237 to R239); the first sets the stripe. -/
def addSlice (a : Accord) (x : Stripe) (m : Nat) (bs : List Byte) : Stripe × Nat :=
  let first := x.stripe * stripeBlocks a
  let n := min (stripeBlocks a) (segBlocks a x.seg - first)
  if a.etype = 3 then
    let raw := slice bs (first * 64) (n * 64)
    ({ x with arrived := x.arrived ++ [m], raw := if x.raw.isEmpty then raw else rawAdd a.op x.raw raw }, 0)
  else
    let old : List AccBlk := (List.range n).map fun i => ⟨x.lanes.getD i [], x.exps.getD i none, 0⟩
    let new := List.zipWith (accAdd a.op) old (sliceSibs a bs x.seg first n)
    ({ x with arrived := x.arrived ++ [m], lanes := new.map (·.lanes), exps := new.map (·.exp) }, (new.map (·.sat)).sum)

/-- A member's segment added to every stripe of it. -/
def addSegment (s : State) (a : Accord) (m k : Nat) (bs : List Byte) : Accord :=
  (List.range (segStripes a k)).foldl (fun a j =>
    let x := (a.stripes.find? fun x => x.seg == k && x.stripe == j).getD
      { seg := k, stripe := j, tile := stripeTile s a k j, arrived := [], lanes := [], exps := [], raw := [], done := false }
    let r := addSlice a x m bs
    { a with stripes := (a.stripes.filter fun y => !(y.seg == k && y.stripe == j)) ++ [r.1], sat := a.sat + r.2 }) a

/-- A stripe's result blocks or raw bytes, and the lanes its requantization clamps (R187, R237, R239); one that no slice reached is
read out empty (R183). -/
def stripeResult (a : Accord) (k j : Nat) : List Sib × List Byte × Nat :=
  let n := min (stripeBlocks a) (segBlocks a k - j * stripeBlocks a)
  match a.stripes.find? fun x => x.seg == k && x.stripe == j && !x.arrived.isEmpty with
  | none => if a.etype = 3 then ([], List.replicate (64 * n) 0, 0) else (List.replicate n Sib.zero, [], 0)
  | some x =>
    if a.etype = 3 then ([], x.raw, 0)
    else
      let rs := List.zipWith (requant a.etype.toNat) x.lanes x.exps
      (rs.map (·.1), [], (rs.map (·.2)).sum)

/-- A result segment: its payload, its blocks and the clamped lanes (R231, R241). -/
def segResult (a : Accord) (k : Nat) : List Byte × List Sib × Nat :=
  let xs := (List.range (segStripes a k)).map (stripeResult a k)
  let sibs := xs.flatMap (·.1)
  let elems := if a.etype = 3 then xs.flatMap (·.2.1) else (sibs.map fun b => packElems a.etype.toNat b.es).flatten
  (slice (elems ++ sibs.map fun b => expByte b.exp) 0 (16 * segLen a k), sibs, (xs.map (·.2.2)).sum)

/-- The blocks of a result payload as received (R252). -/
def payloadSibs (a : Accord) (k : Nat) (bs : List Byte) : List Sib := if a.etype = 3 then [] else sliceSibs a bs k 0 (segBlocks a k)

/-! ### Completing members (R246 to R248) -/

/-- A request that stands for a member's start. -/
def startReq (a : Accord) (m : MemberRec) (tag : Tag) (ownE : Ep) : Req :=
  { blankReq with opcode := Op.accContrib, src := m.ep, dst := ownE, tag := tag, cls := m.cls, tenant := a.tenant }

/-- A member still in the round: its start accepted and not completed. -/
def inRound (m : MemberRec) : Bool := m.startTag.isSome && !m.done && !m.failed

/-- A member's start completed with a status and data. -/
def answerStart (s : State) (a : Accord) (m : MemberRec) (st : Status) (data : List Byte) : State :=
  match m.startTag with
  | some tag => if m.done then s else completeAt s (startReq a m tag (ownEp s)) st data
  | none => s

/-- A member changed. -/
def modMember (s : State) (n : BitVec 12) (i : Nat) (g : MemberRec → MemberRec) : State :=
  modAcc s n fun a => { a with members := modAt a.members i g }

/-- A member as a new round finds it. -/
def freshMember (m : MemberRec) : MemberRec :=
  { m with startTag := none, startNo := 0, expected := 0, failed := false, done := false, last := 0, report := none }

/-- The tag of a child's start at its parent. -/
def upTag (n : BitVec 12) : Tag := n.setWidth 16

/-- The accord idle again, its next round one further (Table 5.9 step 8, R258); the window of its start at its parent is gone. -/
def idleAcc (s : State) (n : BitVec 12) : State :=
  let now := s.counter
  endDrains (modAcc (dropWin s (ownEp s) (upTag n)) n fun a =>
    { a with state := .idle, nextRound := a.nextRound + 1, members := a.members.map freshMember, b := 0, stripes := [], sat := 0,
             upWait := [], upSent := false, writes := [], idleSince := now })

/-- The accords of the tree next to this one told that a round ended with ABORTED (R254). -/
def tellTree (s : State) (a : Accord) (round : BitVec 16) : State :=
  let up := if a.parent = 0 then [] else [Out.notice (a.parent.extractLsb' 26 6) (.accAbort a.parent round)]
  let down := a.members.filterMap fun m => m.child.map fun h => Out.notice (h.extractLsb' 26 6) (.accAbort h round)
  emits s (up ++ down)

/-- A round ended early: every member still in it completes with a status; ABORTED reaches the whole tree (R245, R248, R250,
R254). -/
def endRound (s : State) (n : BitVec 12) (st : Status) : State :=
  let a := accOf s n
  if a.state ≠ .active then s
  else
    let s := (a.members.filter inRound).foldl (fun s m => answerStart s a m st []) s
    let s := if st = .aborted then tellTree s a a.nextRound else s
    idleAcc (addSat s a.sat) n

/-- Failed members and their gap so far, with the children's reports folded in (R249, R253). -/
def foldReport (a : Accord) : Report :=
  let failed := a.members.filter (·.failed)
  let kids := a.members.filterMap fun m => if m.failed then none else m.report
  { firstGap := ((failed.map (·.expected)) ++ kids.map (·.firstGap)).foldl min 0xFFFFFFFF
    lost := failed.length + (kids.map (·.lost)).sum, sat := a.sat + (kids.map (·.sat)).sum }

/-- The data of a start's completion (Table 5.7). -/
def startRecord (a : Accord) (r : Report) : List Byte :=
  engRecord a.allotted r.sat (leBytes r.firstGap 4 ++ leBytes (min r.lost 65535) 2 ++ leBytes a.nextRound.toNat 2)

/-- A round ends with its final report: every member still in it completes with OK (R246, R253). DESIGN CHOICE (log entry 22): in a
child, TILES_USED of its members' records is the child's own T. -/
def finishRound (s : State) (n : BitVec 12) (r : Report) : State :=
  let a := accOf s n
  let s := (a.members.filter inRound).foldl (fun s m => answerStart s a m .ok (startRecord a r)) s
  idleAcc (addSat s a.sat) n

/-- Every result segment queued, every child's report in and every write of RESULT answered: a root ends its round, a child reports
to its parent (R245, R246, R253). -/
def tryFinish (s : State) (n : BitVec 12) : State :=
  let a := accOf s n
  let waiting := a.members.any fun m => m.child.isSome && !m.failed && !m.done && m.report.isNone
  if a.state ≠ .active || decide (a.b < accSegs a) || waiting || !a.writes.isEmpty then s
  else if a.parent = 0 then finishRound s n (foldReport a)
  else if a.upWait.isEmpty && !a.upSent then
    notify (modAcc s n fun a => { a with upSent := true }) (a.parent.extractLsb' 26 6)
      (.accReport a.parent a.parentMember a.nextRound (foldReport a))
  else s

/-! ### Results (R241 to R245, R252) -/

/-- A segment or ACC_RESULT frame (Table 5.4). -/
def accFrame (s : State) (a : Accord) (opcode : BitVec 8) (subop : BitVec 4) (dst : Ep) (tag : Tag) (cls : Cls) (k : Nat)
    (bs : List Byte) : Req :=
  { blankReq with opcode := opcode, subop := subop, src := ownEp s, dst := dst, tag := tag, cls := cls, tenant := a.tenant, epoch := a.epoch,
                  chk := true, addr := BitVec.ofNat 58 (65536 * k), len := BitVec.ofNat 13 (segLen a k), payload := bs }

/-- A result segment written once into the shared buffer, and its copies sent to every member still in the round (R243, R244). -/
def sendResult (s : State) (a : Accord) (k : Nat) (bs : List Byte) : State :=
  let ms := a.members.filter inRound
  if a.deliver = 2 then s
  else ms.foldl (fun s m => sendReq s .own (accFrame s a 0xF2 0 m.ep (m.startTag.getD 0) m.cls k bs) s.counter)
    (shareAnswer s (ms.map fun m => (m.ep, m.startTag.getD 0)))

/-- The writes of a result segment into the RESULT tensor (R243). -/
def resultWrites (a : Accord) (t : Tensor) (k : Nat) (bs : List Byte) : List (Nat × List Byte) :=
  if t.etype = 3 then
    (List.range (segElem a k)).map fun i =>
      let e := 65536 * k + i
      (rowAddr t (e / dimOf t 0) + e % dimOf t 0, [byteAt bs i])
  else (payloadSibs a k bs).zipIdx.flatMap fun (b, i) =>
    let e := k * (65536 / blockElemBytes t.etype) + i
    pieceWrite t ⟨e / rowUnits t, e % rowUnits t, 1⟩ [b]

/-- The request on whose behalf an accord writes memory (R190, R222). -/
def accWriter (s : State) (a : Accord) : EngReq :=
  { f := { blankReq with opcode := Op.accOpen, src := a.opener, dst := ownEp s, tag := a.openTag, tenant := a.tenant, epoch := a.epoch }
    quad := a.quad, no := a.no, at_ := 0, gen := a.keyGen, deadline := none, own := none, judged := true, asked := true, started := true,
    portions := [], tiles := [], alt := none, frames := [], closing := false, staged := [], sat := 0, countA := 0, countB := 0, passes := [],
    notice := 0 }

/-- A result segment written to the RESULT tensor; a refused write ends the round (R243, R245). -/
def writeResult (s : State) (n : BitVec 12) (k : Nat) (bs : List Byte) : State :=
  let a := accOf s n
  match a.result with
  | none => s
  | some t =>
    match engWrites s (accWriter s a) (resultWrites a t k bs) with
    | (s, w, none) => modAcc s n fun a => { a with writes := a.writes ++ w.frames }
    | (s, _, some st) => endRound s n st

/-- The accord whose RESULT a device frame writes. -/
def accWriting (s : State) (src : Ep) (tag : Tag) (a : Addr) : Option (BitVec 12 × FarFrame) :=
  s.acc.slots.findSome? fun x =>
    if decide (x.2.state = .active) && x.2.opener == src && x.2.openTag == tag then (frameAt x.2.writes a.toNat).map fun y => (x.1, y) else none

/-- The answer to a write of RESULT (R245): RETRY sends it again, another status than OK ends the round. -/
def accWritten (s : State) (n : BitVec 12) (x : FarFrame) (st : Status) : State :=
  if st = .ok then tryFinish (modAcc s n fun a => { a with writes := frameDone a.writes x.a }) n
  else if st = .retry then sendFar s (accWriter s (accOf s n)).f x
  else if farEnds st then endRound s n st
  else s

/-- A child's result segments that the parent's window allows go up (R235, R252). -/
def sendUp (s : State) (n : BitVec 12) : State :=
  let a := accOf s n
  let w := winOf s (ownEp s) (upTag n)
  let go := a.upWait.takeWhile fun x => decide (x.1 < w.1 + w.2)
  let dst := (ownEpOf s (a.parent.extractLsb' 26 6)).getD 0
  let s := modAcc s n fun a => { a with upWait := a.upWait.drop go.length }
  tryFinish (go.foldl (fun s x => sendReq s .own (accFrame s a Op.accContrib 1 dst (upTag n) a.cls x.1 x.2) s.counter) s) n

/-- Window notices to every member still in the round (R235). -/
def tellWindow (s : State) (n : BitVec 12) (ms : List MemberRec) : State :=
  let a := accOf s n
  let note : WinNote := { handle := accHandle s n, round := a.nextRound, b := a.b, w := a.window }
  ms.foldl (fun s m =>
    match epDev s m.ep, m.startTag with
    | some d, some tag => notify s d (.window m.ep tag note)
    | _, _ => s) s

/-- Whether the next segment's stripes are all complete. -/
def segReady (a : Accord) : Bool :=
  decide (a.b < accSegs a) && (List.range (segStripes a a.b)).all fun j => a.stripes.any fun x => x.seg == a.b && x.stripe == j && x.done

/-- Result segments queued in ascending order as their stripes complete (R241, R243, R252). -/
def queueResults : Nat → State → BitVec 12 → State
  | 0, s, _ => s
  | fuel + 1, s, n =>
    let a := accOf s n
    if a.state ≠ .active || !segReady a then tryFinish s n
    else
      let k := a.b
      let r := segResult a k
      let s := modAcc s n fun a =>
        { a with b := k + 1, sat := a.sat + r.2.2, stripes := a.stripes.filter fun x => x.seg != k }
      let s := if a.parent = 0 then writeResult (sendResult s a k r.1) n k r.1
        else sendUp (modAcc s n fun a => { a with upWait := a.upWait ++ [(k, r.1)] }) n
      if (accOf s n).state ≠ .active then s
      else queueResults fuel (tellWindow s n ((accOf s n).members.filter inRound)) n

/-- The queue of results advanced as far as it goes. -/
def advance (s : State) (n : BitVec 12) : State := queueResults (accSegs (accOf s n) + 1) s n

/-! ### Member failure (R247 to R249) -/

/-- A member fails: its start completes with a status, unless there is nothing to answer, and the round ends or goes on without it
(R247 to R249). -/
def failMember (s : State) (n : BitVec 12) (i : Nat) (st : Option Status) : State :=
  let a := accOf s n
  match a.members[i]? with
  | none => s
  | some m =>
    if a.state ≠ .active || m.failed || m.done then s
    else
      let s := match st with
        | some st => answerStart s a m st []
        | none => s
      let s := modMember s n i fun m => { m with failed := true }
      if a.onFail then advance s n else endRound s n .aborted

/-- A lost path to a member: one whose contribution is whole is answered and still counts, another fails (R244, Table 5.8). -/
def losePath (s : State) (n : BitVec 12) (i : Nat) : State :=
  let a := accOf s n
  match a.members[i]? with
  | none => s
  | some m =>
    if a.state = .active && inRound m && decide (accSegs a ≤ m.expected) then
      tryFinish (modMember (answerStart s a m .pathLost []) n i fun m => { m with done := true }) n
    else failMember s n i (some .pathLost)

/-- Every member that a test names loses its path, in every accord. -/
def losePaths (s : State) (hit : Ep → Bool) : State :=
  s.acc.slots.foldl (fun s x =>
    x.2.members.zipIdx.foldl (fun s m => if hit m.1.ep then losePath s x.1 m.2 else s) s) s

/-- ACC_STALL_TIMEOUT (Table 5.8): no start or segment frame within STALL_US while the contribution is incomplete. -/
def stallTimeout (s : State) (n : BitVec 12) (i : Nat) : State :=
  let a := accOf s n
  match a.members[i]? with
  | some m =>
    if a.state = .active && !m.failed && !m.done && decide (m.expected < accSegs a) && decide (max a.roundAt m.last + a.stallUs ≤ s.counter)
    then failMember s n i (some .pathLost) else s
  | none => s

/-! ### Starts and segments (R229 to R235) -/

/-- A child's start at its parent (R252). -/
def sendUpStart (s : State) (n : BitVec 12) : State :=
  let a := accOf s n
  let dst := (ownEpOf s (a.parent.extractLsb' 26 6)).getD 0
  let body := leBytes a.parent.toNat 4 ++ leBytes a.parentMember.toNat 2 ++ leBytes a.nextRound.toNat 2 ++ List.replicate 8 0
  let f : Req := { blankReq with opcode := Op.accContrib, src := ownEp s, dst := dst, tag := upTag n, cls := a.cls, tenant := a.tenant,
                                 epoch := a.epoch, chk := true, len := 2,
                                 payload := [0, 0, 0, 0, 0, 0] ++ leBytes 1 2 ++ List.replicate 8 0 ++ body }
  sendReq s .own f s.counter

/-- A start accepted (R230, R235). -/
def acceptStart (s : State) (n : BitVec 12) (i : Nat) (f : Req) : State :=
  let now := s.counter
  let no := s.eng.nextNo
  let s := { s with eng := { s.eng with nextNo := no + 1 } }
  let s := modMember s n i fun m => { m with startTag := some f.tag, startNo := no, cls := f.cls, last := now, notice := now }
  tellWindow s n (((accOf s n).members[i]?).toList)

/-- ACC_START at the owning sequencer (R220, R222, R230, R258). The start of a member that has already failed in the round is accepted
and completes with the status of its failure (R247). -/
def accStart (s : State) (f : Req) : State :=
  let h := BitVec.ofNat 32 (leAt f.payload 16 4)
  let i := bitsOf (leAt f.payload 20 2) 0 10
  let round : BitVec 16 := BitVec.ofNat 16 (leAt f.payload 22 2)
  let no : Status → State := fun st => completeAt s f st []
  match accNamed s h with
  | none => no .denied
  | some n =>
    let a := accOf s n
    match a.members[i]? with
    | none => no .denied
    | some m =>
      let reserved := bitsOf (leAt f.payload 20 2) 10 6 != 0 || !zerosAt f.payload 24 8 || hdrTiles f != 0 || hdrQmask f != 0 || hdrOrdered f
      if f.tenant != a.tenant || m.ep != f.src || reserved || !a.bound then no .denied
      else
        let begins := decide (a.state = .idle) && round == a.nextRound
        let joins := decide (a.state = .active) && round == a.nextRound && m.startTag.isNone
        let early := decide (a.state = .active) && round == a.nextRound + 1
        if !begins && !joins && !early then no .denied
        else if isRemoving s f.tenant then no .revoked
        else if !fnsOn s f then no .funcOff
        else if early then no .retry
        else if begins then
          let now := s.counter
          let s := modAcc s n fun a => { a with state := .active, roundAt := now, members := a.members.map freshMember }
          acceptStart (if a.parent = 0 then s else sendUpStart s n) n i f
        else if m.failed then completeAt (modMember s n i fun m => { m with startTag := some f.tag, done := true }) f .pathLost []
        else acceptStart s n i f

/-- The accord and member whose start a segment frame belongs to (R232). -/
def segmentOf (s : State) (f : Req) : Option (BitVec 12 × Nat × MemberRec) :=
  s.acc.slots.findSome? fun x =>
    if x.2.state ≠ .active then none
    else (x.2.members.zipIdx.find? fun m => m.1.ep == f.src && m.1.startTag == some f.tag && inRound m.1).map fun m => (x.1, m.2, m.1)

/-- A segment frame discarded (R234). -/
def strayFrame (s : State) : State := { s with acc := { s.acc with stray := satInc 32 s.acc.stray } }

/-- ACC_SEGMENT (R234, R237, R247). -/
def accSegment (s : State) (f : Req) : State :=
  match segmentOf s f with
  | none => strayFrame s
  | some (n, i, m) =>
    let a := accOf s n
    let k := f.addr.toNat / 65536
    if decide (accSegs a ≤ m.expected) || decide (k < m.expected) then strayFrame s
    else if m.expected < k then failMember s n i (some .pathLost)
    else if f.len.toNat != segLen a k then failMember s n i (some .denied)
    else
      let now := s.counter
      let s := setAcc s n (addSegment s a i k f.payload)
      modMember s n i fun m => { m with expected := k + 1, last := now }

/-- ACC_STRIPE_COMPLETE (R237, R241): a stripe that every member's slice has reached, or whose missing members have failed,
completes. -/
def stripeComplete (s : State) (n : BitVec 12) (k j : Nat) : State :=
  let a := accOf s n
  let here : Stripe → Bool := fun x => x.seg == k && x.stripe == j
  let all : Stripe → Bool := fun x => a.members.zipIdx.all fun m => m.1.failed || x.arrived.contains m.2
  if a.state ≠ .active || decide (accSegs a ≤ k) || decide (segStripes a k ≤ j) || decide (k < a.b) then s
  else match a.stripes.find? here with
    | some x => if all x then advance (modAcc s n fun a => { a with stripes := modWhere a.stripes here fun x => { x with done := true } }) n else s
    | none =>
      if a.members.all (·.failed) then
        let x : Stripe := { seg := k, stripe := j, tile := stripeTile s a k j, arrived := [], lanes := [], exps := [], raw := [], done := true }
        advance (modAcc s n fun a => { a with stripes := a.stripes ++ [x] }) n
      else s

/-- A window notice for the start that it names: a member's outstanding start of this ingress, or a child's start at its parent in
the round in progress (R235). -/
def windowFits (s : State) (member : Ep) (tag : Tag) (w : WinNote) : Bool :=
  if member == ownEp s then
    let a := accOf s (tag.setWidth 12)
    decide (a.state = .active) && a.parent == w.handle && a.nextRound == w.round
  else match trackOf s member tag with
    | some t => t.f.opcode == Op.accContrib && t.f.subop == 0 && leAt t.f.payload 16 4 == w.handle.toNat &&
        leAt t.f.payload 22 2 == w.round.toNat
    | none => false

/-- ACC_WINDOW_NOTICE at a member's ingress device (R235): held frames may go. -/
def windowNotice (s : State) (member : Ep) (tag : Tag) (w : WinNote) : State :=
  if !windowFits s member tag w then s
  else
    let s := { s with acc := { s.acc with wins := tset s.acc.wins (member, tag) w } }
    if member == ownEp s then sendUp s (tag.setWidth 12)
    else match localAt s member with
      | some p => bufferRelease s p
      | none => s

/-! ### Trees (R251 to R254) -/

/-- ACC_BINDING_NOTICE at the parent's device (R251). DESIGN CHOICE (log entry 23): the index of a child that has closed stays bound for
the parent's life. -/
def bindingNotice (s : State) (d : DevId) (b : Binding) : State :=
  let no := notify s d (.bindAnswer b.child false 0)
  match accNamed s b.parent with
  | none => no
  | some n =>
    let a := accOf s n
    match a.members[b.member.toNat]? with
    | none => no
    | some m =>
      if some m.ep == ownEpOf s d && a.op == b.op && a.etype == b.etype && a.elemBytes == b.elemBytes && decide (a.depth ≤ 3) &&
          m.child.isNone && a.bound then
        notify (modMember s n b.member.toNat fun m => { m with child := some b.child }) d (.bindAnswer b.child true a.depth)
      else no

/-- The ACC_OPEN that an accord answers. -/
def openReq (s : State) (a : Accord) : Req :=
  { blankReq with opcode := Op.accOpen, src := a.opener, dst := ownEp s, tag := a.openTag, cls := a.cls, tenant := a.tenant }

/-- The slot freed: its generation advances, from 16,383 to 1 (R220, R256). -/
def freeAcc (s : State) (n : BitVec 12) : State :=
  let g := (accOf s n).gen
  setAcc s n { Accord.blank with gen := if g = 16383 then 1 else g + 1 }

/-- An accord's ACC_OPEN answered (R228, R251). -/
def answerOpen (s : State) (a : Accord) (st : Status) (data : List Byte) : State :=
  match s.eng.reqs.find? fun r => r.f.src == a.opener && r.f.tag == a.openTag && r.f.opcode == Op.accOpen && r.started with
  | some r => endEng s r st data
  | none => completeAt s (openReq s a) st data

/-- ACC_BINDING_ANSWER (R251). -/
def bindingAnswer (s : State) (n : BitVec 12) (ok : Bool) (depth : Nat) : State :=
  let a := accOf s n
  if a.state = .free || a.bound then s
  else if ok then
    answerOpen (modAcc s n fun a => { a with bound := true, depth := depth + 1 }) a .ok
      (engRecord a.allotted 0 (leBytes (accHandle s n).toNat 4))
  else answerOpen (freeAcc s n) a .denied []

/-- ACC_BINDING_TIMEOUT (R251): unanswered within 800 µs. -/
def bindingTimeout (s : State) (n : BitVec 12) : State :=
  let a := accOf s n
  if a.state ≠ .free && !a.bound && decide (a.bindAt + 800 ≤ s.counter) then answerOpen (freeAcc s n) a .pathLost [] else s

/-- ACC_RESULT at a child (R252): passed on to its members, and written to its RESULT tensor. -/
def accResult (s : State) (f : Req) : State :=
  let n : BitVec 12 := f.tag.setWidth 12
  let a := accOf s n
  let k := f.addr.toNat / 65536
  if a.state ≠ .active || a.parent = 0 || some f.src != ownEpOf s (a.parent.extractLsb' 26 6) then s
  else writeResult (sendResult s a k f.payload) n k f.payload

/-- ACC_REPORT at the parent (R253). -/
def accReport (s : State) (h : Word) (i : Nat) (round : BitVec 16) (r : Report) : State :=
  match accNamed s h with
  | some n =>
    if (accOf s n).state = .active && (accOf s n).nextRound == round then
      tryFinish (modMember s n i fun m => { m with report := some r }) n
    else s
  | none => s

/-- ACC_ABORT_NOTICE (R254): the round ends here too; an accord in which it has not begun goes to the round after it (R258). -/
def abortNotice (s : State) (h : Word) (round : BitVec 16) : State :=
  match accNamed s h with
  | some n =>
    let a := accOf s n
    if a.nextRound != round then s
    else if a.state = .active then endRound s n .aborted
    else tellTree (modAcc s n fun a => { a with nextRound := a.nextRound + 1 }) a round
  | none => s

/-- The parent's answer to a child's start: the child's members complete with the record it received, or with its status
(R253, R254). -/
def upAnswer (s : State) (c : Cpl) : State :=
  let n : BitVec 12 := c.tag.setWidth 12
  let a := accOf s n
  if a.state ≠ .active || a.parent = 0 then s
  else match statusOf c.status with
    | .ok => finishRound s n { firstGap := leAt c.data 8 4, lost := leAt c.data 12 2, sat := leAt c.data 4 4 }
    | st => endRound s n st

/-- A child that loses its parent completes its members with PATH_LOST; a parent that loses a child fails it (R254). -/
def accDeviceLost (s : State) (d : DevId) : State :=
  let s := s.acc.slots.foldl (fun s x =>
    if x.2.parent != 0 && x.2.parent.extractLsb' 26 6 == d then endRound s x.1 .pathLost else s) s
  let kids := s.acc.slots.flatMap fun x => (x.2.members.zipIdx.filter fun m => m.1.child.isSome && epDev s m.1.ep == some d).map fun m => (x.1, m.2)
  losePaths (kids.foldl (fun s x => failMember s x.1 x.2 none) s) fun e => epDev s e == some d

/-! ### Closing (R256, R257) -/

/-- An accord closed: a round in progress ends with ABORTED, and its slot, tiles and entries are free. -/
def closeAcc (s : State) (n : BitVec 12) : State := freeAcc (endRound s n .aborted) n

/-- ACC_CLOSE (R220, R222, R256). -/
def accClose (s : State) (f : Req) : State :=
  match accNamed s (BitVec.ofNat 32 (leAt f.payload 16 4)) with
  | none => completeAt s f .denied []
  | some n =>
    let a := accOf s n
    if f.src != a.opener || f.tenant != a.tenant || !zerosAt f.payload 20 12 || hdrTiles f != 0 || hdrQmask f != 0 || hdrOrdered f then
      completeAt s f .denied []
    else completeAt (closeAcc s n) f .ok (engRecord a.allotted 0 [])

/-- ACC_IDLE_TIMEOUT (R257). -/
def accIdleTimeout (s : State) (n : BitVec 12) : State :=
  let a := accOf s n
  if a.state = .idle && a.bound && decide (a.idleSince + 1000 * a.idleMs ≤ s.counter) then freeAcc s n else s

/-! ### A tile lost (R242, R250) -/

/-- Rounds with an incomplete stripe on a failed tile end with POISON; the tile leaves every accord. -/
def accTileFail (s : State) (t : TileNo) : State :=
  let s := s.acc.slots.foldl (fun s x =>
    if x.2.stripes.any fun y => y.tile == t && !y.done then endRound s x.1 .poison else s) s
  { s with acc := { s.acc with slots := tmap s.acc.slots fun _ a => { a with tiles := a.tiles.filter fun u => u != t } } }

/-- PROGRESS_NOTICE_SEND for a member's start (R194). -/
def progressStart (s : State) (src : Ep) (tag : Tag) : State :=
  match s.acc.slots.findSome? fun x =>
    (x.2.members.zipIdx.find? fun m => m.1.ep == src && m.1.startTag == some tag && inRound m.1).map fun m => (x.1, m.2, m.1) with
  | some (n, i, m) =>
    if m.notice + 200 ≤ s.counter then
      match epDev s src with
      | some d => notify (modMember s n i fun m => { m with notice := s.counter }) d (.progress src tag)
      | none => s
    else s
  | none => s

end Sys2Proof.Machine
end

