-- ==== Sys2Proof/Machine/Comps.lean ====
section
/-! DEFINITION. Leases (R445 to R452), staging (R458, R459), compositions and their epoch changes (R453 to R469), and lost
pool members and devices (R466 to R468). -/

namespace Sys2Proof.Machine

/-! ### Leases -/

/-- A lease entry. -/
def leaseOf (s : State) (n : BitVec 16) : Lease := tgetD s.lse.leases n Lease.blank

/-- A lease entry changed. -/
def modLease (s : State) (n : BitVec 16) (f : Lease → Lease) : State :=
  { s with lse := { s.lse with leases := tset s.lse.leases n (f (leaseOf s n)) } }

/-- The lease ID of an entry (Table 11.1). -/
def leaseId (s : State) (n : BitVec 16) : Word := devId s ++ (leaseOf s n).gen ++ n

/-- The entry that a lease ID names (Table 11.1). -/
def leaseNamed (s : State) (id : Word) : Option (BitVec 16) :=
  let n : BitVec 16 := id.extractLsb' 0 16
  if id == leaseId s n && decide ((leaseOf s n).state ≠ .free) then some n else none

/-- STATE as Table 11.2 numbers it. -/
def leaseCode : LeaseState → Nat
  | .free => 0 | .reserved => 1 | .active => 2 | .expired => 3 | .lost => 4 | .scrubbing => 5

/-- A lease entry's 32 bytes (Table 11.2). -/
def leaseBytes (s : State) (n : BitVec 16) : List Byte :=
  let l := leaseOf s n
  leBytes (leaseId s n).toNat 4 ++ leBytes l.comp.toNat 2 ++ leBytes l.target.toNat 2 ++ leBytes l.base 8 ++ leBytes l.limit 8 ++
    [BitVec.ofNat 8 (leaseCode l.state + 8 * bit l.inPrev + 16 * bit l.inCur + 32 * bit l.leave), 0] ++ leBytes l.termMs 2 ++
    leBytes ((l.expiry - s.counter) / 1000) 4

/-- The bytes of a source's LSE_CMD_DATA registers. -/
def lseBytes (p : Priv) : List Byte := (List.range 8).flatMap fun k => leBytes (tgetD p.lseData (BitVec.ofNat 3 k) 0).toNat 4

/-- Bytes put into a source's LSE_CMD_DATA registers from the first. -/
def putLseData (s : State) (w : Who) (bs : List Byte) : State :=
  modPriv s w fun p => { p with lseData := (List.range (bs.length / 4)).foldl (fun d k =>
    tset d (BitVec.ofNat 3 k) (BitVec.ofNat 32 (leAt bs (4 * k) 4))) p.lseData }

/-- An offer lease of the ownership table (R475): it names this device's own functions and no range. -/
def offerLease (s : State) (l : Lease) : Bool := l.target == ownEp s && l.base == 0 && l.limit == 0

/-- A lease whose range overlaps another's. -/
def leaseMeets (e : Ep) (base limit : Nat) (l : Lease) : Bool :=
  l.target == e && decide (l.state ≠ .free) && decide (l.base ≤ limit) && decide (base ≤ l.limit)

/-- The lowest free lease entry (R446). -/
def freeLease (s : State) : Option (BitVec 16) :=
  let used := s.lse.leases.filter fun x => decide (x.2.state ≠ .free)
  if 65536 ≤ used.length then none
  else ((List.range (used.length + 1)).map (BitVec.ofNat 16)).find? fun n => decide ((leaseOf s n).state = .free)

/-- A new lease in an entry: its generation advances (Table 11.1). -/
def newLease (s : State) (n : BitVec 16) (c : CompId) (e : Ep) (base limit term : Nat) (st : LeaseState) : State :=
  let now := s.counter
  modLease s n fun l =>
    { gen := if l.gen = 1023 then 1 else l.gen + 1, comp := c, target := e, base := base, limit := limit, state := st,
      inPrev := false, inCur := false, leave := false, cut := false, termMs := term, expiry := now + 1000 * term, saved := none }

/-- A lease freed (R452): from LOST at once, otherwise through SCRUBBING; an offer lease names no range to scrub. -/
def freeLeaseEntry (s : State) (n : BitVec 16) : State :=
  let l := leaseOf s n
  if l.state = .lost || offerLease s l then modLease s n fun l => { Lease.blank with gen := l.gen }
  else
    emit (modLease s n fun l => { l with state := .scrubbing, inPrev := false, inCur := false, leave := false, cut := false, saved := none })
      (.zeroRange l.target (BitVec.ofNat 58 l.base) ((l.limit - l.base) / 4096 + 1))

/-- Leases of a composition, offers apart. -/
def leasesOf (s : State) (c : CompId) : List (BitVec 16 × Lease) :=
  s.lse.leases.filter fun x => x.2.comp == c && decide (x.2.state ≠ .free) && !offerLease s x.2

/-- Every lease of a composition changed, offers and entries being scrubbed apart. -/
def mapLeases (s : State) (c : CompId) (f : Lease → Lease) : State :=
  let hit : Lease → Bool := fun l =>
    l.comp == c && decide (l.state ≠ .free) && decide (l.state ≠ .scrubbing) && !offerLease s l
  { s with lse := { s.lse with leases := tmap s.lse.leases fun _ l => if hit l then f l else l } }

/-- GRANT (R446, R448). -/
def grantCmd (s : State) (w : Who) : State × Option Status :=
  let d := lseBytes (privOf s w)
  let c : CompId := BitVec.ofNat 10 (leAt d 4 2)
  let e : Ep := BitVec.ofNat 12 (leAt d 6 2)
  let base := leAt d 8 8
  let limit := leAt d 16 8
  let term := leAt d 26 2
  let st := (compRec s c).state
  let inPool := s.lse.pool.any fun x => x.ep == e && decide (x.base.toNat ≤ base) && decide (limit + 4095 ≤ x.limit.toNat)
  if !zerosAt d 0 4 || !zerosAt d 24 2 || !zerosAt d 28 4 || 1024 ≤ leAt d 4 2 || 4096 ≤ leAt d 6 2 || base % 4096 != 0 ||
      limit % 4096 != 0 || (st ≠ .up && st ≠ .changing) || !inPool || limit < base || term == 0 then (s, some .denied)
  else
    let met := s.lse.leases.filter fun x => leaseMeets e base limit x.2
    if met.any fun x => decide (x.2.state ≠ .scrubbing) then (s, some .denied)
    else match freeLease s with
      | none => (s, some .noSlot)
      | some n =>
        if !met.isEmpty then (s, some .busyRetry)
        else
          let s := newLease s n c e base limit term .reserved
          (putLseData s w (leBytes (leaseId s n).toNat 4), some .ok)

/-- The entry that a command's data name in bytes 0 to 3. -/
def cmdLease (s : State) (w : Who) : Option (BitVec 16) := leaseNamed s (BitVec.ofNat 32 (leAt (lseBytes (privOf s w)) 0 4))

/-- RENEW (R449). -/
def renewCmd (s : State) (w : Who) : State × Option Status :=
  let term := leAt (lseBytes (privOf s w)) 26 2
  match cmdLease s w with
  | none => (s, some .denied)
  | some n =>
    let l := leaseOf s n
    if l.state = .expired || l.state = .scrubbing || decide (l.expiry ≤ s.counter) then (s, some .denied)
    else
      let t := if term = 0 then l.termMs else term
      (modLease s n fun l => { l with termMs := t, expiry := s.counter + 1000 * t }, some .ok)

/-- RELEASE (R451). -/
def releaseCmd (s : State) (w : Who) : State × Option Status :=
  match cmdLease s w with
  | none => (s, some .denied)
  | some n =>
    let l := leaseOf s n
    if (l.state = .reserved || l.state = .expired || l.state = .lost) && !l.inPrev then (freeLeaseEntry s n, some .ok)
    else (s, some .denied)

/-- QUERY_LEASE (R447). -/
def queryLeaseCmd (s : State) (w : Who) : State × Option Status :=
  match cmdLease s w with
  | none => (s, some .denied)
  | some n => (putLseData s w (leaseBytes s n), some .ok)

/-- LEASE_EXPIRE (R450). -/
def leaseExpire (s : State) (n : BitVec 16) : State :=
  let l := leaseOf s n
  if (l.state = .reserved || l.state = .active) && !offerLease s l && decide (l.expiry ≤ s.counter) then
    let s := modLease s n fun l => { l with state := .expired, inPrev := false, inCur := false }
    notify (raise s (report 11 (.addr (BitVec.ofNat 58 l.base)) locNone)) (compRec s l.comp).home (.leaseExpired l.comp (leaseId s n))
  else s

/-- LEASE_SCRUB_DONE (R452). -/
def leaseScrubDone (s : State) (n : BitVec 16) : State :=
  if (leaseOf s n).state = .scrubbing then modLease s n fun l => { Lease.blank with gen := l.gen } else s

/-! ### Staging (R458, R459) -/

/-- The window, port or lease a staged entry is for. -/
def stagedSame : Staged → Staged → Bool
  | .win _ p w _, .win _ p' w' _ => p == p' && w == w'
  | .port _ p _, .port _ p' _ => p == p'
  | .lease _ n _, .lease _ n' _ => n == n'
  | _, _ => false

/-- The composition of a staged entry. -/
def stagedComp : Staged → CompId
  | .win c _ _ _ => c
  | .port c _ _ => c
  | .lease c _ _ => c

/-- An entry staged; an earlier one for the same thing is replaced (R458). -/
def stage (s : State) (x : Staged) : State × Option Status :=
  let rest := s.lse.staged.filter fun y => !stagedSame x y
  if 4096 ≤ rest.length then (s, some .noSlot) else ({ s with lse := { s.lse with staged := rest ++ [x] } }, some .ok)

/-- An endpoint-facing port that a command's data name in byte 0. -/
def cmdPort (s : State) (d : List Byte) : Option PortNo :=
  let p : PortNo := byteAt d 0
  if isEndpointPort s p then some p else none

/-- STAGE_WIN (R458, R459). -/
def stageWinCmd (s : State) (w : Who) (c : CompId) : State × Option Status :=
  let d := lseBytes (privOf s w)
  let word : Nat → Word := fun k => BitVec.ofNat 32 (leAt d (4 + 4 * k) 4)
  match cmdPort s d with
  | some p =>
    let will := s.lse.staged.any fun x => decide (x = .port c p true)
    if c == 0 || !(portCompOf s (.lane p) == c || will) then (s, some .denied)
    else stage s (.win c p (byteAt d 1) (([0, 1, 2, 3, 4] : List (BitVec 3)).foldl (fun v k => winWrite v k (word k.toNat)) noWin))
  | none => (s, some .denied)

/-- STAGE_PORT (R458, R459). -/
def stagePortCmd (s : State) (w : Who) (c : CompId) : State × Option Status :=
  let d := lseBytes (privOf s w)
  let bind := (byteAt d 1).getLsbD 0
  match cmdPort s d with
  | some p =>
    let own := portCompOf s (.lane p)
    if c == 0 || (compRec s c).state = .free || (bind && own != 0 && own != c) then (s, some .denied)
    else stage s (.port c p bind)
  | none => (s, some .denied)

/-- STAGE_LEASE (R458, R459). -/
def stageLeaseCmd (s : State) (w : Who) (c : CompId) : State × Option Status :=
  let d := lseBytes (privOf s w)
  match cmdLease s w with
  | some n =>
    let l := leaseOf s n
    if l.comp != c || l.state = .scrubbing || offerLease s l then (s, some .denied)
    else
      let cut := (byteAt d 4).getLsbD 0
      match stage s (.lease c n cut) with
      | (s, some .ok) => (modLease s n fun l => { l with leave := true, cut := cut }, some .ok)
      | r => r
  | none => (s, some .denied)

/-- STAGE_CLEAR (R458); a leave that a change has already taken (Table 11.3 step 3) stays with the change. -/
def stageClearCmd (s : State) (c : CompId) : State × Option Status :=
  let s := { s with lse := { s.lse with staged := s.lse.staged.filter fun x => stagedComp x != c } }
  (mapLeases s c fun l => if l.saved.isSome then l else { l with leave := false, cut := false }, some .ok)

/-! ### Rows of the composition table (R454) -/

/-- STATE as Table 11.14 numbers it. -/
def compCode : CompState → BitVec 2
  | .free => 0 | .up => 1 | .changing => 2 | .down => 3

/-- The state a number of Table 11.14 names. -/
def compStateOf (v : BitVec 2) : CompState :=
  if v = 0 then .free else if v = 1 then .up else if v = 2 then .changing else .down

/-- A composition's row as this device holds it. -/
def compRow (s : State) (c : CompId) : CompRow :=
  let r := compRec s c
  ⟨c, compCode r.state, r.home, r.epoch, r.reach⟩

/-- A row taken into this device's table; a free one is the reset entry. -/
def takeRow (s : State) (x : CompRow) : State :=
  if x.state = 0 then { s with lse := { s.lse with comps := tdel s.lse.comps x.comp } }
  else modComp s x.comp fun r => { r with state := compStateOf x.state, home := x.home, epoch := x.epoch, stamp := x.epoch, reach := x.reach }

/-- The other devices told of a change to a composition's row and to the endpoint map (R454). -/
def shareRow (s : State) (c : CompId) (binds : List (Ep × CompId)) : State :=
  emits s (((domainDevs s).filter fun d => d != devId s).map fun d => .notice d (.tables ⟨false, [compRow s c], binds, s.hp.hostDev⟩))

/-- The registrar's whole tables (R660). -/
def wholeTables (s : State) : SyncTable :=
  { full := true, comps := s.lse.comps.map fun x => compRow s x.1, eps := s.lse.epMap, holder := (s.hp.record).getD s.hp.hostDev }

/-- The change at the home of a composition. -/
def changeOf (s : State) (c : CompId) : Option Change := tget s.lse.changes c

/-- A change at its home altered. -/
def modChange (s : State) (c : CompId) (f : Change → Change) : State :=
  match changeOf s c with
  | some x => { s with lse := { s.lse with changes := tset s.lse.changes c (f x) } }
  | none => s

/-- A change at its home over. -/
def dropChange (s : State) (c : CompId) : State := { s with lse := { s.lse with changes := tdel s.lse.changes c } }

/-- One device's bit. -/
def devBit (d : DevId) : BitVec 64 := BitVec.ofNat 64 (2 ^ d.toNat)

/-- The devices of a set that have not been declared lost. -/
def notLost (s : State) (m : BitVec 64) : BitVec 64 := s.lse.lostDevs.foldl (fun m d => m &&& ~~~devBit d) m

/-! ### COMP_CREATE (R453) -/

/-- Whether the registrar can be reached. -/
def registrarReachable (s : State) : Bool :=
  isRegistrar s || match ownEpOf s (registrarOf s) with
    | some e => hasRoute s e
    | none => false

/-- The lowest free composition ID (R453). -/
def freeComp (s : State) : Option CompId :=
  ((List.range 1023).map fun k => BitVec.ofNat 10 (k + 1)).find? fun c => decide ((compRec s c).state = .free)

/-- A composition new at its home: UP, epoch 0, no ports, no leases, REACH 0 (R453). -/
def newComp (s : State) (home : DevId) (c : CompId) : State := modComp s c fun _ => { CompRec.blank with state := .up, home := home }

/-- The oldest COMP_CREATE of this device ends (R453). -/
def createDone (s : State) (granted : Option CompId) : State :=
  match s.lse.creating with
  | [] => s
  | w :: rest =>
    let s := { s with lse := { s.lse with creating := rest } }
    match granted with
    | none => finishCmd s w blkLse .noSlot
    | some c => finishCmd (putLseData (newComp s (devId s) c) w (leBytes c.toNat 4)) w blkLse .ok

/-- The registrar assigns an ID to a home and tells every device (R453, R454). -/
def assignComp (s : State) (home : DevId) : State :=
  match freeComp s with
  | none => if home = devId s then createDone s none else notify s home (.compIdGrant none)
  | some c =>
    let s := shareRow (newComp s home c) c []
    if home = devId s then createDone s (some c) else notify s home (.compIdGrant (some c))

/-- COMP_CREATE (R453): the registrar is asked; PATH_LOST when it cannot be reached. -/
def compCreateCmd (s : State) (w : Who) : State × Option Status :=
  if !registrarReachable s then (s, some .pathLost)
  else
    let s := { s with lse := { s.lse with creating := s.lse.creating ++ [w] } }
    (notify s (registrarOf s) .compIdAsk, none)

/-- COMP_ID_ASSIGN (R453): at the registrar a home's request, at the home the registrar's answer. -/
def compIdAssign (s : State) (home : DevId) (granted : Option CompId) : State :=
  if isRegistrar s then assignComp s home
  else if home = devId s then createDone s granted
  else s

/-! ### COMMIT and the change at its home (R460 to R462) -/

/-- The EPOCH that R460 compares: it advances at step 6. -/
def homeEpoch (s : State) (c : CompId) : Epoch :=
  match changeOf s c with
  | some x => if x.step < 6 then x.epoch - 1 else x.epoch
  | none => (compRec s c).epoch

/-- A change begun: STATE is CHANGING and PREPARE goes to every device named (Table 11.3 steps 1 and 2). -/
def beginChange (s : State) (w : Who) (c : CompId) (devices reach : BitVec 64) (destroy : Bool) : State :=
  let r := compRec s c
  let e := r.epoch + 1
  let x : Change := { w := w, devices := devices, reach := reach, epoch := e, prior := r.state, destroy := destroy, step := 2,
                      at_ := s.counter, firstSwitch := 0, ready := 0, switched := 0, drained := 0, binds := [], lost := false, holders := 0 }
  let s := modComp { s with lse := { s.lse with changes := tset s.lse.changes c x } } c fun r => { r with state := .changing }
  notifySet s devices (.prepare c e destroy)

/-- Whether a composition's home is this device. -/
def isHome (s : State) (c : CompId) : Bool := c != 0 && (compRec s c).home == devId s && decide ((compRec s c).state ≠ .free)

/-- Whether a composition has a port on a lost device, as this device's endpoint map says (R468). -/
def portLost (s : State) (c : CompId) : Bool :=
  s.lse.epMap.any fun x => x.2 == c && (epDev s x.1).any fun d => s.lse.lostDevs.contains d

/-- A COMMIT that names no device: every answer of Table 11.3 is in at once (R460, R461). -/
def emptyChange (s : State) (c : CompId) (reach : BitVec 64) : State :=
  let e := (compRec s c).epoch + 1
  let down := portLost s c
  shareRow (modComp s c fun r => { r with epoch := e, stamp := e, reach := reach, state := if down then .down else .up }) c []

/-- COMMIT (R460). -/
def commitCmd (s : State) (w : Who) (c : CompId) : State × Option Status :=
  let d := lseBytes (privOf s w)
  let e : Epoch := byteAt d 0
  if !isHome s c then (s, some .denied)
  else if e == homeEpoch s c then (s, some .ok)
  else if (changeOf s c).isSome then (s, some .busyRetry)
  else if e == homeEpoch s c + 1 then
    if leAt d 8 8 = 0 then (emptyChange s c (BitVec.ofNat 64 (leAt d 16 8)), some .ok)
    else (beginChange s w c (BitVec.ofNat 64 (leAt d 8 8)) (BitVec.ofNat 64 (leAt d 16 8)) false, none)
  else (s, some .denied)

/-- COMP_DESTROY (R469): every device that is not lost unbinds its ports and stages leaves of its leases. -/
def compDestroyCmd (s : State) (w : Who) (c : CompId) : State × Option Status :=
  if !isHome s c then (s, some .denied)
  else if (changeOf s c).isSome then (s, some .busyRetry)
  else
    let all := (domainDevs s).foldl (fun m d => m ||| devBit d) 0
    (beginChange s w c (notLost s all) 0 true, none)

/-- A set that holds every device still awaited. -/
def allAnswered (s : State) (want got : BitVec 64) : Bool := notLost s want &&& ~~~got == 0

/-- Step 6 of Table 11.3: the COMMIT completes; the composition is DOWN under R468, otherwise UP. -/
def changeDone (s : State) (c : CompId) (x : Change) : State :=
  let s := { s with lse := { s.lse with epMap := x.binds.foldl (fun m b => tset m b.1 b.2) s.lse.epMap } }
  let s := modComp s c fun r => { r with epoch := x.epoch, stamp := x.epoch, reach := x.reach, leaseDevs := x.holders }
  let down := x.lost || portLost s c
  let s := modComp s c fun r => { r with state := if down then .down else .up }
  let s := shareRow (modChange s c fun x => { x with step := 6 }) c x.binds
  finishCmd s x.w blkLse .ok

/-- Step 8 of Table 11.3: CLOSE goes out; a destroyed composition's ID becomes free. -/
def changeClose (s : State) (c : CompId) (x : Change) : State :=
  let s := notifySet (dropChange s c) x.devices (.close c)
  if x.destroy then shareRow { s with lse := { s.lse with comps := tdel s.lse.comps c } } c [] else s

/-- A change carried past the steps whose answers are all in. -/
def changeStep (s : State) (c : CompId) : State :=
  match changeOf s c with
  | none => s
  | some x =>
    if x.step = 2 then
      if x.devices &&& ~~~x.ready == 0 then
        let now := s.counter
        let s := modChange s c fun x => { x with step := 4, at_ := now, firstSwitch := now }
        notifySet s x.devices (.switch c x.epoch x.reach x.binds)
      else s
    else if x.step = 4 then (if allAnswered s x.devices x.switched then changeDone s c x else s)
    else if allAnswered s x.devices x.drained then changeClose s c x
    else s

/-- EPOCH_READY (Table 11.3 step 3). -/
def epochReady (s : State) (d : DevId) (c : CompId) (r : ReadyNote) : State :=
  match changeOf s c with
  | some x =>
    if x.step = 2 && !(x.ready &&& devBit d != 0) then
      changeStep (modChange s c fun x =>
        { x with ready := x.ready ||| devBit d, binds := x.binds ++ r.binds, lost := x.lost || r.lost,
                 holders := if r.holds then x.holders ||| devBit d else x.holders }) c
    else s
  | none => s

/-- EPOCH_SWITCHED (Table 11.3 steps 5 and 6). -/
def epochSwitched (s : State) (d : DevId) (c : CompId) : State :=
  match changeOf s c with
  | some x => if x.step = 4 then changeStep (modChange s c fun x => { x with switched := x.switched ||| devBit d }) c else s
  | none => s

/-- EPOCH_DRAINED (Table 11.3 steps 7 and 8). -/
def epochDrained (s : State) (d : DevId) (c : CompId) : State :=
  match changeOf s c with
  | some x =>
    let s := modChange s c fun x => { x with drained := x.drained ||| devBit d }
    if x.step = 6 then changeStep s c else s
  | none => s

/-- EPOCH_READY_TIMEOUT (R462): some device has not answered READY within 800 µs; ABORT goes out, STATE returns to its value, and
the COMMIT completes with PATH_LOST. -/
def epochReadyTimeout (s : State) (c : CompId) : State :=
  match changeOf s c with
  | some x =>
    if x.step = 2 && decide (x.at_ + 800 ≤ s.counter) then
      let s := notifySet (dropChange s c) x.devices (.abort c)
      let s := modComp s c fun r => { r with state := if r.state = .changing then x.prior else r.state }
      finishCmd s x.w blkLse .pathLost
    else s
  | none => s

/-! ### The change at each device (Table 11.3) -/

/-- What step 3 does to a lease. -/
def leaseStep3 (destroy : Bool) (l : Lease) : Lease :=
  let l := { l with saved := some (l.state, l.inPrev, l.inCur), leave := l.leave || destroy, cut := l.cut || destroy }
  if l.state = .expired || l.state = .lost then { l with inPrev := false, inCur := false }
  else if l.state = .reserved && !l.leave then { l with inPrev := false, state := .active, inCur := true }
  else { l with inPrev := l.inCur && !(l.leave && l.cut), inCur := l.inCur && !l.leave }

/-- The endpoints of this device's ports that a change binds or unbinds. -/
def stagedBinds (s : State) (c : CompId) (destroy : Bool) : List (Ep × CompId) :=
  if destroy then
    (s.lse.portComp.filter fun x => x.2 == c).filterMap fun x => (portEp s (.lane x.1)).map fun e => (e, 0)
  else s.lse.staged.filterMap fun x => match x with
    | .port k p b => if k == c then (portEp s (.lane p)).map fun e => (e, if b then c else 0) else none
    | _ => none

/-- What READY tells of this device's part. -/
def readyNote (s : State) (c : CompId) (destroy : Bool) : ReadyNote :=
  { binds := stagedBinds s c destroy
    lost := (leasesOf s c).any fun x => decide (x.2.state = .lost) && !x.2.leave
    holds := (leasesOf s c).any fun x => !x.2.leave && decide (x.2.state ≠ .scrubbing) }

/-- EPOCH_PREPARE (Table 11.3 step 3): the lease bits move, sillage opens, and the device answers READY. -/
def epochPrepare (s : State) (home : DevId) (c : CompId) (e : Epoch) (destroy : Bool) : State :=
  let r := compRec s c
  if r.sillage && r.epoch == e then notify s home (.ready c (readyNote s c destroy))
  else
    let s := mapLeases s c (leaseStep3 destroy)
    let s := modComp s c fun r =>
      { r with state := if r.state = .down then .down else .changing, home := home, epoch := e, stamp := e - 1, sillage := true,
               drained := false, destroying := destroy }
    notify s home (.ready c (readyNote s c destroy))

/-- EPOCH_ABORT (R462): a device that reached step 3 and not step 5 restores its lease bits; staged entries stay. -/
def epochAbort (s : State) (c : CompId) : State :=
  let r := compRec s c
  if r.sillage && r.stamp != r.epoch then
    let back : Lease → Lease := fun l => match l.saved with
      | some (st, p, k) =>
        if l.state = .expired || l.state = .lost then { l with saved := none }
        else { l with state := st, inPrev := p, inCur := k, saved := none }
      | none => l
    let kept : Nat → Bool := fun n => s.lse.staged.any fun x => match x with
      | .lease _ m _ => m.toNat == n
      | _ => false
    let s := mapLeases s c back
    let s := if r.destroying then
        let clear : BitVec 16 → Lease → Lease := fun n l =>
          if l.comp == c && !kept n.toNat then { l with leave := false, cut := false } else l
        { s with lse := { s.lse with leases := tmap s.lse.leases clear } }
      else s
    modComp s c fun r => { r with state := if r.state = .changing && !isHome s c then .up else r.state, epoch := r.stamp,
                                  sillage := false, drained := true, destroying := false }
  else s

/-- A staged entry applied (Table 11.3 step 5). -/
def applyStaged (s : State) : Staged → State
  | .win _ p w v => { s with ing := { s.ing with wins := tset s.ing.wins (.lane p, w) v } }
  | .port c p b =>
    if b then { s with lse := { s.lse with portComp := tset s.lse.portComp p c } }
    else if portCompOf s (.lane p) == c then { s with lse := { s.lse with portComp := tdel s.lse.portComp p } }
    else s
  | .lease _ _ _ => s

/-- EPOCH_SWITCH (Table 11.3 step 5): staged windows and bindings are applied as one update; later checks stamp the new epoch. -/
def epochSwitch (s : State) (c : CompId) (e : Epoch) (reach : BitVec 64) (binds : List (Ep × CompId)) : State :=
  let r := compRec s c
  if !(r.sillage && r.epoch == e) then s
  else if r.stamp == e then notify s r.home (.switched c)
  else
    let mine := s.lse.staged.filter fun x => stagedComp x == c
    let s := mine.foldl applyStaged s
    let s := if r.destroying then { s with lse := { s.lse with portComp := s.lse.portComp.filter fun x => x.2 != c } } else s
    let s := { s with lse := { s.lse with staged := s.lse.staged.filter (fun x => stagedComp x != c)
                                          epMap := binds.foldl (fun m b => tset m b.1 b.2) s.lse.epMap } }
    let s := modComp s c fun r => { r with stamp := e, reach := reach, oldAt := r.sentAt, sentAt := none }
    notify s r.home (.switched c)

/-- Requests of a composition stamped with its previous epoch and outstanding at this device (R463, Table 11.15). -/
def oldOut (s : State) (c : CompId) : Nat :=
  let r := compRec s c
  let old := r.epoch - 1
  let mine : Req → Bool := fun f => f.epoch == old && f.src != ownEp s && compOf s f.src == c
  if !r.sillage then 0
  else (s.ing.trk.filter fun t => t.comp == c && t.f.epoch == old).length +
    (s.eng.reqs.filter fun x => mine x.f && (trackOf s x.f.src x.f.tag).isNone).length +
    (s.obj.reads.filter fun x => mine x.f && (trackOf s x.f.src x.f.tag).isNone).length

/-- SILLAGE_DRAIN (Table 11.3 step 7): nothing stamped with the previous epoch is outstanding, and none was sent for 330 µs. -/
def sillageDrain (s : State) (c : CompId) : State :=
  let r := compRec s c
  let quiet := match r.oldAt with
    | some t => decide (t + 330 ≤ s.counter)
    | none => true
  if r.sillage && r.stamp == r.epoch && !r.drained && oldOut s c == 0 && quiet then
    notify (modComp s c fun r => { r with drained := true }) r.home (.drained c)
  else s

/-- EPOCH_CLOSE (Table 11.3 step 8): IN_PREV is cleared, leases that left are freed, sillage closes. -/
def epochClose (s : State) (c : CompId) : State :=
  let s := mapLeases s c fun l => { l with inPrev := false, saved := none }
  let left := (leasesOf s c).filter fun x => x.2.leave && !x.2.inPrev && !x.2.inCur && decide (x.2.state ≠ .scrubbing)
  let s := left.foldl (fun s x => freeLeaseEntry s x.1) s
  if (compRec s c).state = .free then s else modComp s c fun r => { r with sillage := false, drained := true, destroying := false }

/-! ### Lost members and devices (R466 to R468) -/

/-- The loss bound in force (R466, Table 11.11). -/
def lostBound (s : State) : Nat := max 100 s.lse.lostUs.toNat

/-- A composition DOWN at this device (R468); its home tells the others. -/
def compDown (s : State) (c : CompId) : State :=
  if (compRec s c).state = .free then s
  else
    let s := modComp s c fun r => { r with state := .down }
    let s := modChange s c fun x => { x with lost := x.lost || decide (x.step < 6) }
    if isHome s c then shareRow s c [] else s

/-- Leases that meet a test become LOST with both bits clear; their homes are told and their compositions are DOWN (R467). DESIGN
CHOICE (log entry 44): an entry that is being scrubbed is held by no composition and stays as it is. -/
def loseLeases (s : State) (p : Lease → Bool) : State :=
  let gone : Lease → Bool := fun l =>
    decide (l.state ≠ .free) && decide (l.state ≠ .lost) && decide (l.state ≠ .scrubbing) && !offerLease s l && p l
  let comps := ((s.lse.leases.filter fun x => gone x.2).map fun x => x.2.comp).eraseDups
  let lose : BitVec 16 → Lease → Lease := fun _ l => if gone l then { l with state := .lost, inPrev := false, inCur := false } else l
  let s := { s with lse := { s.lse with leases := tmap s.lse.leases lose } }
  comps.foldl (fun s c =>
    let s := compDown s c
    if (compRec s c).home == devId s then s else notify s (compRec s c).home (.loss (.lease c))) s

/-- A pool member lost (R467). -/
def loseMember (s : State) (e : Ep) : State :=
  let p := match localAt s e with
    | some (.lane p) => p
    | _ => 0
  let s := { s with lse := { s.lse with lostMembers := s.lse.lostMembers ++ [e], noRouteEp := tdel s.lse.noRouteEp e } }
  raise (loseLeases s fun l => l.target == e) (report 11 (.port p) (locLane s p))

/-- POOL_MEMBER_LOST (R466). -/
def poolMemberLost (s : State) (e : Ep) : State :=
  match tget s.lse.noRouteEp e with
  | some t =>
    if !s.lse.lostMembers.contains e && (s.lse.pool.any fun x => x.ep == e) && decide (t + lostBound s ≤ s.counter) then loseMember s e
    else s
  | none => s

/-- A lost device as every device takes it (R467, R468, R254, R659). -/
def applyLoss (s : State) (d : DevId) : State :=
  if s.lse.lostDevs.contains d then s
  else
    let s := { s with lse := { s.lse with lostDevs := s.lse.lostDevs ++ [d], noRouteDev := tdel s.lse.noRouteDev d,
                                          tabled := s.lse.tabled.filter fun x => x != d } }
    let s := raise s (report 11 (.dev d) locNone)
    let s := if d = devId s then loseLeases s fun _ => true else s
    let hit := s.lse.comps.filter fun x =>
      (s.lse.epMap.any fun y => y.2 == x.1 && epDev s y.1 == some d) || (x.2.home == devId s && x.2.leaseDevs &&& devBit d != 0)
    let s := hit.foldl (fun s x => compDown s x.1) s
    let s := accDeviceLost s d
    let s := { s with lnk := tmap s.lnk fun _ r => if r.peerDev == d then { r with waitLoss := false } else r }
    s.lse.changes.foldl (fun s x => if x.2.step = 2 then s else changeStep s x.1) s

/-- The registrar declares a device lost (R466, R659). -/
def declareLost (s : State) (d : DevId) : State :=
  if s.lse.lostDevs.contains d then s
  else
    let others := (domainDevs s).filter fun x => x != devId s
    applyLoss (emits s (others.map fun x => .notice x (.loss (.device d)))) d

/-- DEVICE_LOST (R466): the registrar has had no route to the device for LOST_US. -/
def deviceLost (s : State) (d : DevId) : State :=
  match tget s.lse.noRouteDev d with
  | some t => if isRegistrar s && decide (t + lostBound s ≤ s.counter) then declareLost s d else s
  | none => s

/-- LOSS_NOTICE (R467, R468). -/
def lossNotice (s : State) : Loss → State
  | .device d => applyLoss s d
  | .lease c => compDown s c

/-- INCARNATION_NOTICE (R659): the registrar declares the restarted device lost, unless it already has. -/
def incarnationNotice (s : State) (d : DevId) : State := if isRegistrar s then declareLost s d else s

/-- EPOCH_SWITCH_RESEND (R462): SWITCH goes again every 200 µs to those that have not answered; after 800 µs they are lost. -/
def epochSwitchResend (s : State) (c : CompId) : State :=
  match changeOf s c with
  | some x =>
    if x.step ≠ 4 then s
    else
      let late := notLost s x.devices &&& ~~~x.switched
      if x.firstSwitch + 800 ≤ s.counter then
        let ds := ((List.range 64).map (BitVec.ofNat 6)).filter fun d => late &&& devBit d != 0
        ds.foldl (fun s d => if isRegistrar s then declareLost s d else notify s (registrarOf s) (.incarnation d)) s
      else if x.at_ + 200 ≤ s.counter then
        let now := s.counter
        notifySet (modChange s c fun x => { x with at_ := now }) late (.switch c x.epoch x.reach x.binds)
      else s
  | none => s

/-- A count since which something has had no route: begun, kept or dropped. -/
def routeWatch {κ : Type} [DecidableEq κ] (now : Nat) (t : Tbl κ Nat) (k : κ) (lost : Bool) : Tbl κ Nat :=
  if !lost then tdel t k else if (tget t k).isSome then t else tset t k now

/-- The counts of R466 at a count: of each pool member at its device, of each device at the registrar. -/
def watchRoutes (s : State) : State :=
  let l := s.lse
  let eps := l.pool.foldl (fun t x => routeWatch s.counter t x.ep (!hasRoute s x.ep)) l.noRouteEp
  let devs := if isRegistrar s then (domainDevs s).foldl (fun t d =>
      routeWatch s.counter t d (d != devId s && (effRoute s d).isNone && !l.lostDevs.contains d)) l.noRouteDev
    else l.noRouteDev
  { s with lse := { l with noRouteEp := eps, noRouteDev := devs, lostMembers := l.lostMembers.filter fun e => !hasRoute s e } }

/-- The device frames of engine work still outstanding under a previous epoch, noted at a count (R463). -/
def watchSillage (s : State) : State :=
  s.lse.comps.foldl (fun s x =>
    if x.2.sillage && x.2.stamp == x.2.epoch && !x.2.drained && oldOut s x.1 != 0 then
      let now := s.counter
      modComp s x.1 fun r => { r with oldAt := some now }
    else s) s

/-! ### The registrar's tables (R454, R660) -/

/-- What the host link takes with it when it goes down: partly received and queued frames, credits and pending requests (R538, R539,
R686, R687). -/
def hostGone (s : State) : State :=
  let s := if s.hp.part.isEmpty then s else dropFlushed s 1
  let s := flushOutput s .host
  let s := { s with hp := { s.hp with link := false, part := [], credits := [], classes := 0, toReturn := [], rx := none, gap := false,
                                      rb := [], next := 0, sentParam := false, gotParam := false, forwarded := [] } }
  losePaths (combineDown (destDown s .host) .host) fun e => decide (localAt s e = some .host)

/-- The host link taken down with its PHY powered down (R683, Table 19.2 step 3). -/
def hostOff (s : State) : State :=
  let s := hostGone s
  { s with hp := { s.hp with phy := false } }

/-- The holder of the active host interface, and the host endpoint with it, as the registrar names it (R660, R683, R688); a device
that held it and no longer does takes its host link down (R49). -/
def takeHolder (s : State) (d : DevId) : State :=
  if isRegistrar s || s.hp.moving then s
  else
    let s := if s.hp.active && d != devId s then hostOff s else s
    { s with hp := { s.hp with hostDev := d, active := d == devId s }
             swc := { s.swc with eps := modWhere s.swc.eps (fun e => decide (e.at_ = .host)) fun e => { e with dev := d } } }

/-- REGISTRAR_TABLE_SYNC (R454, R660): rows and endpoints taken; the whole tables end the wait of R660. -/
def tableSync (s : State) (t : SyncTable) : State :=
  let s := t.comps.foldl (fun s x =>
    let r := compRec s x.comp
    if r.sillage && x.state != 0 then
      modComp s x.comp fun r => { r with state := compStateOf x.state, reach := x.reach }
    else takeRow s x) s
  let s := { s with lse := { s.lse with epMap := t.eps.foldl (fun m b => tset m b.1 b.2) s.lse.epMap } }
  if t.full then takeHolder { s with lse := { s.lse with synced := true } } t.holder else s

/-- A device whose restore notice arrives is no longer lost; the registrar sends a joining device its tables and the gates of
its objects (R468, R660, R470). -/
def deviceBack (s : State) (d : DevId) : State :=
  let s := { s with lse := { s.lse with lostDevs := s.lse.lostDevs.filter fun x => x != d } }
  if isRegistrar s && d != devId s && !s.lse.tabled.contains d then
    let s := { s with lse := { s.lse with tabled := s.lse.tabled ++ [d] } }
    let mine := s.lse.own.filter fun x => x.1.extractLsb' 34 6 == d
    emits (notify s d (.tables (wholeTables s))) (mine.map fun x => .notice d (.gate x.1 (some x.2.owner)))
  else s

/-- A lease or composition command of a source (Table 11.8), ownership apart; a device without the registrar's tables answers one
that names a composition with PATH_LOST (R660). -/
def leaseCommand (s : State) (w : Who) (op : Nat) (c : CompId) : State × Option Status :=
  let names := op = 2 ∨ op = 3 ∨ (6 ≤ op ∧ op ≤ 10)
  if names ∧ !(s.lse.synced || isRegistrar s) then (s, some .pathLost)
  else match op with
    | 1 => compCreateCmd s w
    | 2 => compDestroyCmd s w c
    | 3 => grantCmd s w
    | 4 => renewCmd s w
    | 5 => releaseCmd s w
    | 6 => stageWinCmd s w c
    | 7 => stagePortCmd s w c
    | 8 => stageLeaseCmd s w c
    | 9 => stageClearCmd s c
    | 10 => commitCmd s w c
    | 11 => queryLeaseCmd s w
    | _ => (s, some .denied)

/-! ### Rows -/

/-- ROUTE_NOTICE (R550); a restore notice also brings its origin back (R660). -/
def execRouteNotice (p : PortNo) (f : Req) (s : State) : Res := whenUp s fun s =>
  let newer := newNote s f
  let s := routeNotice s p f
  if newer && (noteOf f.payload).2.2.restore then deviceBack s (noteOf f.payload).1 else s

/-- EPOCH_PREPARE (R461). -/
def execEpochPrepare (home : DevId) (c : CompId) (e : Epoch) (destroy : Bool) (s : State) : Res :=
  whenUp s fun s => epochPrepare s home c e destroy
/-- EPOCH_ABORT (R462). -/
def execEpochAbort (c : CompId) (s : State) : Res := whenUp s fun s => epochAbort s c
/-- EPOCH_SWITCH (R461). -/
def execEpochSwitch (c : CompId) (e : Epoch) (reach : BitVec 64) (binds : List (Ep × CompId)) (s : State) : Res :=
  whenUp s fun s => epochSwitch s c e reach binds
/-- SILLAGE_DRAIN (R461). -/
def execSillageDrain (c : CompId) (s : State) : Res := whenUp s fun s => sillageDrain s c
/-- EPOCH_CLOSE (R461). -/
def execEpochClose (c : CompId) (s : State) : Res := whenUp s fun s => epochClose s c
/-- LEASE_EXPIRE (R450). -/
def execLeaseExpire (slot : BitVec 16) (s : State) : Res := whenUp s fun s => leaseExpire s slot
/-- LEASE_SCRUB_DONE (R452). -/
def execLeaseScrubDone (slot : BitVec 16) (s : State) : Res := whenUp s fun s => leaseScrubDone s slot
/-- REGISTRAR_TABLE_SYNC (R660). -/
def execRegistrarTableSync (t : SyncTable) (s : State) : Res := whenUp s fun s => tableSync s t

end Sys2Proof.Machine
end

