-- ==== Sys2Proof/Machine/Owner.lean ====
section
/-! DEFINITION. Ownership: the registrar's records (R470, R471), their transitions (R474 to R477), gates at the object's device
(R472, R476), and the replay of the records' lines (Table 10.6 step 5). -/

namespace Sys2Proof.Machine

/-! ### Records -/

/-- The device of an object (R331). -/
def oidDev (oid : Oid) : DevId := oid.extractLsb' 34 6

/-- An ownership record. -/
def ownOf (s : State) (oid : Oid) : Option OwnRec := tget s.lse.own oid

/-- An ownership record changed. -/
def modOwn (s : State) (oid : Oid) (f : OwnRec → OwnRec) : State :=
  match ownOf s oid with
  | some r => { s with lse := { s.lse with own := tset s.lse.own oid (f r) } }
  | none => s

/-- A record's 32 bytes (Table 11.5). -/
def ownBytes (oid : Oid) (r : OwnRec) : List Byte :=
  leBytes oid.toNat 5 ++ leBytes r.owner.toNat 2 ++ leBytes r.offerTo.toNat 2 ++ [if r.offered then 2 else 1, 0, 0] ++
    leBytes r.offerLease.toNat 4 ++ leBytes r.rseq.toNat 4 ++ List.replicate 12 0

/-- The 128 bytes of a line of the ownership table, four records to each (R471); a free record is zeros. -/
def ownLine (s : State) (line : Nat) : List Byte :=
  (List.range 4).flatMap fun k =>
    match s.lse.own.find? fun x => x.2.line == 4 * line + k && !x.2.dropping with
    | some x => ownBytes x.1 x.2
    | none => List.replicate 32 0

/-- The lowest free record number of 131,072 (R470). -/
def freeOwn (s : State) : Option Nat :=
  if 131072 ≤ s.lse.own.length then none
  else (List.range (s.lse.own.length + 1)).find? fun n => !(s.lse.own.any fun x => x.2.line == n)

/-- What R471 answers a transition of a record: NO_SLOT when the buffer lacks room, RETRY while it is not armed (R22). -/
def ownDurable (s : State) (n : Nat) : Option Status :=
  if !dryRoom s 0 (n / 4) then some .noSlot
  else if !s.dry.armed then some .retry
  else none

/-- A transition begun: the record's line made durable, and the gate sent to the object's device (R471, R476). -/
def ownCommit (s : State) (oid : Oid) (answer : OwnAnswer) (gate : Option CompId) : State :=
  match ownOf s oid with
  | some r =>
    let s := modOwn s oid fun r => { r with waiting := answer }
    let s := dryLine s 0 (r.line / 4) 0 (ownLine s (r.line / 4))
    notify s (oidDev oid) (.gate oid gate)
  | none => s

/-- Whether a composition reaches an object's device (R454, R473). -/
def reaches (s : State) (c : CompId) (oid : Oid) : Bool := (compRec s c).reach &&& devBit (oidDev oid) != 0

/-- OWN_REGISTER (R470, R471): issued at the registrar, for an object that is not registered. -/
def ownRegisterCmd (s : State) (w : Who) : State × Option Status :=
  let d := lseBytes (privOf s w)
  let oid : Oid := BitVec.ofNat 40 (leAt d 0 5)
  let c : CompId := BitVec.ofNat 10 (leAt d 8 2)
  let here := oidDev oid == devId s
  if !isRegistrar s || !zerosAt d 5 3 || 1024 ≤ leAt d 8 2 || (ownOf s oid).isSome || (here && (objOf s oid).isNone) || !reaches s c oid then
    (s, some .denied)
  else match freeOwn s with
    | none => (s, some .noSlot)
    | some n =>
      match ownDurable s n with
      | some st => (s, some st)
      | none =>
        let r : OwnRec := { owner := c, offerTo := 0, offered := false, offerLease := 0, rseq := 0, line := n, waiting := .none,
                            queue := [], adding := true, dropping := false }
        (ownCommit { s with lse := { s.lse with own := tset s.lse.own oid r } } oid (.cmd w) (some c), none)

/-- OWN_DROP (Table 11.8): the record is OWNED and no transition of it is in progress. -/
def ownDropCmd (s : State) (w : Who) : State × Option Status :=
  let d := lseBytes (privOf s w)
  let oid : Oid := BitVec.ofNat 40 (leAt d 0 5)
  match ownOf s oid with
  | none => (s, some .denied)
  | some r =>
    if !isRegistrar s || !zerosAt d 5 3 then (s, some .denied)
    else if r.offered || r.waiting ≠ .none then (s, some .busyRetry)
    else match ownDurable s r.line with
      | some st => (s, some st)
      | none => (ownCommit (modOwn s oid fun r => { r with dropping := true }) oid (.cmd w) none, none)

/-! ### OWN_OFFER and OWN_ACCEPT (R474 to R477) -/

/-- What the device refuses of an ownership request's form (R474). -/
def ownBad (s : State) (f : Req) : Bool :=
  let rest := if f.opcode == Op.ownOffer then
      f.len != 2 || decide (2 < f.subop.toNat) || !zerosAt f.payload 12 20 || decide (1024 ≤ leAt f.payload 8 2) ||
        (f.subop == 2 && !zerosAt f.payload 8 4)
    else f.len != 1 || f.subop != 0 || !zerosAt f.payload 8 8
  !isRegistrar s || f.dst != ownEp s || f.dlx || !zerosAt f.payload 5 3 || rest

/-- What an ownership request comes to (Table 11.6): a status with no change, or a transition. -/
inductive OwnStep where
  | status (st : Status)
  | offer
  | withdraw
  | accept
deriving DecidableEq, Repr

/-- Whether a record's offer lease still runs (Table 11.6, R476). -/
def offerLive (s : State) (r : OwnRec) : Bool :=
  match leaseNamed s r.offerLease with
  | some n => decide (s.counter < (leaseOf s n).expiry)
  | none => false

/-- Table 11.6 for a request of a composition. -/
def ownStep (s : State) (f : Req) (oid : Oid) (r : OwnRec) : OwnStep :=
  let c := compOf s f.src
  let own := c == r.owner && c != 0
  if f.opcode == Op.ownAccept then
    if r.offered && c == r.offerTo && offerLive s r then .accept
    else if !r.offered && own then .status .ok
    else .status .notOwner
  else if !own then .status .notOwner
  else if f.subop == 0 then
    if r.offered then .status .busyRetry
    else
      let k : CompId := BitVec.ofNat 10 (leAt f.payload 8 2)
      if leAt f.payload 10 2 = 0 || decide ((compRec s k).state ≠ .up) || !reaches s c oid || !reaches s k oid then .status .denied
      else if (freeLease s).isNone then .status .noSlot
      else .offer
  else if f.subop == 1 then (if r.offered then .withdraw else .status .ok)
  else .status .ok

/-- The offer lease of a record freed (Table 11.6). -/
def freeOffer (s : State) (r : OwnRec) : State :=
  match leaseNamed s r.offerLease with
  | some n => freeLeaseEntry s n
  | none => s

/-- A record OWNED by a composition after a transition. -/
def ownedBy (c : CompId) (r : OwnRec) : OwnRec :=
  { r with owner := c, offerTo := 0, offered := false, offerLease := 0, rseq := r.rseq + 1 }

/-- A transition of Table 11.6 applied to its record. -/
def ownApply (s : State) (f : Req) (oid : Oid) (r : OwnRec) : OwnStep → State
  | .offer =>
    let k : CompId := BitVec.ofNat 10 (leAt f.payload 8 2)
    match freeLease s with
    | some n =>
      let s := newLease s n k (ownEp s) 0 0 (leAt f.payload 10 2) .active
      let id := leaseId s n
      ownCommit (modOwn s oid fun r => { r with offerTo := k, offered := true, offerLease := id, rseq := r.rseq + 1 }) oid (.cpl f) (some r.owner)
    | none => s
  | .withdraw => ownCommit (modOwn (freeOffer s r) oid (ownedBy r.owner)) oid (.cpl f) (some r.owner)
  | .accept => ownCommit (modOwn (freeOffer s r) oid (ownedBy r.offerTo)) oid (.cpl f) (some r.offerTo)
  | .status _ => s

/-- One ownership request taken by its record (R475, R471). -/
def ownServe (s : State) (f : Req) : State :=
  let oid : Oid := BitVec.ofNat 40 (leAt f.payload 0 5)
  match ownOf s oid with
  | none => completeAt s f .denied []
  | some r =>
    match ownStep s f oid r with
    | .status .ok => completeAt s f (if s.dry.armed then .ok else .retry) []
    | .status st => completeAt s f st []
    | x =>
      match ownDurable s r.line with
      | some st => completeAt s f st []
      | none => ownApply s f oid r x

/-- An ownership request at its device: one whose record is in transition waits its turn (R475). -/
def ownRequest (s : State) (f : Req) : State :=
  let oid : Oid := BitVec.ofNat 40 (leAt f.payload 0 5)
  if ownBad s f then completeAt s f .denied []
  else match ownOf s oid with
    | none => completeAt s f .denied []
    | some r =>
      if r.waiting = .none then ownServe s f else modOwn s oid fun r => { r with queue := r.queue ++ [f] }

/-- The requests that waited for a record, in arrival order, until one is in transition (R475). -/
def ownDrain : Nat → State → Oid → State
  | 0, s, _ => s
  | n + 1, s, oid =>
    match ownOf s oid with
    | none => s
    | some r =>
      match r.queue with
      | [] => s
      | f :: rest => if r.waiting = .none then ownDrain n (ownServe (modOwn s oid fun r => { r with queue := rest }) f) oid else s

/-- A record freed; what waited for it finds none. -/
def ownFree (s : State) (oid : Oid) : State :=
  match ownOf s oid with
  | none => s
  | some r => r.queue.foldl (fun s f => completeAt s f .denied []) { s with lse := { s.lse with own := tdel s.lse.own oid } }

/-- What waits on a transition is answered (R476). -/
def ownAnswer (s : State) (a : OwnAnswer) (st : Status) : State :=
  match a with
  | .cpl f => completeAt s f st []
  | .cmd w => finishCmd s w blkLse st
  | _ => s

/-- A record freed and its line of the ownership table written again. -/
def ownGone (s : State) (oid : Oid) (line : Nat) : State :=
  let s := ownFree s oid
  dryLine s 0 (line / 4) 0 (ownLine s (line / 4))

/-- GATE_ACK (R476): the transition completes. A registration of an object its device does not have ends with DENIED (R470); a
record of an object that its device has deleted in a removal is freed (R600). -/
def gateAck (s : State) (oid : Oid) (found : Bool) : State :=
  match ownOf s oid with
  | none => s
  | some r =>
    if r.dropping then ownFree (ownAnswer s r.waiting .ok) oid
    else if !found then ownGone (ownAnswer s r.waiting (if r.adding then .denied else .ok)) oid r.line
    else if r.waiting = .none then s
    else
      let s := ownAnswer (modOwn s oid fun r => { r with waiting := .none, adding := false }) r.waiting .ok
      ownDrain (r.queue.length) s oid

/-- OFFER_LEASE_EXPIRE (Table 11.6, R476): the record returns to OWNED by its owner once its line can be made durable. -/
def offerExpire (s : State) (n : BitVec 16) : State :=
  match s.lse.own.find? fun x => x.2.offered && x.2.offerLease.extractLsb' 0 16 == n with
  | some (oid, r) =>
    if offerLive s r || r.waiting ≠ .none || (ownDurable s r.line).isSome then s
    else ownCommit (modOwn (freeOffer s r) oid (ownedBy r.owner)) oid .silent (some r.owner)
  | none => s

/-- GATE_UPDATE (R470, R476): the object's device takes the gate, or drops it, and acknowledges. -/
def gateUpdate (s : State) (oid : Oid) (owner : Option CompId) : State :=
  let found := (objOf s oid).isSome
  let gates := match owner with
    | some c => if found then tset s.lse.gates oid c else s.lse.gates
    | none => tdel s.lse.gates oid
  notify { s with lse := { s.lse with gates := gates } } (registrarOf s) (.gateAck oid found)

/-! ### Replay (Table 10.6 step 5, R471) -/

/-- The record that 32 bytes of the ownership table hold. -/
def ownRead (bs : List Byte) (n : Nat) : Option (Oid × OwnRec) :=
  let st := leAt bs 9 1 % 4
  if st = 1 ∨ st = 2 then
    some (BitVec.ofNat 40 (leAt bs 0 5),
      { owner := BitVec.ofNat 10 (leAt bs 5 2), offerTo := BitVec.ofNat 10 (leAt bs 7 2), offered := st == 2,
        offerLease := BitVec.ofNat 32 (leAt bs 12 4), rseq := BitVec.ofNat 32 (leAt bs 16 4), line := n, waiting := .none,
        queue := [], adding := false, dropping := false })
  else none

/-- The line of the registrar's host record: the one after the ownership table's (R471, Table 19.2 step 2). -/
def hostLine : Nat := 32768

/-- The 128 bytes of the host record: valid, and the device. -/
def hostLineBytes (d : DevId) : List Byte := [1, d.setWidth 8] ++ List.replicate 126 0

/-- The host record committed as a durable line (Table 19.2 step 2). -/
def commitHost (s : State) (d : DevId) : State :=
  dryLine { s with hp := { s.hp with record := some d } } 0 hostLine 0 (hostLineBytes d)

/-- The ownership lines and the host record of the replayed buffer written back. -/
def replayOwn (s : State) : State :=
  let lines := s.dry.buf.filter fun r => r.live && r.oid == 0 && r.desc.isNone
  let s := match lines.find? fun r => r.line == hostLine with
    | some r => { s with hp := { s.hp with record := some ((byteAt r.data 1).setWidth 6) } }
    | none => s
  (lines.filter fun r => decide (r.line < hostLine)).foldl (fun s r =>
    (List.range 4).foldl (fun s k =>
      match ownRead (slice r.data (32 * k) 32) (4 * r.line + k) with
      | some (oid, x) => { s with lse := { s.lse with own := tset s.lse.own oid x } }
      | none => s) s) s

/-- A lease, composition or ownership command of a source (Table 11.8). -/
def lseCommand (s : State) (w : Who) (op : Nat) (c : CompId) : State × Option Status :=
  if op = 12 then ownRegisterCmd s w else if op = 13 then ownDropCmd s w else leaseCommand s w op c

/-! ### Rows -/

/-- An ownership row: at its ingress port, or at its device. -/
def ownRow (pl : Place) (f : Req) (s : State) : State :=
  match pl with
  | .ingress p => arrive s p f
  | .device _ => ownRequest s f

/-- OFFER (R475). -/
def execOffer (pl : Place) (f : Req) (s : State) : Res :=
  whenUp s fun s => ownRow pl { f with opcode := Op.ownOffer, subop := 0 } s
/-- WITHDRAW (R475). -/
def execWithdraw (pl : Place) (f : Req) (s : State) : Res :=
  whenUp s fun s => ownRow pl { f with opcode := Op.ownOffer, subop := 1 } s
/-- CONFIRM (R477). -/
def execConfirm (pl : Place) (f : Req) (s : State) : Res :=
  whenUp s fun s => ownRow pl { f with opcode := Op.ownOffer, subop := if f.subop.toNat < 2 then 2 else f.subop } s
/-- OWN_ACCEPT (R475). -/
def execOwnAccept (pl : Place) (f : Req) (s : State) : Res :=
  whenUp s fun s => ownRow pl { f with opcode := Op.ownAccept } s
/-- OFFER_LEASE_EXPIRE (R475). -/
def execOfferLeaseExpire (slot : BitVec 16) (s : State) : Res := whenUp s fun s => offerExpire s slot
/-- GATE_UPDATE (R476). -/
def execGateUpdate (oid : Oid) (owner : Option CompId) (s : State) : Res := whenUp s fun s => gateUpdate s oid owner

end Sys2Proof.Machine
end

