-- ==== Sys2Proof/Machine/EngRows.lean ====
section
/-! DEFINITION. The commands of the engine, the accords and the objects' own-functions requests: a request stands at its ingress
port, or at the device that executes it (R199). -/

namespace Sys2Proof.Machine

/-- A request at its ingress port, or at its executing device. -/
def atPlace (pl : Place) (f : Req) (own : State → Quad → Req → State) (s : State) : State :=
  match pl with
  | .ingress p => arrive s p f
  | .device q => own s q f

/-- An engine request's row. -/
def engRow (pl : Place) (f : Req) (s : State) : State := atPlace pl f engAccept s

/-- SUBOP of the second of two rows that share an opcode: that row also takes the reserved values. -/
def subopFrom (n : BitVec 4) (f : Req) : Req := if f.subop < n then { f with subop := n } else f

/-- PORTION_PLACE (R202): the first request of the quadrant's queue that can place a portion does. -/
def portionPlace (s : State) (q : Quad) : State :=
  placeFrom (issueFills s) (fun s r => if r.f.opcode = Op.accOpen then placeAcc s r else tryPlace s r) (waitingReqs s q)

/-- DEVICE_FRAME_COMPLETE (R190): for the device's own reads of a plan or a replica, an engine request, a read of an object, or an
accord's RESULT write (R245), whichever has a frame of that address outstanding. -/
def deviceFrameComplete (s : State) (src : Ep) (tag : Tag) (a : Addr) (st : Status) (data : List Byte) : State :=
  if src == ownEp s then (if tag < 256 then planArrive s (tag.setWidth 8) st data else replicaArrive s a st data)
  else match (engReq s src tag).filter fun r => (frameAt r.frames a.toNat).isSome with
    | some r => deviceFrame s r a st data
    | none =>
      match s.obj.reads.find? fun r => r.f.src == src && r.f.tag == tag with
      | some r => rdFrame s r a st data
      | none =>
        match accWriting s src tag a with
        | some x => accWritten s x.1 x.2 st
        | none => s

/-- A progress notice for a seal, or for a read of an object, where one is due (R194). -/
def progressObj (s : State) (src : Ep) (tag : Tag) : State :=
  let s := match s.ftl.seals.find? fun r => r.f.src == src && r.f.tag == tag && decide (r.notice + 200 ≤ s.counter) with
    | some r =>
      match epDev s src with
      | some d =>
        let now := s.counter
        let mark : SealRun → SealRun := fun x => if x.f.src == src && x.f.tag == tag then { x with notice := now } else x
        notify { s with ftl := { s.ftl with seals := s.ftl.seals.map mark } } d (.progress r.f.src r.f.tag)
      | none => s
    | none => s
  match s.obj.reads.find? fun r => r.f.src == src && r.f.tag == tag && decide (r.notice + 200 ≤ s.counter) with
  | some r =>
    match epDev s src with
    | some d =>
      let now := s.counter
      let mark : ObjRead → ObjRead := fun x => if x.f.src == src && x.f.tag == tag then { x with notice := now } else x
      notify { s with obj := { s.obj with reads := s.obj.reads.map mark } } d (.progress r.f.src r.f.tag)
    | none => s
  | none => s

/-- PROGRESS_NOTICE_SEND (R194). -/
def progressSend (s : State) (src : Ep) (tag : Tag) : State :=
  match engReq s src tag with
  | some r => progressEng s r
  | none => progressObj (progressStart s src tag) src tag

/-- Table 4.10 step 6 at the end of DRAIN_US, and R258: work still in flight completes with ABORTED. -/
def funcDrainTimeout (s : State) (fn : EngFn) : State :=
  match s.eng.draining.find? fun x => decide (x.1 = fn) with
  | some (_, some t) =>
    if t + max 10 s.eng.drainUs.toNat ≤ s.counter then
      let work := s.eng.reqs.filter fun r => (needsFns r.f).contains fn && inFlight r
      let rounds := if fn = .reduce then s.acc.slots.filter fun x => decide (x.2.state = .active) else []
      let s := work.foldl (fun s r => endEng s r .aborted []) s
      let s := rounds.foldl (fun s x => endRound s x.1 .aborted) s
      let seen := if work.isEmpty && rounds.isEmpty || s.eng.abortedSeen.contains fn then s.eng.abortedSeen else s.eng.abortedSeen ++ [fn]
      endDrains { s with eng := { s.eng with abortedSeen := seen } }
    else s
  | _ => s

/-- Whether a route between this device and an endpoint, either way, crossed a link before that link was failed; the endpoint's own
port is the route's last link (R244, R247). -/
def routeCrosses (s : State) (e : Ep) (c : Cls) (d : DevId) (p : PortNo) : Bool :=
  let link := (farEnd s.swc.links d p).map (·.1)
  let s := { s with swc := { s.swc with failed := s.swc.failed.filter fun l => !decide (some l = link) } }
  match epEntry s e with
  | none => false
  | some x =>
    (x.dev == d && decide (x.at_ = .lane p)) ||
      (x.dev != devId s && ((pathHere s e (ownEp s) c).contains (d, p) || match staticSlot s x.dev (ownEp s) e c with
        | some r => (pathFrom s x.dev 8 (devId s) r.2).contains (d, p)
        | none => false))

/-- PATH_FAULT_NOTICE (R112, R244): requests whose route crossed the link are resent; an accord member behind it loses its
path. -/
def pathFault (s : State) (d : DevId) (p : PortNo) : State :=
  let hit := s.acc.slots.flatMap fun x =>
    (x.2.members.filter fun m => routeCrosses s m.ep (if m.startTag.isSome then m.cls else x.2.cls) d p).map (·.ep)
  losePaths (pathFaultNotice s d p) fun e => hit.contains e

/-- COMPLETION_ARRIVE (R59): an answer to this device's own request is a parent's to a child's start (R253); every other is
matched in the tracker. -/
def completionRow (s : State) (c : Cpl) : State := if c.dst == ownEp s then upAnswer s c else completionArrive s c

/-! ### Rows -/

/-- COMPLETION_ARRIVE (R59). -/
def execCompletionArrive (c : Cpl) (s : State) : Res := whenUp s fun s => completionRow s c
/-- PATH_FAULT_NOTICE (R112). -/
def execPathFaultNotice (dev : DevId) (p : PortNo) (s : State) : Res := whenUp s fun s => pathFault s dev p
/-- PROGRESS_NOTICE_SEND (R194). -/
def execProgressNoticeSend (src : Ep) (tag : Tag) (s : State) : Res := whenUp s fun s => progressSend s src tag
/-- TILE_XFER (R205). -/
def execTileXfer (pl : Place) (f : Req) (s : State) : Res := whenUp s fun s => engRow pl { f with opcode := Op.tileXfer } s
/-- PORTION_PLACE (R202). -/
def execPortionPlace (q : Quad) (s : State) : Res := whenUp s fun s => portionPlace s q
/-- DESCRIPTOR_COMPLETE (R171). -/
def execDescriptorComplete (t : TileNo) (s : State) : Res := whenUp s fun s => descriptorComplete s t
/-- DEVICE_FRAME_COMPLETE (R190). -/
def execDeviceFrameComplete (src : Ep) (tag : Tag) (a : Addr) (st : Status) (data : List Byte) (s : State) : Res :=
  whenUp s fun s => deviceFrameComplete s src tag a st data
/-- DISPATCH_RETRY_TIMEOUT (R203). -/
def execDispatchRetryTimeout (src : Ep) (tag : Tag) (s : State) : Res := whenUp s fun s => dispatchRetry s src tag
/-- FUNC_DRAIN_TIMEOUT (R211). -/
def execFuncDrainTimeout (fn : EngFn) (s : State) : Res := whenUp s fun s => funcDrainTimeout s fn
/-- ZSK_BLOCK_EXPAND (R316). -/
def execZskBlockExpand (t : TileNo) (s : State) : Res := whenUp s fun s => zskBlockExpand s t
/-- ZSK_REREAD_RESULT (R320). -/
def execZskRereadResult (t : TileNo) (bytes : List Byte) (s : State) : Res := whenUp s fun s => zskReread s t bytes
/-- GATHER_DIRECT (R260). -/
def execGatherDirect (pl : Place) (f : Req) (s : State) : Res :=
  whenUp s fun s => engRow pl { f with opcode := Op.gather, subop := 0 } s
/-- GATHER_INDEXED (R261). -/
def execGatherIndexed (pl : Place) (f : Req) (s : State) : Res :=
  whenUp s fun s => engRow pl (subopFrom 1 { f with opcode := Op.gather }) s
/-- SCATTER_DIRECT (R260). -/
def execScatterDirect (pl : Place) (f : Req) (s : State) : Res :=
  whenUp s fun s => engRow pl { f with opcode := Op.scatter, subop := 0 } s
/-- SCATTER_INDEXED (R261). -/
def execScatterIndexed (pl : Place) (f : Req) (s : State) : Res :=
  whenUp s fun s => engRow pl (subopFrom 1 { f with opcode := Op.scatter }) s
/-- FILTER (R274). -/
def execFilter (pl : Place) (f : Req) (s : State) : Res := whenUp s fun s => engRow pl { f with opcode := Op.filter } s
/-- SCORE_SEL (R282). -/
def execScoreSel (pl : Place) (f : Req) (s : State) : Res := whenUp s fun s => engRow pl { f with opcode := Op.scoreSel } s
/-- EXPAND (R312). -/
def execExpand (pl : Place) (f : Req) (s : State) : Res := whenUp s fun s => engRow pl { f with opcode := Op.expand } s
/-- ACC_OPEN (R223). -/
def execAccOpen (pl : Place) (f : Req) (s : State) : Res :=
  whenUp s fun s => atPlace pl { f with opcode := Op.accOpen } accOpenAccept s
/-- ACC_START (R230). -/
def execAccStart (pl : Place) (f : Req) (s : State) : Res :=
  whenUp s fun s => atPlace pl { f with opcode := Op.accContrib, subop := if f.subop = 1 then 0 else f.subop } (fun s _ f => accStart s f) s
/-- ACC_CLOSE (R256). -/
def execAccClose (pl : Place) (f : Req) (s : State) : Res :=
  whenUp s fun s => atPlace pl { f with opcode := Op.accClose } (fun s _ f => accClose s f) s
/-- ACC_BINDING_NOTICE (R251). -/
def execAccBindingNotice (child : DevId) (b : Binding) (s : State) : Res := whenUp s fun s => bindingNotice s child b
/-- ACC_BINDING_TIMEOUT (R251). -/
def execAccBindingTimeout (slot : BitVec 12) (s : State) : Res := whenUp s fun s => bindingTimeout s slot
/-- ACC_BINDING_ANSWER (R251). -/
def execAccBindingAnswer (slot : BitVec 12) (accepted : Bool) (depth : Nat) (s : State) : Res :=
  whenUp s fun s => bindingAnswer s slot accepted depth
/-- ACC_SEGMENT (R234). -/
def execAccSegment (f : Req) (s : State) : Res := whenUp s fun s => accSegment s f
/-- ACC_WINDOW_NOTICE (R235). -/
def execAccWindowNotice (member : Ep) (tag : Tag) (n : WinNote) (s : State) : Res := whenUp s fun s => windowNotice s member tag n
/-- ACC_STRIPE_COMPLETE (R240). -/
def execAccStripeComplete (slot : BitVec 12) (seg stripe : Nat) (s : State) : Res := whenUp s fun s => stripeComplete s slot seg stripe
/-- ACC_RESULT (R252). -/
def execAccResult (f : Req) (s : State) : Res := whenUp s fun s => accResult s f
/-- ACC_REPORT (R253). -/
def execAccReport (handle : Word) (member : BitVec 10) (round : BitVec 16) (r : Report) (s : State) : Res :=
  whenUp s fun s => accReport s handle member.toNat round r
/-- ACC_STALL_TIMEOUT (R247). -/
def execAccStallTimeout (slot : BitVec 12) (member : BitVec 10) (s : State) : Res := whenUp s fun s => stallTimeout s slot member.toNat
/-- ACC_ABORT_NOTICE (R254). -/
def execAccAbortNotice (handle : Word) (round : BitVec 16) (s : State) : Res := whenUp s fun s => abortNotice s handle round
/-- ACC_IDLE_TIMEOUT (R257). -/
def execAccIdleTimeout (slot : BitVec 12) (s : State) : Res := whenUp s fun s => accIdleTimeout s slot
/-- SEAL (R344). -/
def execSeal (pl : Place) (f : Req) (s : State) : Res :=
  whenUp s fun s => atPlace pl { f with opcode := Op.sealObj, subop := 0 } (fun s _ f => sealAccept s f) s
/-- RESEAL (R345). -/
def execReseal (pl : Place) (f : Req) (s : State) : Res :=
  whenUp s fun s => atPlace pl (subopFrom 1 { f with opcode := Op.sealObj }) (fun s _ f => sealAccept s f) s
/-- RD_OBJ (R347). -/
def execRdObj (pl : Place) (f : Req) (s : State) : Res :=
  whenUp s fun s => atPlace pl { f with opcode := Op.rdObj } (fun s _ f => rdAccept s f) s
/-- DISCARD (R405). -/
def execDiscard (pl : Place) (f : Req) (s : State) : Res :=
  whenUp s fun s => atPlace pl { f with opcode := Op.discard } (fun s _ f => discardAccept s f) s

end Sys2Proof.Machine
end

