-- ==== Sys2Proof/Machine/LinkFault.lean ====
section
/-! DEFINITION. Link faults (R515 to R518), drains and retrains (R518 to R522), the proof of a trunk's peer (R506, R507), and the
commands of the link layer that can end in a fault. -/

namespace Sys2Proof.Machine

/-! ### A port leaving STATE 3 or 4 (R516, R538) -/

/-- The wait before the next attempt (R518): 1 ms, then 10 ms, then 100 ms. -/
def retrainWait (tries : Nat) : Nat := if tries = 0 then 1000 else if tries = 1 then 10000 else 100000

/-- Failed attempts that still count: none once STATE 3 held 1 s (R518). -/
def triesNow (s : State) (r : PortRec) : Nat := if portCarries r && decide (r.upAt + 1000000 ≤ s.counter) then 0 else r.tries

/-- A port at STATE 0 for a cause: transmitter, receiver, credits and keys gone. -/
def portAtZero (s : State) (p : PortNo) (code : BitVec 4) : State :=
  let now := s.counter
  let n := triesNow s (portOf s p)
  modPort s p fun r =>
    { freshLink r with st := 0, step := 0, actWidth := 0, auth := false, enc := false, lastFault := code, credits := [], tries := n + 1,
                       waitUntil := now + retrainWait n, drain := false, tx := none, rx := none, accepted := false, joined := false,
                       gotJoin := false, waitLoss := false, noSend := false, restored := false, samples := [], mean := 0, windows := 0 }

/-- What a port that leaves STATE 3 or 4 takes with it: frames arrived whole go on, its queues are flushed (R538), pending requests
behind it are unknown (R728), its agent, combine entries and accord members fail (R516). -/
def portGone (s : State) (p : PortNo) (down : State → State) : State :=
  let s := down (flushPort (releaseFresh s p) p)
  let u := combineDown (destDown s (.lane p)) (.lane p)
  let s := drainAfter u (agentFail u p)
  losePaths s fun e => decide (localAt s e = some (.lane p))

/-- The path-fault notice of a port, and what this device itself does on it (R111, R112). -/
def pathFaultOwn (s : State) (p : PortNo) : State := pathFault (ownNote s p false) (devId s) p

/-- The error record of a link fault, whatever its cause of Table 12.4 (R515, Table 18.5). -/
def linkRecord (s : State) (p : PortNo) : State := raise s (report 1 (.port p) (locLane s p))

/-- A link fault of a port at STATE 3 or 4 (R515, R516, R518): LINK_DOWN goes where the link can still carry it. -/
def linkFault (s : State) (p : PortNo) (code : BitVec 4) : State :=
  if !portCarries (portOf s p) then s
  else
    let s := if code = 1 || code = 4 || code = 7 then s else sendCtrl s p (.linkDown code)
    pathFaultOwn (portGone (linkRecord s p) p fun s => portAtZero s p code) p

/-- A port in training taken to STATE 0 with a cause; LINK_DOWN goes once flit lock is reached (R521). -/
def trainingDown (s : State) (p : PortNo) (code : BitVec 4) : State :=
  let s := if 5 ≤ (portOf s p).step && code != 7 then sendCtrl s p (.linkDown code) else s
  portAtZero s p code

/-- A port taken down with a cause, whatever its state. -/
def takeDown (s : State) (p : PortNo) (code : BitVec 4) : State :=
  let r := portOf s p
  if portCarries r then linkFault s p code
  else if r.st = 0 then (if code = 8 then modPort s p fun r => { r with lastFault := 8, drain := false } else s)
  else trainingDown s p code

/-! ### Writes of LNK_PORT_CTRL (R518, R521, Table 12.6) -/

/-- ENABLE written 1: training starts at once on a port at STATE 0; DENIED on an unused port. -/
def portEnableCmd (s : State) (p : PortNo) : State × Status :=
  let r := portOf s p
  if r.role = 0 then (s, .denied)
  else
    let s := modPort s p fun r => { r with enable := true }
    (if r.st = 0 then trainStart s p else s, .ok)

/-- ENABLE written 0: the port is taken down with cause 8. -/
def portDisableCmd (s : State) (p : PortNo) : State × Status :=
  if (portOf s p).role = 0 then (s, .ok)
  else (modPort (takeDown s p 8) p fun r => { r with enable := false }, .ok)

/-- RETRAIN written 1: ignored while ENABLE = 0, and while a drain runs; a port at STATE 3 tells its partner first. -/
def retrainCmd (s : State) (p : PortNo) : State × Status :=
  let r := portOf s p
  if !r.enable || r.role = 0 || r.st = 4 then (s, .ok)
  else if r.st = 3 then (pathFaultOwn (portGone (sendCtrl s p .retrainReq) p fun s => trainStart s p) p, .ok)
  else (trainStart s p, .ok)

/-- DRAIN written 1 (R521): at STATE 3 the drain begins; training ends; at STATE 0 and 4 nothing changes. -/
def portDrainCmd (s : State) (p : PortNo) : State × Status :=
  let r := portOf s p
  if r.st = 3 then
    let now := s.counter
    let s := modPort s p fun r => { r with st := 4, drain := true, drainAt := now, samples := [], mean := 0, windows := 0 }
    (sendCtrl (pathFaultOwn s p) p .drain, .ok)
  else if r.st = 1 || r.st = 2 then (trainingDown s p 8, .ok)
  else (s, .ok)

/-- Steps 4 and 5 of R521. -/
def drainDone (s : State) (p : PortNo) : State :=
  portGone (linkRecord (sendCtrl s p (.linkDown 8)) p) p fun s => portAtZero s p 8

/-- PORT_DRAIN_EMPTY (R521): the queues of a draining port are empty in every class. -/
def portDrainEmpty (s : State) (p : PortNo) : State :=
  let busy := (s.swc.land ++ s.swc.queue).any fun x => decide (x.outp = .lane p)
  if (portOf s p).st = 4 && !busy && (portOf s p).tail.isEmpty then drainDone s p else s

/-- PORT_DRAIN_TIMEOUT (R521): 400 µs after the write. -/
def portDrainTimeout (s : State) (p : PortNo) : State :=
  let r := portOf s p
  if r.st = 4 && decide (r.drainAt + 400 ≤ s.counter) then drainDone s p else s

/-! ### What the partner sends -/

/-- LINK_DOWN (R515 cause 7, R522). -/
def linkDownIn (s : State) (p : PortNo) : State :=
  let s := acceptCtrl s p
  let r := portOf s p
  if portCarries r then linkFault s p 7 else if r.st = 0 then s else trainingDown s p 7

/-- DRAIN (R522): no DMT frame is sent on the link any more. -/
def drainIn (s : State) (p : PortNo) : State :=
  let s := acceptCtrl s p
  if portCarries (portOf s p) then
    flushOutput (modPort (if cutting s p then s else flushTail s p) p fun r => { r with noSend := true }) (.lane p)
  else s

/-- RETRAIN_REQ (Table 12.12): the port returns to step 1. -/
def retrainReqIn (s : State) (p : PortNo) : State :=
  let s := acceptCtrl s p
  let r := portOf s p
  if portCarries r then pathFaultOwn (portGone s p fun s => trainStart s p) p
  else if r.st = 0 then s
  else trainStart s p

/-- Trunk authentication failed (R507): LAST_FAULT 6, an error record, and training again after the wait of R518. -/
def authFail (s : State) (p : PortNo) : State := portAtZero (raise s (report 10 (.port p) (locLane s p))) p 6

/-- AUTH_PROOF (R506, R507): with the last fragment the peer is judged; once accepted, KA_POINT is sent. -/
def authProofIn (s : State) (p : PortNo) (m : AuthProof) : State :=
  let r := portOf s p
  let s := acceptCtrl s p
  if r.st != 2 || r.accepted then s
  else
    let got := (r.proof.filter fun x => x.1 != m.index) ++ [(m.index, m.bytes)]
    let s := modPort s p fun r => { r with proof := got }
    if got.length ≤ m.countLess1.toNat then s
    else if peerOk s p m then
      let s := modPort s p fun r => { r with accepted := true }
      sendCtrl s p (.kaPoint (ownPoint s p))
    else authFail s p

/-! ### Flits and timers -/

/-- A fault of cause 2 once one FSEQ was replayed 8 times. -/
def checkReplays (s : State) (p : PortNo) : State := if replayedOut s p then linkFault s p 2 else s

/-- A DATA or IDLE flit received (R488, R489, R498). -/
def flitIn (s : State) (p : PortNo) (fl : Flit) (tagOk : Bool) (fixed : List Nat) : State :=
  if 0 < (portOf s p).st then checkReplays (arriveFlit (countFixed s p fixed) p fl tagOk) p else s

/-- REPLAY_TIMEOUT (R498): ACKSEQ has not advanced for 1 µs while a flit is unacknowledged. -/
def replayTimeout (s : State) (p : PortNo) : State :=
  let r := portOf s p
  if 0 < r.st && 0 < unacked r && decide (r.ackAt + 1 ≤ s.counter) then checkReplays (replay s p) p else s

/-- ACK_STALL_TIMEOUT (R515 cause 3). -/
def ackStall (s : State) (p : PortNo) : State :=
  let r := portOf s p
  if 0 < unacked r && decide (r.ackAt + 3 ≤ s.counter) then linkFault s p 3 else s

/-- NO_GOOD_FLIT_TIMEOUT (R486, R515 cause 4). -/
def noGoodFlit (s : State) (p : PortNo) : State :=
  if (portOf s p).lastGood + 1 ≤ s.counter then linkFault s p 4 else s

/-- The end of a lane's 1 ms window of corrected symbols (Table 12.10). -/
def laneWindow (l : LaneRec) : LaneRec := { l with corr := BitVec.ofNat 16 (min 65535 l.fixed), fixed := 0 }

/-- REPLAY_RATE_WINDOW (R515 cause 5, Table 12.10): the end of a 1 ms window. DESIGN CHOICE (log entry 46): replays and corrected symbols
are counted over the same windows. -/
def replayWindow (s : State) (p : PortNo) : State :=
  let s := modPort s p fun r => { r with lanes := r.lanes.map laneWindow }
  if 64 < (portOf s p).winReplays then linkFault s p 5 else modPort s p fun r => { r with winReplays := 0 }

/-- SIGNAL_LOSS (R515 cause 1): on an active lane. -/
def signalLoss (s : State) (p : PortNo) (lane : BitVec 3) : State :=
  let r := portOf s p
  if lane.toNat < r.actWidth.toNat then
    linkFault (modPort s p fun r => { r with lanes := modAt r.lanes lane.toNat fun l => { l with lock := false } }) p 1
  else s

/-- RESTORE_NOTICE_TIMER (R551, R552, R660): the far end of a trunk is back. -/
def restoreNotice (s : State) (p : PortNo) : State :=
  let was := (portOf s p).restored
  let s := restoreTimer s p
  let r := portOf s p
  if r.role == 2 && r.restored && !was then deviceBack s r.peerDev else s

/-! ### Rows -/

/-- FLIT_DATA (R488). -/
def execFlitData (p : PortNo) (fl : Flit) (tagOk : FlitCheck) (s : State) : Res :=
  whenUp s fun s => flitIn s p fl tagOk.tagOk tagOk.fixed
/-- FLIT_IDLE (R489). -/
def execFlitIdle (p : PortNo) (fl : Flit) (tagOk : FlitCheck) (s : State) : Res :=
  whenUp s fun s => flitIn s p fl tagOk.tagOk tagOk.fixed
/-- FLIT_CTRL_RESERVED (R491): accepted, acknowledged and otherwise ignored. -/
def execFlitCtrlReserved (p : PortNo) (fl : Flit) (s : State) : Res :=
  whenUp s fun s => if 0 < (portOf s p).st then checkReplays (acceptFlit s p fl fl.payload) p else s
/-- REPLAY_TIMEOUT (R498). -/
def execReplayTimeout (p : PortNo) (s : State) : Res := whenUp s fun s => replayTimeout s p
/-- AUTH_PROOF (R507). -/
def execAuthProof (p : PortNo) (m : AuthProof) (s : State) : Res := whenUp s fun s => authProofIn s p m
/-- LINK_DOWN (R522). -/
def execLinkDown (p : PortNo) (_code : BitVec 4) (s : State) : Res := whenUp s fun s => linkDownIn s p
/-- DRAIN (R522). -/
def execDrain (p : PortNo) (s : State) : Res := whenUp s fun s => drainIn s p
/-- RETRAIN_REQ (R491). -/
def execRetrainReq (p : PortNo) (s : State) : Res := whenUp s fun s => retrainReqIn s p
/-- SIGNAL_LOSS (R515). -/
def execSignalLoss (p : PortNo) (lane : BitVec 3) (s : State) : Res := whenUp s fun s => signalLoss s p lane
/-- ACK_STALL_TIMEOUT (R515). -/
def execAckStallTimeout (p : PortNo) (s : State) : Res := whenUp s fun s => ackStall s p
/-- NO_GOOD_FLIT_TIMEOUT (R486). -/
def execNoGoodFlitTimeout (p : PortNo) (s : State) : Res := whenUp s fun s => noGoodFlit s p
/-- REPLAY_RATE_WINDOW (R515). -/
def execReplayRateWindow (p : PortNo) (s : State) : Res := whenUp s fun s => replayWindow s p
/-- RESTORE_NOTICE_TIMER (R551). -/
def execRestoreNoticeTimer (p : PortNo) (s : State) : Res := whenUp s fun s => restoreNotice s p

end Sys2Proof.Machine
end

