-- ==== Sys2Proof/Machine/Errors.lean ====
section
/-! DEFINITION. Detection and containment (R667 to R675): stack codes, parity, escalation through the tiers, and partial
resets. -/

namespace Sys2Proof.Machine

/-! ### Places (Tables 18.2, 18.3, R677) -/

/-- LEVEL of a tier: cell 0, block, section, region or die, chip (Table 18.4). -/
def levelCell : BitVec 3 := 0
/-- LEVEL of the block tier. -/
def levelBlock (s : State) : BitVec 3 := if s.boot.contain then 3 else 1
/-- LEVEL of Extended's region tier. -/
def levelSection : BitVec 3 := 4
/-- LEVEL of the tier that resets a die. -/
def levelDie (s : State) : BitVec 3 := if s.boot.contain then 5 else 2
/-- LEVEL of the last tier. -/
def levelChip (s : State) : BitVec 3 := if s.boot.contain then 6 else 3

/-- The region of a die, as the RESETTING field numbers regions (Table 15.5). -/
def regionOf (die : BitVec 5) : BitVec 5 :=
  let n := die.toNat
  if n < 24 then BitVec.ofNat 5 (2 + n) else if n = 26 then 1 else 0

/-- The die of a region; the control die's two regions as R677 numbers them. -/
def regionDie (r : BitVec 5) : BitVec 5 := if r = 0 then 25 else if r = 1 then 26 else r - 2

/-- Whether a region is under partial reset. -/
def isResetting (s : State) (r : BitVec 5) : Bool := s.err.resetting.getLsbD r.toNat

/-- The stack that mirrors a stack: MS0 with MS2, MS1 with MS3 (R33). -/
def mirrorOf (q : Quad) : Quad := q ^^^ 2

/-- Places that are held once in each stack of a mirrored pair (R33, Table 18.1). -/
def mirrored : StackPlace → Bool
  | .map _ | .dryBuf _ _ | .table => true
  | _ => false

/-- The pair, by its lower stack, that holds a unit's map entry. DESIGN CHOICE (log entry 39): Table 1.3 gives each pair half of them and
does not say which. -/
def mapPair (lu : Nat) : Quad := BitVec.ofNat 2 (lu % 2)
/-- The pair, by its lower stack, that holds a drydown record. DESIGN CHOICE (log entry 39). -/
def recPair (r : DryRec) : Quad := BitVec.ofNat 2 (r.line % 2)

/-- Whether a stack is being reset, by itself or with its switch die. -/
def stackResetting (s : State) (q : Quad) : Bool :=
  isResetting s (BitVec.ofNat 5 (10 + q.toNat)) || isResetting s (BitVec.ofNat 5 (22 + q.toNat))

/-- Dies of more than one section (Table 18.2). -/
def hasSections (die : BitVec 5) : Bool := decide (die.toNat < 8) || (decide (12 ≤ die.toNat) && decide (die.toNat < 20))

/-- A threshold field: 0 acts as 1 (Table 18.9). -/
def threshold (n : BitVec 8) : Nat := max 1 n.toNat

/-- Events of the last `window` µs that meet `p`. -/
def recent (s : State) (l : List EscEvent) (window : Nat) (p : EscEvent → Bool) : Nat :=
  (l.filter fun e => p e && decide (s.counter < e.at_ + window)).length

/-- An event of a place, at this count. -/
def escAt (s : State) (l : Loc) : EscEvent := ⟨l.die, l.section_, l.block, s.counter⟩

/-! ### Chip and partial reset (R674, R675) -/

/-- The last tier's action: drydown, then hold in reset (Table 18.2). -/
def chipAction (s : State) (inj : Bool) : State :=
  let s := raise s { source := 15, action := 6, level := levelChip s, status := .ok, subject := .none, loc := locNone, inj := inj }
  beginDrydown (setAlert s alertReset) .chip

/-- Ports of a set taken down with LAST_FAULT 1 (Table 18.3). -/
def portsDown (s : State) (p : PortNo → Bool) : State :=
  ((s.lnk.map (·.1)).filter p).foldl (fun s p => if (portOf s p).st = 0 then s else takeDown s p 1) s

/-- EDe: tiles gated, their portions run elsewhere (R173); the tile test zeroes their SRAM, and the replicas there go with it (log
entry 48). -/
def resetTiles (s : State) (e : BitVec 3) : State :=
  let s := (s.obj.tab.filter fun x => x.2.t0tiles.any fun p => tileDie p.tile == e).foldl (fun s x => freeReplica s x.1 x.2) s
  (allTiles.filter fun t => tileDie t == e).foldl (fun s t =>
    let wipe : TileRec → TileRec := fun x => { x with gated := true, ungating := false, sram := [] }
    if (tileOf s t).gated && (tileOf s t).queue.isEmpty then modTile s t wipe else accTileFail (unloadTile s t wipe) t) s

/-- NAND channels: programs of seals and cycles in flight are placed and made again; no block is retired. -/
def redoPrograms (s : State) : State :=
  let bs := ((s.ftl.journal.flatMap fun j => j.needs).map (·.blk)).eraseDups
  bs.foldl (fun s b =>
    let s := s.ftl.seals.foldl (fun s r => replaceSeal s r b) s
    s.ftl.gc.foldl (fun s c => replaceCycle s c b) s) s

/-- Fetches held during a reset are sent again (R358, Table 18.3). -/
def resendFetches (s : State) : State :=
  emits s (s.obj.fetches.filterMap fun x => x.page.map fun a => .nandRead a x.unit)

/-- Management sessions close, and with them what they had running. -/
def closeSessions (s : State) : State :=
  (s.mg.sources.filter fun x => isSession x.w).foldl (fun s x => closeSource s x.w) s

/-- What a pair held when neither stack of it has it any more: its map entries' units are damaged (R373, Table 8.7 steps 2 to 5), its
buffer records bad (R424). -/
def losePairOf (s : State) (p : Quad) : State :=
  let lost := s.ftl.map.filterMap fun x => if mapPair x.1 = p then unitOwner s x.1 else none
  let s := lost.foldl (fun s x => serveLost (unitDamaged s x.1 x.2 none) x.1 x.2) s
  { s with dry := { s.dry with buf := s.dry.buf.map fun r => if recPair r = p then { r with bad := true } else r } }

/-- A page of a stack that lost its contents: zeros, its lines poisoned when they had no other home. -/
def lostPage (s : State) (n : Nat) : State :=
  (List.range 32).foldl (fun s k => poisonLine s (32 * n + k)) (zeroRange s (4096 * n) 4096)

/-- Staged steps of plans whose staging lay on a stack, to be fetched again (Table 18.1; log entry 48). -/
def restage (s : State) (q : Quad) : State :=
  let redo : PlanStep → PlanStep := fun x => if x.over_ then x else { x with staged := false, need := [], got := [] }
  let again : Plan → Plan := fun p => if p.frames.any (fun r => r.stack == q) then { p with steps := p.steps.map redo } else p
  { s with obj := { s.obj with plans := tmap s.obj.plans fun _ p => again p } }

/-- MSs: durable service stops, copies on the stack are dropped, lines of writable objects poisoned; mirrored content is rebuilt from the
other stack of the pair, unless that is being reset as well. -/
def resetStack (s : State) (q : Quad) : State :=
  let s := if stackResetting s (mirrorOf q) then losePairOf s (q &&& 1) else s
  let pages := s.obj.pages.filter fun r => r.stack == q
  let isCopy : Oid → Bool := fun o => (tget s.obj.tab o).any fun x => decide (x.t1 ≠ .none)
  let copies := ((pages.map (·.oid)).eraseDups).filter isCopy
  let mine := pages.filter fun r => !isCopy r.oid
  let s := (mine.flatMap fun r => (List.range r.n).map fun k => r.first + k).foldl (fun s p => lostPage s p) { s with dry := { s.dry with armed := false } }
  restage (copies.foldl dropCopy s) q

/-- Frames in a switch die's buffer discarded. -/
def dropBuffer (s : State) (q : Quad) : State :=
  let mine : QFrame → Bool := fun x => x.die == q
  let n := ((s.swc.land ++ s.swc.queue).filter mine).length
  dropFlushed { s with swc := { s.swc with land := s.swc.land.filter (fun x => !mine x), queue := s.swc.queue.filter fun x => !mine x } } n

/-- SDq: as MSq, and its ports, buffer, combine entries, accord rounds and requests. -/
def resetSwitch (s : State) (q : Quad) : State :=
  let s := dropBuffer (portsDown (resetStack s q) fun p => laneQuad p == q) q
  let s := (s.cmb.ents.filter fun x => x.slice == q).foldl entryLost s
  let s := (s.acc.slots.filter fun x => x.2.quad == q && decide (x.2.state = .active)).foldl (fun s x => endRound s x.1 .aborted) s
  let here : Port → Bool := fun p => match p with
    | .lane p => laneQuad p == q
    | _ => false
  (s.ing.trk.filter fun t => here t.port).foldl (fun s t => if (trackOf s t.f.src t.f.tag).isSome then loseReq s t else s) s

/-- What a partial reset does as it begins (Table 18.3). -/
def resetEffect (s : State) (r : BitVec 5) : State :=
  let n := r.toNat
  if n = 0 then redoPrograms (closeSessions s)
  else if n = 1 then redoPrograms s
  else if n < 10 then portsDown s fun p => p.toNat / 32 == n - 2
  else if n < 14 then resetSwitch s (BitVec.ofNat 2 (n - 10))
  else if n < 22 then resetTiles s (BitVec.ofNat 3 (n - 14))
  else if n < 26 then resetStack s (BitVec.ofNat 2 (n - 22))
  else s

/-- A partial reset of a region begins, or, past RESET_N, the last tier acts (R674, R675). -/
def partialReset (s : State) (r : BitVec 5) (inj : Bool) : State :=
  if isResetting s r then s
  else
    let l : Loc := ⟨regionDie r, 0, 0, 0⟩
    let s := { s with err := { s.err with resets := s.err.resets ++ [escAt s l] } }
    if threshold s.err.resetN < recent s s.err.resets 3600000000 (fun e => e.die == l.die) then chipAction s inj
    else
      let s := raise s { source := 15, action := 5, level := levelDie s, status := .ok, subject := .none, loc := l, inj := inj }
      let s := setAlert { s with err := { s.err with resetting := s.err.resetting ||| BitVec.ofNat 26 (2 ^ r.toNat) } } alertReset
      resetEffect s r

/-- The bound of a region's partial reset in µs; a link die's leaves training out (Table 18.3). -/
def resetBound (r : BitVec 5) : Nat :=
  let n := r.toNat
  if n = 0 then 100000 else if n = 1 then 50000 else if n < 10 then 2000 else if n < 14 then 300000 else if n < 22 then 5000 else 250000

/-- Durable service after a stack's reset: ARMED = 1 once no stack is being reset (Table 18.3). -/
def rearm (s : State) : State :=
  let busy := (List.range 4).any fun k => s.err.resetting.getLsbD (10 + k) || s.err.resetting.getLsbD (22 + k)
  if !busy && s.dry.limitSet && !s.dry.drying && decide (s.ftl.state = .online) then { s with dry := { s.dry with armed := true } } else s

/-- PARTIAL_RESET_COMPLETE (R675): the region's bit clears; a reset that failed, or passed its bound, escalates to chip. -/
def resetComplete (s : State) (r : BitVec 5) (ok : Bool) : State :=
  if !isResetting s r then s
  else
    let began := ((s.err.resets.filter fun e => e.die == regionDie r).getLast?.map (·.at_)).getD s.counter
    let s := { s with err := { s.err with resetting := s.err.resetting &&& ~~~(BitVec.ofNat 26 (2 ^ r.toNat)) } }
    let n := r.toNat
    if !ok || (decide (began + resetBound r < s.counter) && !(decide (2 ≤ n) && decide (n < 10))) then chipAction s false
    else if n ≤ 1 then resendFetches s
    else if n < 10 then s
    else if n < 14 || decide (22 ≤ n) then rearm s
    else s

/-! ### Blocks and sections (Table 18.2) -/

/-- A lane removed: its port trains again without it, or goes down (R504). -/
def removeLane (s : State) (lane : Nat) : State :=
  match s.lnk.find? fun x => decide (x.1.toNat ≤ lane) && decide (lane < x.1.toNat + x.2.width.toNat) with
  | none => s
  | some (p, _) =>
    let s := modPort s p fun r => { r with isolated := r.isolated ||| BitVec.ofNat 8 (2 ^ (lane - p.toNat)) }
    takeDown s p 1

/-- The blocks of a NAND target retired (R403). -/
def retireTarget (s : State) (n : Nat) : State :=
  (((lunPlanes s).filter fun b => b.chan.toNat * 8 + b.ce.toNat == n).flatMap fun lp =>
    (List.range s.ftl.geom.blocks).map fun k => blkIn lp k).foldl (fun s b => retireBlock s b 4) s

/-- What isolating a block does, by its die (Table 18.2). -/
def blockEffect (s : State) (die : BitVec 5) (block : BitVec 12) : State :=
  let n := die.toNat
  if n < 8 then removeLane s (32 * n + block.toNat)
  else if n < 12 then s
  else if n < 20 then
    let t : TileNo := BitVec.ofNat 9 (64 * (n - 12) + block.toNat)
    accTileFail (failTile s t) t
  else if n < 24 then
    let q : Quad := BitVec.ofNat 2 (n - 20)
    if s.err.badBanks.contains (q, block) then s else { s with err := { s.err with badBanks := s.err.badBanks ++ [(q, block)] } }
  else if n = 26 then retireTarget s block.toNat
  else s

/-- Blocks of a section of a die. -/
def sectionBlocks (die : BitVec 5) (sec : BitVec 3) : List (BitVec 12) :=
  let k := if die.toNat < 8 then 8 else 16
  (List.range k).map fun i => BitVec.ofNat 12 (sec.toNat * k + i)

/-- Block isolations past BLOCK_N: the section is isolated where a die has several in Extended, else the die is reset (R674). -/
def escalateBlocks (s : State) (l : Loc) (inj : Bool) : State :=
  let inSec := s.boot.contain && hasSections l.die
  let same : EscEvent → Bool := fun e => e.die == l.die && (!inSec || e.section_ == l.section_)
  if recent s s.err.blocks 60000000 same ≤ threshold s.err.blockN then s
  else if inSec then
    let s := raise s { source := 15, action := 4, level := levelSection, status := .ok, subject := .none,
                       loc := ⟨l.die, l.section_, 0, 0⟩, inj := inj }
    (sectionBlocks l.die l.section_).foldl (fun s b => blockEffect s l.die b) s
  else partialReset s (regionOf l.die) inj

/-- A block isolated: the record, its effect, and the count of its region (R673, R674). -/
def isolateBlock (s : State) (source : BitVec 8) (l : Loc) (inj : Bool) : State :=
  let here : EscEvent → Bool := fun e => e.die == l.die && e.block == l.block
  let s := raise s { source := source, action := 3, level := levelBlock s, status := .ok, subject := .none, loc := { l with cell := 0 }, inj := inj }
  let s := { s with err := { s.err with blocks := s.err.blocks ++ [escAt s l], cells := s.err.cells.filter fun e => !here e } }
  escalateBlocks (blockEffect s l.die l.block) l inj

/-- A cell-level event: its record, and the isolation of its block past CELL_N within 1 s (R674). -/
def cellEvent (s : State) (e : Event) : State :=
  let s := raise s e
  let s := { s with err := { s.err with cells := s.err.cells ++ [escAt s e.loc] } }
  if threshold s.err.cellN < recent s s.err.cells 1000000 (fun x => x.die == e.loc.die && x.block == e.loc.block) then
    isolateBlock s 15 e.loc e.inj
  else s

/-! ### The stack code (R667 to R669) -/

/-- LOC of a granule; in Extended the array and the word of its index (R677). -/
def locStack (s : State) (q : Quad) (g : Nat) : Loc :=
  let l := locGranule q g
  if s.boot.contain then
    let i := l.cell.toNat
    { l with cell := BitVec.ofNat 28 (bitsOf i 11 8 + 2 ^ 8 * bitsOf i 0 11) }
  else l

/-- An event of the stack code. -/
def stackEvent (s : State) (q : Quad) (g : Nat) (action : BitVec 3) (st : Status) (sub : Subject) (inj : Bool) : Event :=
  { source := 2, action := action, level := levelCell, status := st, subject := sub, loc := locStack s q g, inj := inj }

/-- STACK_CODE_ERROR (Table 18.1): a completion log entry counts as evicted; a tracker's copy that a resend needs is lost, and
its request completes with PATH_LOST; every other granule is read again, or read from its other copy. -/
def stackCodeError (s : State) (q : Quad) (g : Nat) (pl : StackPlace) : State :=
  match pl with
  | .cplLog src dst cls seq =>
    match logFind s (src, dst, cls) seq with
    | some e => cellEvent (logEvict s e) (stackEvent s q g 1 .ok .none false)
    | none => s
  | .tracker src tag =>
    match trackOf s src tag with
    | some t => cellEvent (loseReq s t) (stackEvent s q g 0 .pathLost .none false)
    | none => s
  | _ => { s with err := { s.err with rereads := s.err.rereads ++ [(q, g, false)]
                                      badCopies := if mirrored pl && !s.err.badCopies.contains (pl, q) then s.err.badCopies ++ [(pl, q)]
                                        else s.err.badCopies } }

/-- A tier-1 granule whose re-read failed: fetched from its home again, or its line poisoned (Table 18.1). -/
def badGranule (s : State) (q : Quad) (g : Nat) (inj : Bool) : State :=
  match granuleAddr s q g with
  | none => cellEvent s (stackEvent s q g 1 .ok .none inj)
  | some a =>
    let sub := Subject.addr (BitVec.ofNat 58 a)
    let poison : State → State := fun s => cellEvent (poisonLine s (lineOf s a)) (stackEvent s q g 2 .poison sub inj)
    match objIn s a with
    | none => cellEvent s (stackEvent s q g 1 .ok sub inj)
    | some (oid, o) =>
      if o.t1 = .none then poison s
      else if !o.cdense && unitLost s oid o ((a - o.addr) / 16384) then poison s
      else cellEvent s (stackEvent s q g 1 .ok sub inj)

/-- What both copies failing means (R373, R424). -/
def bothBad (s : State) (q : Quad) (g : Nat) (pl : StackPlace) : State :=
  let e : Event := { stackEvent s q g 2 .poison .none false with source := 9 }
  match pl with
  | .map lu =>
    match unitOwner s lu with
    | some (oid, u) => serveLost (enterDamage (cellEvent s { e with subject := .oid oid }) oid u) oid u
    | none => cellEvent s { e with action := 0, status := .ok }
  | .dryBuf oid line =>
    let hit : DryRec → Bool := fun r => r.live && r.oid == oid && r.line == line && r.desc.isNone
    cellEvent { s with dry := { s.dry with buf := modWhere s.dry.buf hit fun r => { r with bad := true } } } { e with subject := .oid oid }
  | _ => cellEvent s { e with action := 0, status := .ok }

/-- Whether the other copy of a mirrored entry can serve: it passes, is not itself bad, and its stack is not being reset (R33). -/
def mirrorServes (s : State) (q : Quad) (pl : StackPlace) (ok : Bool) : Bool :=
  ok && !s.err.badCopies.contains (pl, mirrorOf q) && !stackResetting s (mirrorOf q)

/-- REREAD_RESULT (R669): the re-read passes and is used, or the other copy is and the bad one is rewritten from it; or the place's own
recovery follows. -/
def rereadResult (s : State) (q : Quad) (g : Nat) (pl : StackPlace) (ok : Bool) : State :=
  match s.err.rereads.find? fun x => x.1 == q && x.2.1 == g with
  | none => s
  | some x =>
    let inj := x.2.2
    let s := { s with err := { s.err with rereads := eraseFirst (fun y => decide (y = x)) s.err.rereads } }
    let sub := match granuleAddr s q g with
      | some a => Subject.addr (BitVec.ofNat 58 a)
      | none => .none
    if mirrored pl then
      let serves := mirrorServes s q pl ok
      let s := bothWritten { s with err := { s.err with sticky := s.err.sticky.filter fun y => !decide (y = (q, g)) } } pl
      if serves then cellEvent s (stackEvent s q g 1 .ok sub inj) else bothBad s q g pl
    else if ok && !s.err.sticky.contains (q, g) then cellEvent s (stackEvent s q g 1 .ok sub inj)
    else badGranule s q g inj

/-! ### Parity and rails -/

/-- BUFFER_PARITY_ERROR (Table 18.1): the frame is discarded and counted. -/
def bufferParity (s : State) (frame : Option Nat) (block : BitVec 12) : State :=
  let hit := (s.swc.land ++ s.swc.queue).find? fun x => frame = some x.id
  match frame, hit with
  | some _, none => s
  | _, hit =>
    let die : BitVec 5 := match hit with
      | some x => BitVec.ofNat 5 (8 + x.die.toNat)
      | none => 24
    let keep : QFrame → Bool := fun x => frame != some x.id
    let s := { s with swc := { s.swc with land := s.swc.land.filter keep, queue := s.swc.queue.filter keep }
                      err := { s.err with frameLost := satInc 32 s.err.frameLost } }
    cellEvent s { source := 4, action := 1, level := levelCell, status := .ok, subject := .none, loc := ⟨die, 0, block, 0⟩, inj := false }

/-- TILE_PARITY_ERROR (R173): the re-read serves; or the tile is FAILED and its work runs elsewhere, accord work that no source
can bring back ending with POISON. -/
def tileParity (s : State) (t : TileNo) (rereadOk : Bool) : State :=
  if (tileOf s t).failed then s
  else if rereadOk then
    cellEvent s { source := 3, action := 1, level := levelCell, status := .ok, subject := .none, loc := locTile s t, inj := false }
  else isolateBlock s 3 (locTile s t) false

/-- UNDERVOLTAGE (R632): an error record, and the region of the rail is contained; the host port's PHY and the always-on domain
have no region. -/
def undervoltage (s : State) (dom : BitVec 5) : State :=
  let s := raise s (report 12 .none (locDomain dom))
  let n := dom.toNat
  if n < 24 then partialReset s (regionOf (locDomain dom).die) false
  else if n = 24 then partialReset s 0 false
  else if n = 25 then partialReset s 1 false
  else if n < 30 then
    partialReset (partialReset s (BitVec.ofNat 5 (2 + 2 * (n - 26))) false) (BitVec.ofNat 5 (3 + 2 * (n - 26))) false
  else s

/-! ### The flash's codewords as cells -/

/-- Whether the NAND channels answer: not during their partial reset, nor the management cores' (Table 18.3). -/
def nandReady (s : State) : Bool := !isResetting s 0 && !isResetting s 1

/-- The cell event of an uncorrectable codeword, whose record Table 8.7 step 2 has raised. -/
def codewordEvent (s : State) (page : Option PageAddr) : State :=
  match page with
  | none => s
  | some a =>
    let l := locPage s.ftl.geom a
    let s := { s with err := { s.err with cells := s.err.cells ++ [escAt s l] } }
    if threshold s.err.cellN < recent s s.err.cells 1000000 (fun x => x.die == l.die && x.block == l.block) then isolateBlock s 15 l false
    else s

/-- The page a fetch reads. -/
def fetchPage (s : State) (oid : Oid) (u : Nat) : Option PageAddr :=
  (s.obj.fetches.find? fun x => x.oid == oid && x.unit == u).bind (·.page)

/-- TIER3_FETCH_DONE, held while the channels are reset. -/
def fetchDone (s : State) (oid : Oid) (u : Nat) (d : Decoded) : State :=
  if !nandReady s then s
  else
    let page := fetchPage s oid u
    let s := tier3FetchDone s oid u d
    if decodeBad d then codewordEvent s page else s

/-- TIER3_UNCORRECTABLE, held while the channels are reset. -/
def fetchBad (s : State) (oid : Oid) (u : Nat) : State :=
  if !nandReady s then s
  else
    let page := fetchPage s oid u
    codewordEvent (tier3Uncorrectable s oid u) page

/-! ### The Blotter's arm (R679) -/

/-- CFG, TGT, OFF and CNT of an entry as they read (Table 18.13). -/
def bltWords (b : Blt) : List Word :=
  [BitVec.ofNat 32 (b.kind.toNat * 2 ^ 28 + b.action.toNat * 2 ^ 24 + b.every.toNat),
   BitVec.ofNat 32 (b.portStack.toNat * 2 ^ 16 + b.sub.toNat * 2 ^ 8), b.granule, b.count.setWidth 32]

/-- The entry table's bytes, whose digest MR5 takes. -/
def bltTable (s : State) : List Byte :=
  ((List.range 16).flatMap fun k => bltWords (bltOf s (BitVec.ofNat 4 k))).flatMap fun w => leBytes w.toNat 4

/-- ARM written: 1 is an ADMIN session's (R608); either extends MR5. -/
def bltArmCmd (s : State) (w : Who) (on : Bool) : State × Status :=
  if on && !isAdmin s w then (s, .denied)
  else
    let fresh : Tbl (BitVec 4) Blt := tmap s.err.blt fun _ b => { b with seen := 0 }
    (extend { s with err := { s.err with arm := on, blt := if on then fresh else s.err.blt } } 5 (Config.sm3 (bltTable s)), .ok)

/-! ### Rows -/

/-- STACK_CODE_ERROR (R667). -/
def execStackCodeError (stk : Quad) (granule : Nat) (place : StackPlace) (s : State) : Res :=
  whenUp s fun s => stackCodeError s stk granule place
/-- BUFFER_PARITY_ERROR (R667). -/
def execBufferParityError (frame : Option Nat) (block : BitVec 12) (s : State) : Res := whenUp s fun s => bufferParity s frame block
/-- REREAD_RESULT (R669). -/
def execRereadResult (stk : Quad) (granule : Nat) (place : StackPlace) (ok : Bool) (s : State) : Res :=
  whenUp s fun s => rereadResult s stk granule place ok
/-- PARTIAL_RESET_COMPLETE (R675). -/
def execPartialResetComplete (region : BitVec 5) (ok : Bool) (s : State) : Res := whenUp s fun s => resetComplete s region ok
/-- TILE_PARITY_ERROR (R173). -/
def execTileParityError (t : TileNo) (rereadOk : Bool) (s : State) : Res := whenUp s fun s => tileParity s t rereadOk
/-- UNDERVOLTAGE (R632). -/
def execUndervoltage (dom : BitVec 5) (s : State) : Res := whenUp s fun s => undervoltage s dom
/-- TIER3_FETCH_DONE (R358). -/
def execTier3FetchDone (oid : Oid) (unit : Nat) (d : Decoded) (s : State) : Res := whenUp s fun s => fetchDone s oid unit d
/-- TIER3_UNCORRECTABLE (R359). -/
def execTier3Uncorrectable (oid : Oid) (unit : Nat) (s : State) : Res := whenUp s fun s => fetchBad s oid unit

end Sys2Proof.Machine
end

