-- ==== Sys2Proof/Machine/Boot.lean ====
section
/-! DEFINITION. Start-up (R645 to R666), the planned removal (R662), the configuration flash (R645 to R647), thermal shutdown
(R642), and the supply, enable and clock pins (R706 to R716). -/

namespace Sys2Proof.Machine

/-! ### The image's checks (R651) -/

/-- Whether a port keeps R25: 1, 2, 4 or 8 lanes that begin at a multiple of the width. -/
def portShapeOk (p : PortCfg) : Bool :=
  (p.width == 1 || p.width == 2 || p.width == 4 || p.width == 8) && p.lane.toNat % p.width.toNat == 0

/-- Whether two ports share no lane. -/
def lanesApart (a b : PortCfg) : Bool :=
  decide (a.lane.toNat + a.width.toNat ≤ b.lane.toNat) || decide (b.lane.toNat + b.width.toNat ≤ a.lane.toNat)

/-- Whether no two ports of a list share a lane. DESIGN CHOICE (log entry 16): an image with two ports on one lane, which neither R25 nor
R651 names, is refused. -/
def portsApart : List PortCfg → Bool
  | [] => true
  | p :: l => l.all (lanesApart p) && portsApart l

/-- A port as its image entry configures it, before training (Tables 12.5, 12.6). -/
def portFrom (c : PortCfg) : PortRec :=
  { PortRec.blank with
    width := c.width, role := c.role, classes := c.classes, cipher := c.cipher, degrade := c.degrade, peerDev := c.peerDev,
    peerPort := c.peerPort, enable := c.role != 0, lanesOk := 0xFF, lanes := List.replicate c.width.toNat ⟨false, false, 0, 0⟩ }

/-- Cells of a die that landing zones take (R526, R528); the host interface counts eight classes of a 4-lane port on die 0. -/
def landingCells (ports : List PortCfg) (die : Quad) : Nat :=
  let mine := ports.filter fun p => p.role != 0 && laneQuad p.lane == die
  let credits := (mine.map fun p => (portGrants (portFrom p)).sum).sum + if die = 0 then 7 * 12288 + 1024 else 0
  ceilDiv (16 * credits) 256

/-- Whether a port's ROLE and CIPHER are listed and fit each other (R509, R651). -/
def portFieldsOk (p : PortCfg) : Bool := p.role != 3 && p.cipher != 3 && (p.cipher == 0 || p.role == 2)

/-- Whether the WINDOWS section names the host interface and endpoint-facing ports alone (R651). -/
def winPortsOk (i : Image) : Bool :=
  i.windows.all fun x => match x.1 with
    | .lane p => i.ports.any fun c => c.lane == p && c.role == 1
    | .host => true
    | .own => false

/-- Whether a device has own functions in the ENDPOINTS section. -/
def namesDev (i : Image) (d : DevId) : Bool := i.eps.any fun x => x.dev == d && decide (x.at_ = .own)

/-- Whether R542 decides every device that the route set gives a route (R110, R543). -/
def routesOk (i : Image) : Bool :=
  i.routes.all fun r => r.dev == r.dest || (hopsOf (routeTree i.links i.routes [] r.dest) r.dev).isSome

/-- Whether the ports keep R25, their landing zones fit each die's buffer, and every trunk has 4 lanes or more (R528). -/
def portsOk (i : Image) : Bool :=
  i.ports.all portShapeOk && portsApart i.ports &&
    (([0, 1, 2, 3] : List Quad).all fun q => decide (landingCells i.ports q ≤ 24 * 2 ^ 20 / 256)) &&
    i.ports.all fun p => p.role != 2 || decide (4 ≤ p.width.toNat)

/-- The checks of R651 on one copy, in its order. -/
def imageChecks (i : Image) : List Bool :=
  [i.formOk, i.signerOk, i.sectsOk, i.digestOk, i.certOk, portsOk i, i.ports.all portFieldsOk, winPortsOk i,
    namesDev i i.registrar && namesDev i i.hostDev, routesOk i, decide (i.pool.length ≤ 64) && decide (i.t1Base.toNat % 2 ^ 39 = 0)]

/-- Whether a copy passes them all. -/
def imageOk (i : Image) : Bool := (imageChecks i).all id

/-- The case of R651 that refuses a copy, numbered in its order from 1; a copy that cannot be read is case 1. -/
def imageCase (i : Option Image) : Nat :=
  match i with
  | some i => (imageChecks i).findIdx (!·) + 1
  | none => 1

/-- The record of a refused copy. DESIGN CHOICE (log entry 47): its CELL names the case, with bit 4 set for copy B. -/
def imageRecord (s : State) (i : Option Image) (copyB : Bool) : State :=
  raise s (report 13 .none { locCtl with cell := imageCase i + 16 * bit copyB })

/-! ### Power-up (Table 17.4) -/

/-- Whether POWER_UP can begin: VIN and REFCLK within range, PWR_EN low before, or the supply just up, and after a thermal
shutdown every die below 90 °C (R642, R653, R706, R708, R716). -/
def mayBoot (s : State) : Bool :=
  decide (s.pins.vin ≠ .off) && s.pins.refclk &&
    match s.boot.held with
    | .none => s.boot.image.isNone && !s.boot.ready && !s.boot.failed && s.boot.step == 1
    | .off => true
    | .thermal => !s.pins.pwrEn && s.pwr.temps.all fun x => decide (x.2 < 720)
    | _ => !s.pins.pwrEn

/-- What survives the loss of every rail: the flash with its drydown region, the configuration flash, the fused SVN floor
(R616), and the model's own fields. -/
def coldState (s : State) : State :=
  let z := State.reset
  { z with
    ftl := { z.ftl with media := s.ftl.media }
    dry := { z.dry with image := s.dry.image }
    boot := { z.boot with cflash := s.boot.cflash, cfErased := s.boot.cfErased }
    pins := { s.pins with vin := .operating, pwrEn := true, pfailN := true, refclk := true, holdoverAt := none }
    sec := { z.sec with svnFloor := s.sec.svnFloor }
    free := s.free, out := s.out, pending := s.pending }

/-- Power-up stops at a step (R653). -/
def bootFail (s : State) (k : BitVec 4) : State :=
  setAlert { s with boot := { s.boot with step := k, failed := true, held := .failed } } alertBoot

/-- The boot header in use: a good CRC and the higher HSEQ (R646). -/
def bootHdr (b : BootInputs) : Option BootHdr :=
  match b.hdr0, b.hdr1 with
  | some x, some y => some (if x.hseq < y.hseq then y else x)
  | some x, none => some x
  | none, y => y

/-- Whether a bank's signature verifies and its SVN reaches the fused floor. -/
def bankOk (b : BootInputs) (f : FwBank) : Bool := f.verifies && decide (b.svnFloor ≤ f.svn)

/-- Step 2: the bank to run, with the header that goes with it; none when neither verifies (R646). -/
def bootBank (s : State) (b : BootInputs) : Option (State × Bool × FwBank) :=
  match bootHdr b with
  | none => none
  | some h =>
    let s := { s with boot := { s.boot with hdrs := [b.hdr0, b.hdr1].filterMap id } }
    let first := if h.bankB then b.bankB else b.bankA
    let other := if h.bankB then b.bankA else b.bankB
    if bankOk b first then some (if h.tryIt then writeHeader s h.bankB false else s, h.bankB, first)
    else if bankOk b other then some (raise (writeHeader s (!h.bankB) false) (report 13 .none locCtl), !h.bankB, other)
    else none

/-- Step 3: the copy used, and whether it is copy B; a refused copy raises a record (R651). -/
def bootImage (s : State) (b : BootInputs) : State × Option (Image × Bool) :=
  let good : Option Image → Option Image := fun i => i.bind fun i => if imageOk i then some i else none
  let s := if (good b.imgA).isSome then s else imageRecord s b.imgA false
  let s := if (good b.imgB).isSome then s else imageRecord s b.imgB true
  match good b.imgA, good b.imgB with
  | some x, some y => (s, some (if x.seq < y.seq then (y, true) else (x, false)))
  | some x, none => (s, some (x, false))
  | none, some y => (s, some (y, true))
  | none, none => (s, none)

/-- Step 7: the image's ports, each with ROLE other than 0 in training; the pools are what landing zones leave (R526). -/
def bootPorts (s : State) (i : Image) : State :=
  let s := { s with lnk := i.ports.map fun p => (p.lane, portFrom p)
                    swc := { s.swc with pool := ([0, 1, 2, 3] : List Quad).map fun q => 262144 - landingCells i.ports q } }
  (i.ports.filter fun p => p.role != 0).foldl (fun s p => trainStart s p.lane) s

/-- Step 8: flash discovery, journal and drydown replay (Tables 9.2, 10.6); the hold-up measurement runs (R427). -/
def bootFlash (s : State) (b : BootInputs) : State :=
  let s := discover { s with boot := { s.boot with huTimer := true } } b.disc
  if s.ftl.state = .online then replayOwn (drydownReplay s) else s

/-- The holder of the active host interface as this device knows it: at the registrar its host record, or the image; elsewhere it
is learnt from the registrar before the host port is enabled (R683, R688). -/
def bootHost (s : State) (i : Image) : Hp :=
  let d := s.hp.record.getD i.hostDev
  if i.registrar = i.device then { s.hp with hostDev := d, active := d == i.device, record := some d }
  else { s.hp with hostDev := i.hostDev, active := false, record := none }

/-- Step 9's tables: endpoints, routes with every trunk link failed (R552), pool, windows, quotas. -/
def bootTables (s : State) (i : Image) : State :=
  let ports := i.eps.filterMap fun x => match x.at_ with
    | .lane p => some (x.dev, p)
    | _ => none
  { s with
    swc := { s.swc with eps := modWhere i.eps (fun e => decide (e.at_ = .host)) (fun e => { e with dev := (bootHost s i).hostDev }), links := i.links, routes := i.routes, failed := List.range i.links.length,
                        unroutable := ports.eraseDups, cover := coverCount i.links i.routes }
    lse := { s.lse with pool := i.pool, synced := i.registrar == i.device }
    ing := { s.ing with wins := i.windows.map fun x => ((x.1, x.2.1), x.2.2) }
    obj := { s.obj with quotaLim := i.quotas.map fun x => ((x.1, x.2.1), x.2.2) }
    hp := bootHost s i }

/-- Step 9's tiles: 16 of each quadrant, lowest index first, not FAILED. -/
def bootTiles (s : State) : State :=
  ([0, 1, 2, 3] : List Quad).foldl (fun s q =>
    ((allTiles.filter fun t => tileQuad t == q && !(tileOf s t).failed).take 16).foldl (fun s t => modTile s t fun x => { x with gated := false }) s) s

/-- Measurements of steps 2 to 4 (Table 15.4). -/
def bootMeasure (s : State) (l : List (BitVec 3 × List Byte)) : State := l.foldl (fun s x => extend s x.1 x.2) s

/-- Steps 4 to 9 with the image in use. -/
def bootRest (s : State) (b : BootInputs) (f : FwBank) (i : Image) : State :=
  if !b.mgmtOk then bootFail s 4
  else
    let s := bootMeasure s [(1, f.mgmtDigest), (3, f.phyDigest)]
    if !b.stacksOk then bootFail s 5
    else
      let s := b.badTiles.foldl (fun s t => modTile s t fun x => { x with failed := true }) s
      let s := bootFlash (bootPorts { s with boot := { s.boot with step := 8 } } i) b
      let s := bootTiles (bootTables s i)
      { s with boot := { s.boot with step := 9, ready := true } }

/-- POWER_UP (R653): the steps of Table 17.4 in order. -/
def powerUp (s : State) (b : BootInputs) : State :=
  if !mayBoot s then s
  else
    let s := coldState s
    let b := { b with svnFloor := max b.svnFloor s.sec.svnFloor }
    match bootBank s b with
    | none => bootFail s 2
    | some (s, bankB, f) =>
      let s := bootMeasure { s with boot := { s.boot with bankB := bankB, incarnation := b.incarnation }
                                    sec := { s.sec with svn := f.svn, svnFloor := b.svnFloor } } [(0, b.bootRom), (0, f.rotDigest)]
      match bootImage s b with
      | (s, none) => bootFail s 3
      | (s, some (i, imgB)) =>
        let s := { s with boot := { s.boot with image := some i, imgSlotB := imgB, contain := i.contain }
                          obj := { s.obj with t1BaseHi := BitVec.ofNat 19 (i.t1Base.toNat / 2 ^ 39) }
                          ftl := { s.ftl with profile := i.profile } }
        bootRest (bootMeasure s [(2, i.digest), (4, i.rootsDigest)]) b f i

/-! ### The planned removal (Table 17.7) -/

/-- Steps 3 and 4: once every drain is complete, drydown runs and the device then holds itself in reset. -/
def shutdownStep (s : State) : State :=
  if s.boot.shutdown && !dryingDown s && isUp s && !(s.lnk.any fun x => x.2.st == 4) then beginDrydown s .shutdown else s

/-- SHUTDOWN (R662 steps 2 and 3): every port enters a drain. -/
def shutdownCmd (s : State) (w : Who) : State × Status :=
  if !isAdmin s w || !s.boot.ready then (s, .denied)
  else
    let s := { s with boot := { s.boot with shutdown := true } }
    ((s.lnk.map (·.1)).foldl (fun s p => (portDrainCmd s p).1) s, .ok)

/-! ### The configuration flash (Table 17.1, R647) -/

/-- A byte of the configuration flash. -/
def cflashRead (s : State) (a : Nat) : Byte :=
  match tget s.boot.cflash a with
  | some b => b
  | none => if s.boot.cfErased.contains (a / 65536) then Config.cflashErased else Config.cflashByte a

/-- Whether a byte stands erased. -/
def cflashBlank (s : State) (a : Nat) : Bool := (tget s.boot.cflash a).isNone && s.boot.cfErased.contains (a / 65536)

/-- A byte programmed. -/
def cflashPut (s : State) (a : Nat) (b : Byte) : State :=
  let v := if cflashBlank s a then b else Config.cflashOver (cflashRead s a) b
  { s with boot := { s.boot with cflash := tset s.boot.cflash a v } }

/-- Whether an address lies in the bank not running or the image copy not in use (R647). -/
def cflashOpen (s : State) (a : Nat) : Bool :=
  let bank := if s.boot.bankB then 0x00100000 else 0x01100000
  let img := if s.boot.imgSlotB then 0x02100000 else 0x02900000
  (decide (bank ≤ a) && decide (a < bank + 0x01000000)) || (decide (img ≤ a) && decide (a < img + 0x00800000))

/-- The bytes of a source's BOOT_FL_DATA. -/
def flBytes (p : Priv) : List Byte := (List.range 64).flatMap fun k => leBytes (tgetD p.flData (BitVec.ofNat 6 k) 0).toNat 4

/-- READ: 256 bytes into BOOT_FL_DATA (Table 17.12). -/
def flReadCmd (s : State) (w : Who) : State × Status :=
  let a := (privOf s w).flAddr.toNat
  if a % 256 ≠ 0 then (s, .denied)
  else
    let bs := (List.range 256).map fun k => cflashRead s (a + k)
    (modPriv s w fun p => { p with flData := (List.range 64).map fun k => (BitVec.ofNat 6 k, BitVec.ofNat 32 (leAt bs (4 * k) 4)) }, .ok)

/-- PROGRAM: 256 bytes from BOOT_FL_DATA, by an ADMIN session, in a region that is not in use (R647). -/
def flProgramCmd (s : State) (w : Who) : State × Status :=
  let a := (privOf s w).flAddr.toNat
  if a % 256 ≠ 0 || !isAdmin s w || !cflashOpen s a then (s, .denied)
  else ((flBytes (privOf s w)).zipIdx.foldl (fun s x => cflashPut s (a + x.2) x.1) s, .ok)

/-- ERASE: 64 KiB, by an ADMIN session, in a region that is not in use (R647). -/
def flEraseCmd (s : State) (w : Who) : State × Status :=
  let a := (privOf s w).flAddr.toNat
  if a % 65536 ≠ 0 || !isAdmin s w || !cflashOpen s a then (s, .denied)
  else
    let k := a / 65536
    ({ s with boot := { s.boot with cflash := s.boot.cflash.filter fun x => x.1 / 65536 != k
                                    cfErased := if s.boot.cfErased.contains k then s.boot.cfErased else s.boot.cfErased ++ [k] } }, .ok)

/-! ### Heat, supply, enable and clock -/

/-- THERMAL_READ (R639 to R642): the thermal loop, and the shutdown of a die above SHUT for 100 µs. -/
def thermalRow (s : State) (temps : List Int) : State :=
  if isUp s then
    let s := thermalRead s temps
    if overShut s then beginDrydown s .thermal else s
  else { s with pwr := { s.pwr with temps := temps.zipIdx.map fun x => (x.2, x.1) } }

/-- The rails but the always-on one off (R706, R710). -/
def railsOff (s : State) : State :=
  { s with boot := { s.boot with held := .off, ready := false, failed := false, shutdown := false }
           dry := { s.dry with armed := false } }

/-- VIN_RISE (Table 20.3 step 1): the always-on rail comes up, the counter held in reset. -/
def vinRise (s : State) : State :=
  if s.pins.vin = .off then railsOff { s with pins := { s.pins with vin := .low }, counter := 0 } else s

/-- VIN_LOW (R707): drydown when READY = 1 and PFAIL_N is high; it ends the hold of R432 and of a planned removal
(R662). -/
def vinLow (s : State) : State :=
  let s := { s with pins := { s.pins with vin := if s.pins.vin = .off then .off else .low } }
  if s.boot.held = .drydown || s.boot.held = .shutdown then railsOff s
  else if s.boot.ready && s.pins.pfailN then beginDrydown s .drydown else s

/-- VIN_FALL (R707): below 30 V every rail is off. -/
def vinFall (s : State) : State := railsOff { s with pins := { s.pins with vin := .off } }

/-- VIN_OVERVOLTAGE (R708): above 62 V. -/
def vinOver (s : State) : State :=
  setAlert (raise { s with pins := { s.pins with vin := .over } } (report 12 .none locCtl)) alertSupply

/-- VIN_OVERVOLTAGE_TRIP (R708): above 66 V. -/
def vinTrip (s : State) : State := beginDrydown { s with pins := { s.pins with vin := .over } } .overVoltage

/-- PWR_EN_FALL (R710). -/
def pwrEnFall (s : State) : State :=
  if !s.pins.pwrEn then s
  else
    let s := { s with pins := { s.pins with pwrEn := false } }
    if dryingDown s then s
    else match s.boot.held with
      | .none => if s.boot.ready && !s.boot.shutdown then beginDrydown s .drydown else railsOff s
      | .thermal => s
      | _ => railsOff s

/-- REFCLK_LOSS (R716): holdover begins. -/
def refclkLoss (s : State) : State :=
  if !s.pins.refclk then s
  else
    let now := s.counter
    setAlert (raise { s with pins := { s.pins with refclk := false, holdoverAt := some now } } (report 12 .none locCtl)) alertSupply

/-- HOLDOVER_END (R716): drydown, then the hold in reset. -/
def holdoverEnd (s : State) : State :=
  if s.pins.holdoverAt.isNone then s else beginDrydown { s with pins := { s.pins with holdoverAt := none } } .refclk

/-- REFCLK_RETURN (R716): the drydown that the loss called for still runs. -/
def refclkReturn (s : State) : State := { s with pins := { s.pins with refclk := true } }

/-! ### Rows -/

/-- POWER_UP (R653). -/
def execPowerUp (b : BootInputs) (s : State) : Res := .next (powerUp s b)
/-- THERMAL_READ (R640). -/
def execThermalRead (temps : List Int) (s : State) : Res := .next (thermalRow s temps)
/-- PORT_DRAIN_EMPTY (R521). -/
def execPortDrainEmpty (p : PortNo) (s : State) : Res := whenUp s fun s => shutdownStep (portDrainEmpty s p)
/-- PORT_DRAIN_TIMEOUT (R521). -/
def execPortDrainTimeout (p : PortNo) (s : State) : Res := whenUp s fun s => shutdownStep (portDrainTimeout s p)
/-- VIN_RISE (R706). -/
def execVinRise (s : State) : Res := .next (vinRise s)
/-- VIN_LOW (R707). -/
def execVinLow (s : State) : Res := .next (vinLow s)
/-- VIN_FALL (R707). -/
def execVinFall (s : State) : Res := .next (vinFall s)
/-- VIN_OVERVOLTAGE (R708). -/
def execVinOvervoltage (s : State) : Res := whenUp s vinOver
/-- VIN_OVERVOLTAGE_TRIP (R708). -/
def execVinOvervoltageTrip (s : State) : Res := whenUp s vinTrip
/-- PWR_EN_FALL (R710). -/
def execPwrEnFall (s : State) : Res := .next (pwrEnFall s)
/-- REFCLK_LOSS (R716). -/
def execRefclkLoss (s : State) : Res := whenUp s refclkLoss
/-- HOLDOVER_END (R716). -/
def execHoldoverEnd (s : State) : Res := whenUp s holdoverEnd
/-- REFCLK_RETURN (R716). -/
def execRefclkReturn (s : State) : Res := .next (refclkReturn s)

end Sys2Proof.Machine
end

