-- ==== Sys2Proof/Machine/HostMove.lean ====
section
/-! DEFINITION. The host link going down and coming up (R686, R687), and the move of the active host interface (R688,
Table 19.2). -/

namespace Sys2Proof.Machine

/-! ### The host link -/

/-- Whether this device's host port is enabled: it holds the active host interface, or a move makes it the holder (R683,
Table 19.2 step 1). -/
def hostEnabled (s : State) : Bool := s.hp.active || s.hp.moving

/-- Both PARAM frames are accepted: the host's arrived, and the host acknowledged this device's (R686). -/
def paramsDone (s : State) : Bool := s.hp.gotParam && s.hp.sentParam && !(s.hp.rb.any fun f => f.kind == hkParam)

/-- LINK rises once both PARAM frames are accepted and this device holds the host interface, or has loaded it: then a move ends with
OK (R686, Table 19.2 step 5). -/
def hostRise (s : State) : State :=
  if s.hp.link || !paramsDone s then s
  else if s.hp.active then { s with hp := { s.hp with link := true } }
  else if s.hp.moving && s.hp.hostDev == devId s then
    let w := s.hp.mover
    let s := { s with hp := { s.hp with link := true, active := true, moving := false, mover := none } }
    match w with
    | some w => finishCmd s w blkSwc .ok
    | none => s
  else s

/-! ### The move (Table 19.2) -/

/-- MOVE_HERE written (R688): DENIED at the holder and from other than an ADMIN session, BUSY_RETRY while a move runs, as far as this
device knows; step 1 otherwise. -/
def moveHereCmd (s : State) (w : Who) : State × Option Status :=
  if !isAdmin s w || s.hp.active then (s, some .denied)
  else if s.hp.moving || s.hp.move.isSome then (s, some .busyRetry)
  else (notify { s with hp := { s.hp with moving := true, mover := some w } } (registrarOf s) (.moveAsk (devId s)), none)

/-- HOST_MOVE_NOTICE (step 2): the registrar commits HOST = N and sends MOVE to the old holder; it refuses while it is not armed, the
buffer lacks room, or another move runs. -/
def hostMoveNotice (s : State) (new : DevId) : State :=
  if !isRegistrar s then s
  else if !s.dry.armed || !dryRoom s 0 hostLine || s.hp.move.isSome then notify s new .moveRetry
  else
    let old := s.hp.record.getD s.hp.hostDev
    let s := commitHost { s with hp := { s.hp with move := some ⟨new, old⟩ } } new
    notify s old (.moveOld new)

/-- HOST_MOVE_RETRY: step 1 is undone and the write completes with RETRY. -/
def hostMoveRetry (s : State) : State :=
  if !s.hp.moving || s.hp.hostDev == devId s then s
  else
    let w := s.hp.mover
    let s := hostOff { s with hp := { s.hp with moving := false, mover := none } }
    match w with
    | some w => finishCmd s w blkSwc .retry
    | none => s

/-- The host endpoint points at a holder (Table 19.2 step 4). -/
def pointEp (s : State) (d : DevId) : State :=
  { s with swc := { s.swc with eps := modWhere s.swc.eps (fun e => decide (e.at_ = .host)) fun e => { e with dev := d } } }

/-- The same, and HOST_DEV with it. -/
def pointHost (s : State) (d : DevId) : State :=
  let s := pointEp s d
  { s with hp := { s.hp with hostDev := d } }

/-- The update of a move passed on to the peer of every joined trunk that carries (R550, Table 19.2 step 4). -/
def floodHost (s : State) (holder origin : DevId) (nseq : Word) : State :=
  emits s ((s.lnk.filter fun x => x.2.role == 2 && x.2.st == 3 && x.2.joined).map fun x =>
    .notice x.2.peerDev (.hostAt holder origin nseq))

/-- This device's own update: applied and flooded under its next NSEQ. -/
def ownHostUpdate (s : State) (holder : DevId) : State :=
  let n := tgetD s.hp.nseqs (devId s) 0 + 1
  let s := pointHost { s with hp := { s.hp with nseqs := tset s.hp.nseqs (devId s) n } } holder
  let s := { s with hp := { s.hp with move := if s.hp.move.any fun m => m.new == holder then none else s.hp.move } }
  floodHost s holder (devId s) n

/-- The host windows that are not at their reset value. -/
def hostWins (s : State) : List (BitVec 8 × Win) :=
  s.ing.wins.filterMap fun x => if x.1.1 = .host then some (x.1.2, x.2) else none

/-- Offsets of the settings in an SHP_ set: rates, OVH, schedule and policers (R580). -/
def shpOffsets : List Nat :=
  [0x00, 0x04] ++ ((List.range 7).map fun c => 0x10 + 4 * c) ++ ((List.range 7).map fun c => 0x30 + 4 * c) ++
    ((List.range 7).map fun c => 0x50 + 4 * c) ++ [0x6C]

/-- HOST_MOVE_OLD (steps 3 and 4): the old holder hands over its windows and settings, takes its host link down, and points the host
endpoint at the new one. -/
def hostMoveOld (s : State) (new : DevId) : State :=
  if !s.hp.active || new == devId s then s
  else
    let set := shpOffsets.map fun o => (BitVec.ofNat 7 o, readShp s .host o)
    let s := notify s new (.moveState (hostWins s) set)
    ownHostUpdate (hostOff { s with hp := { s.hp with active := false } }) new

/-- The host windows replaced by others. -/
def loadHostWins (s : State) (ws : List (BitVec 8 × Win)) : State :=
  { s with ing := { s.ing with wins := s.ing.wins.filter (fun x => !decide (x.1.1 = .host)) ++ ws.map fun x => ((.host, x.1), x.2) } }

/-- HOST_MOVE_LOAD (step 5): the windows and settings handed over, or the image's windows and the reset settings when the old holder is
lost; the endpoint update is then this device's. -/
def hostMoveLoad (s : State) (h : HostHandover) : State :=
  if !s.hp.moving || (!h.handed && !s.lse.lostDevs.contains s.hp.hostDev) then s
  else
    let img := (s.boot.image.map fun i => i.windows.filterMap fun x => if x.1 = .host then some (x.2.1, x.2.2) else none).getD []
    let s := modShp (loadHostWins s (if h.handed then h.wins else img)) .host fun x =>
      let y := ShpSet.blank (ovhReset .host)
      admReset s .host s.shp.level { y with units := x.units, held := x.held, refused := x.refused, override := x.override }
    let s := (if h.handed then h.shp else []).foldl (fun s x => (writeShp s .host x.1.toNat x.2).1) s
    hostRise (if h.handed then pointHost s (devId s) else ownHostUpdate s (devId s))

/-- HOST_ENDPOINT_UPDATE (step 4): a newer update is applied and passed on; a device that held the interface gives it up; at the registrar
the move is known to have passed its old holder. -/
def hostEndpointUpdate (s : State) (holder origin : DevId) (nseq : Word) : State :=
  let newer := match tget s.hp.nseqs origin with
    | none => true
    | some h => decide (h < nseq)
  if !newer then s
  else
    let s := { s with hp := { s.hp with nseqs := tset s.hp.nseqs origin nseq } }
    let s := if s.hp.active && holder != devId s then hostOff { s with hp := { s.hp with active := false } } else s
    let s := if s.hp.moving then pointEp s holder else pointHost s holder
    let s := { s with hp := { s.hp with move := if s.hp.move.any fun m => m.new == holder then none else s.hp.move } }
    floodHost s holder origin nseq

end Sys2Proof.Machine
end

