-- ==== Sys2Proof/Machine/Removal.lean ====
section
/-! DEFINITION. A device's part in the removal of a tenant (Table 15.2, R599 to R602), and the rows by which the coordinator
and the root of trust go on. -/

namespace Sys2Proof.Machine

/-! ### Steps 2 and 3: marked -/

/-- Step 2 at this device: the slot freed, the tenant REMOVING, its coordinator recorded (R583, R602). -/
def markRemoving (s : State) (c : DevId) (t : TenantId) : State :=
  modTenant (freeSlot s t) t fun r => { r with removing := true, coord := some c }

/-- The dispatcher ends the tenant's engine requests with REVOKED (Table 15.2 step 2). DEDUCED (log entry 97): an ACC_OPEN among them with
DENIED, since REVOKED is no code of it (Table 5.10). -/
def revokeEngine (s : State) (t : TenantId) : State :=
  (s.eng.reqs.filter fun r => r.f.tenant == t).foldl
    (fun s r => endEng s r (if r.f.opcode = Op.accOpen then .denied else .revoked) []) s

/-- The tenant's accord rounds end with REVOKED (Table 15.2 step 2). -/
def revokeRounds (s : State) (t : TenantId) : State :=
  (s.acc.slots.filter fun x => x.2.tenant == t && decide (x.2.state = .active)).foldl (fun s x => endRound s x.1 .revoked) s

/-- The tenant's seals end with REVOKED; their units are never committed (Table 15.2 step 3). -/
def revokeSeals (s : State) (t : TenantId) : State :=
  (s.ftl.seals.filter fun r => r.f.tenant == t).foldl (fun s r => endSeal s r .revoked) s

/-- A removal at this device, changed. -/
def modRun (s : State) (t : TenantId) (f : RemStep → RemStep) : State :=
  match tget s.sec.runs t with
  | some r => { s with sec := { s.sec with runs := tset s.sec.runs t (f r) } }
  | none => s

/-- REMOVE_NOTICE (Table 15.2 steps 2 and 3): the tenant is marked and MARKED answered; a repeated notice is answered again,
and DRAINED with it once this device has drained (R602). -/
def removeNotice (s : State) (c : DevId) (t : TenantId) : State :=
  match tget s.sec.runs t with
  | some r =>
    let s := notify (modTenant (modRun s t fun r => { r with coord := c }) t fun x => { x with coord := some c }) c (.marked t)
    if r.drained then notify s c (.drainedTenant t) else s
  | none =>
    let r : RemStep := { coord := c, markedAt := s.counter, lastFrame := s.counter, drained := false, scrubAsked := false, scrubDone := false }
    let s := revokeSeals (revokeRounds (revokeEngine (markRemoving s c t) t) t) t
    notify { s with sec := { s.sec with runs := tset s.sec.runs t r } } c (.marked t)

/-! ### Steps 5 and 6: drained -/

/-- Whether work of a tenant is outstanding at this device: requests of its ingress, engine requests, reads, seals, and requests
its egress sent to a destination (Table 15.2 steps 5 and 6). -/
def tenantBusy (s : State) (t : TenantId) : Bool :=
  (s.ing.trk.any fun x => x.f.tenant == t) || (s.ing.buf.any fun x => x.f.tenant == t) ||
    (s.eng.reqs.any fun r => r.f.tenant == t) || (s.obj.reads.any fun r => r.f.tenant == t) ||
    (s.ftl.seals.any fun r => r.f.tenant == t) || s.egr.dest.any fun x => x.f.tenant == t

/-- TENANT_DMA_DRAIN (Table 15.2 steps 5 and 6): nothing of the tenant outstanding, and no frame of it for 330 µs. -/
def tenantDmaDrain (s : State) (t : TenantId) : State :=
  match tget s.sec.runs t with
  | some r =>
    if r.drained || tenantBusy s t || decide (s.counter < r.lastFrame + 330) then s
    else notify (modRun s t fun r => { r with drained := true }) r.coord (.drainedTenant t)
  | none => s

/-! ### Step 7: the scrub (R600, R601) -/

/-- Blocks that hold units of an unprotected home-tier-3 object (R601). -/
def objBlocks (s : State) (o : Obj) : List BlkAddr :=
  ((List.range (objUnits o)).filterMap fun u => match unitEnt s o u with
    | .mapped a => some a.blk
    | _ => none).eraseDups

/-- Blocks put on the relocation queue, and ERASE_PEND kept until each is erased (R601). -/
def eraseTenant (s : State) (t : TenantId) : State :=
  let bs := (s.obj.tab.flatMap fun x => if x.2.tenant == t && x.2.tier == 3 && !x.2.prot then objBlocks s x.2 else []).eraseDups
  modTenant (bs.foldl queueBlock s) t fun r => { r with eraseBlocks := (r.eraseBlocks ++ bs).eraseDups }

/-- Every object of the tenant deleted, alternates among them; the registrar is told of those with a gate (R600). -/
def deleteAll (s : State) (t : TenantId) : State :=
  (s.obj.tab.filter fun x => x.2.tenant == t && !x.2.deleted).foldl (fun s x =>
    let s := deleteObj s x.1
    if (tget s.lse.gates x.1).isSome then
      notify { s with lse := { s.lse with gates := tdel s.lse.gates x.1 } } (registrarOf s) (.gateAck x.1 false)
    else s) s

/-- Windows of the tenant set to VALID = 0, on composition ports as well (R600). -/
def dropWindows (s : State) (t : TenantId) : State :=
  let off : Win → Win := fun w => if winTenant w == t then { w with attr := w.attr &&& 0x7FFFFFFF } else w
  { s with ing := { s.ing with wins := tmap s.ing.wins fun _ w => off w } }

/-- Plans of the tenant end, their staging freed (R600). -/
def dropPlans (s : State) (t : TenantId) : State :=
  s.obj.plans.foldl (fun s x => if x.2.tenant == t then endPlan s x.1 else s) s

/-- SCRUB (R600, R601): what is deleted at once. A repeated SCRUB is answered again once the scrub is done. -/
def scrub (s : State) (c : DevId) (t : TenantId) : State :=
  match tget s.sec.runs t with
  | none => if isRemoving s t then s else notify s c (.scrubbed t)
  | some r =>
    if r.scrubDone then notify s c (.scrubbed t)
    else if !r.drained || r.scrubAsked then s
    else
      let s := dropPlans (dropWindows (deleteAll (eraseTenant s t) t) t) t
      let s := dryExposed (killRecs s fun x => x.tenant == t)
      let s := { s with egr := { s.egr with log := s.egr.log.filter fun x => x.tenant != t }
                        eng := { s.eng with tiles := tmap s.eng.tiles fun _ x => { x with tenants := x.tenants.filter fun y => y != t } } }
      modRun s t fun r => { r with coord := c, scrubAsked := true }

/-- TENANT_SCRUB_DONE (R600, Table 15.2 step 7): the deleted objects' space zeroized and freed; once none is left, SCRUBBED. -/
def tenantScrubDone (s : State) (t : TenantId) : State :=
  match tget s.sec.runs t with
  | some r =>
    if !r.scrubAsked || r.scrubDone then s
    else
      let s := (s.obj.tab.filter fun x => x.2.tenant == t).foldl (fun s x => objectScrubFree s x.1) s
      if s.obj.tab.any fun x => x.2.tenant == t then s
      else notify (modRun s t fun r => { r with scrubDone := true }) r.coord (.scrubbed t)
  | none => s

/-! ### Step 8 -/

/-- SCRUBBED (Table 15.2 step 8). At the coordinator it counts a device's answer, and once all are in, the other devices hear
of it by the same notice; at another device, from its coordinator, it ends the removal there. -/
def scrubbedNotice (s : State) (d : DevId) (t : TenantId) : State :=
  match tget s.sec.removals t with
  | some _ =>
    let s := removeScrubbed s d t
    if (tget s.sec.removals t).isSome then s
    else emits s (((domainDevs s).filter fun x => x != devId s).map fun x => .notice x (.scrubbed t))
  | none =>
    match tget s.sec.runs t with
    | some r => if r.coord == d && d != devId s && r.scrubDone then endRemoval s t else s
    | none => s

/-! ### Rows -/

/-- REMOVE_NOTICE (R599). -/
def execRemoveNotice (coord : DevId) (ten : TenantId) (s : State) : Res := whenUp s fun s => removeNotice s coord ten
/-- REMOVE_MARKED (R599). -/
def execRemoveMarked (dev : DevId) (ten : TenantId) (s : State) : Res := whenUp s fun s => removeMarked s dev ten
/-- TENANT_DMA_DRAIN (R599). -/
def execTenantDmaDrain (ten : TenantId) (s : State) : Res := whenUp s fun s => tenantDmaDrain s ten
/-- REMOVE_DRAINED (R599). -/
def execRemoveDrained (dev : DevId) (ten : TenantId) (s : State) : Res := whenUp s fun s => removeDrained s dev ten
/-- SCRUB (R600). -/
def execScrub (coord : DevId) (ten : TenantId) (s : State) : Res := whenUp s fun s => scrub s coord ten
/-- TENANT_SCRUB_DONE (R600). -/
def execTenantScrubDone (ten : TenantId) (s : State) : Res := whenUp s fun s => tenantScrubDone s ten
/-- REMOVE_RESEND (R602). -/
def execRemoveResend (ten : TenantId) (s : State) : Res := whenUp s fun s => removeResend s ten
/-- COORDINATOR_QUERY_RECEIVE (R602). -/
def execCoordinatorQueryReceive (dev : DevId) (ten : TenantId) (s : State) : Res :=
  whenUp s fun s => coordinatorQueryReceive s dev ten

end Sys2Proof.Machine
end

