-- ==== Sys2Proof/Machine/RegRead.lean ====
section
/-! DEFINITION. The registers as they read, block by block (Table 19.6 and the field maps it names). An offset that no field map
names reads zero (R698). -/

namespace Sys2Proof.Machine

/-- A number as a register reads. -/
def reg (n : Nat) : Word := BitVec.ofNat 32 n

/-- A row of registers: the index of an offset in `n` registers `step` bytes apart from `base`, and the byte within its stride. -/
def rowAt (base step n off : Nat) : Option (Nat × Nat) :=
  if base ≤ off && decide (off < base + step * n) then some ((off - base) / step, (off - base) % step) else none

/-- The register of an offset in a row with no bytes between its registers. -/
def cellAt (base n off : Nat) : Option Nat := (rowAt base 4 n off).map (·.1)

/-- BOOT_ (Tables 0.1, 17.8 to 17.13, 19.11, 19.12). -/
def readBoot (s : State) (p : Priv) (off : Nat) : Word :=
  let b := s.boot
  if off = 0x00 then Config.devid
  else if off = 0x04 then
    reg (bit b.ready * 2 ^ 31 + bit b.failed * 2 ^ 30 + bit b.contain * 2 ^ 29 + bit b.imgSlotB * 2 ^ 28 + bit b.bankB * 2 ^ 27 +
      bit b.shutdown * 2 ^ 26 + b.step.toNat)
  else if off = 0x08 then
    match b.image with
    | some i => i.seq.setWidth 32
    | none => 0
  else if off = 0x10 then p.flAddr.setWidth 32
  else if off = 0x18 then reg (b.mismatch * 2 ^ 16 + (s.lnk.filter fun x => x.2.role == 2 && x.2.joined).length)
  else if off = 0x40 then
    reg (bit s.mg.link * 2 ^ 31 + bit s.mg.v4 * 2 ^ 30 + (s.mg.sources.filter fun x => isSession x.w).length)
  else if off = 0x44 then (if s.mg.v4 then s.mg.ip else 0)
  else match cellAt 0x100 64 off with
    | some k => tgetD p.flData (BitVec.ofNat 6 k) 0
    | none => 0

/-- ERR_ (Tables 18.7 to 18.11). -/
def readErr (s : State) (p : Priv) (off : Nat) : Word :=
  let e := s.err
  if off = 0x00 then reg (e.lost * 2 ^ 16 + e.log.length)
  else if off = 0x04 then p.logIdx
  else if off = 0x08 then reg e.frameLost
  else if off = 0x0C then reg (e.cellN.toNat * 2 ^ 16 + e.blockN.toNat * 2 ^ 8 + e.resetN.toNat)
  else if off = 0x10 then e.alert.setWidth 32
  else if off = 0x14 then e.alertEn.setWidth 32
  else if off = 0x18 then e.resetting.setWidth 32
  else match cellAt 0x40 8 off with
    | some k => reg (leAt (logShown s p.logIdx) (4 * k) 4)
    | none => 0

/-- BLT_ (Tables 18.12, 18.13). -/
def readBlt (s : State) (off : Nat) : Word :=
  if off = 0x00 then reg (bit s.err.arm)
  else match rowAt 0x100 0x10 16 off with
    | some (n, k) => (bltWords (bltOf s (BitVec.ofNat 4 n))).getD (k / 4) 0
    | none => 0

/-- PWR_ (Tables 16.6 to 16.14). PWR_CAP reads the last value written. -/
def readPwr (s : State) (off : Nat) : Word :=
  let p := s.pwr
  if off = 0x00 then (p.capNext.getD p.cap).setWidth 32
  else if off = 0x04 then p.fastPct ++ p.hystPm ++ p.upInt ++ p.avgInt
  else if off = 0x08 then readPwrStat s
  else if off = 0x0C then reg (p.avgW * 2 ^ 16 + p.inW)
  else if off = 0x10 then p.phase
  else if off = 0x14 then readPwrNote s
  else if off = 0x18 then p.tThr.setWidth 32
  else match cellAt 0x100 32 off, cellAt 0x200 25 off with
    | some d, _ =>
      let (mv, pw) := tgetD p.doms (BitVec.ofNat 5 d) (0, 0)
      reg (mv * 2 ^ 16 + pw)
    | _, some i => (BitVec.ofInt 16 (tgetD p.temps i 0)).setWidth 32
    | _, _ => 0

/-- SEC_ (Tables 15.8 to 15.14). -/
def readSec (s : State) (p : Priv) (off : Nat) : Word :=
  if off = 0x00 then p.secTenant.setWidth 32
  else if off = 0x04 then reg ((Status.code p.secStat).toNat * 2 ^ 24 + p.secSlot.toNat)
  else if off = 0x08 then reg (updateCode s.sec.update * 2 ^ 30 + (s.sec.slots.filter fun x => x.2.active).length)
  else match cellAt 0x40 16 off, cellAt 0x200 128 off, cellAt 0x1000 1024 off, rowAt 0x2000 8 1024 off, cellAt 0x4000 4096 off with
    | some k, _, _, _, _ => tgetD p.secData (BitVec.ofNat 4 k) 0
    | _, some k, _, _, _ => reg (leAt p.quote (4 * k) 4)
    | _, _, some n, _, _ =>
      let k := slotOf s (BitVec.ofNat 10 n)
      reg (bit k.active * 2 ^ 31 + k.mode.toNat * 2 ^ 28 + k.tenant.toNat * 2 ^ 16 + k.gen.toNat)
    | _, _, _, some (n, k), _ => (slotOf s (BitVec.ofNat 10 n)).fp.extractLsb' (32 * (k / 4)) 32
    | _, _, _, _, some t =>
      let r := tenantOf s (BitVec.ofNat 12 t)
      reg (bit r.removing * 2 ^ 31 + bit (!r.eraseBlocks.isEmpty) * 2 ^ 30 + bit r.slot.isSome * 2 ^ 29 + (r.slot.getD 0).toNat)
    | _, _, _, _, _ => 0

/-- The words of SWC_RT_ENTRY for a device (Table 13.11). -/
def rtEntry (s : State) (d : DevId) (k : Nat) : Word :=
  let pair : PortNo × PortNo → BitVec 16 := fun x => x.2 ++ x.1
  match routeEntry s.swc.routes (devId s) d with
  | none => 0
  | some e =>
    if k = 0 then reg (2 ^ 31 + (e.slots.length - 1) * 2 ^ 28 + e.tAlt.toNat * 2 ^ 8 + e.tPri.toNat)
    else if k = 1 then pair (e.slots.getD 1 (0, 0)) ++ pair (e.slots.getD 0 (0, 0))
    else if k = 2 then pair (e.slots.getD 3 (0, 0)) ++ pair (e.slots.getD 2 (0, 0))
    else match effRoute s d with
      | some r => reg (2 ^ 31 + r.hops * 2 ^ 8 + r.port.toNat)
      | none => 0

/-- SWC_ (Tables 3.6 to 3.8, 13.5 to 13.11, 19.7 to 19.10, and the host windows of R81). -/
def readSwc (s : State) (off : Nat) : Word :=
  let w := s.swc
  if off = 0x40 then reg w.dropPushed
  else if off = 0x44 then reg w.dropAged
  else if off = 0x48 then reg w.dropFlushed
  else if off = 0x4C then reg w.dropVoided
  else if off = 0x50 then reg (bit w.ctEn * 2 + bit w.poEn)
  else if off = 0x60 then reg (bit w.adaptEn * 2 ^ 31 + w.margin.toNat)
  else if off = 0x64 then
    reg (w.failed.length * 2 ^ 16 + (s.lnk.filter fun x => x.2.role == 2 && decide (16 ≤ x.2.windows)).length)
  else if off = 0x68 then reg w.cover
  else if off = 0x100 then
    reg (s.cmb.joinUs.toNat * 2 ^ 8 + bit s.cmb.readEn * 4 + bit s.cmb.atomEn * 2 + bit s.cmb.enable)
  else if off = 0x104 then reg s.cmb.ents.length
  else if off = 0x108 then reg s.cmb.pass
  else if off = 0x200 then reg (s.hp.etype.toNat * 2 ^ 16 + s.hp.mtu.toNat)
  else if off = 0x208 then
    reg (bit s.hp.active * 2 ^ 31 + bit s.hp.link * 2 ^ 30 + bit s.hp.moving * 2 ^ 29 + s.hp.hostDev.toNat)
  else if off = 0x20C then reg (s.hp.replays * 2 ^ 16 + s.hp.fcs)
  else match cellAt 0x00 4 off, cellAt 0x20 8 off, rowAt 0x2000 0x10 64 off, rowAt 0x4000 0x20 256 off with
    | some q, _, _, _ => reg (freeCells s w.queue (BitVec.ofNat 2 q))
    | _, some c, _, _ => reg (maxCells s (BitVec.ofNat 3 c) / 16 * 2 ^ 16 + minCells s (BitVec.ofNat 3 c) / 16)
    | _, _, some (d, k), _ => rtEntry s (BitVec.ofNat 6 d) (k / 4)
    | _, _, _, some (n, k) => winRead (tgetD s.ing.wins (.host, BitVec.ofNat 8 n) noWin) (k / 4)
    | _, _, _, _ => 0

/-- The port of an SHP_ offset and the offset in its set (R580). -/
def shpAt (off : Nat) : Option (Port × Nat) :=
  if 0x7F80 ≤ off && decide (off < 0x8000) then some (.host, off - 0x7F80)
  else if 0x8000 ≤ off then some (.lane (BitVec.ofNat 8 ((off - 0x8000) / 0x80)), (off - 0x8000) % 0x80)
  else none

/-- SHP_ (Tables 14.2 to 14.8). -/
def readShpBlock (s : State) (off : Nat) : Word :=
  if off = 0x00 then reg (bit (s.shp.level != 0) * 2 ^ 31 + s.shp.level.toNat)
  else match shpAt off with
    | some (p, k) => readShp s p k
    | none => 0

/-- COH_ (Tables 3.9 to 3.11). -/
def readCoh (s : State) (off : Nat) : Word :=
  match rowAt 0x1000 0x10 256 off with
  | some (p, k) =>
    let r := partOf s (BitVec.ofNat 8 p)
    if k = 0 then reg (bit r.attach * 2 ^ 31 + r.cfgWays.toNat * 2 ^ 8 + r.cfgSets.toNat)
    else if k = 4 then
      reg (bit r.attached * 2 ^ 31 + bit r.detaching * 2 ^ 30 + bit r.failed * 2 ^ 29 + bit r.refused * 2 ^ 28 + r.lines.length)
    else if k = 8 then reg r.stray
    else 0
  | none => 0

/-- The functions in the order of ENG_FUNC_CTRL (Table 4.12). -/
def fnOrder : List EngFn := [.reduce, .gs, .filter, .score, .expand, .compat]

/-- A bit for each function that meets a condition. -/
def fnMask (p : EngFn → Bool) : Nat := (fnOrder.zipIdx.map fun (f, i) => bit (p f) * 2 ^ i).sum

/-- ENG_ (Tables 4.11 to 4.18, 6.7 to 6.9, 7.6, 7.7). -/
def readEng (s : State) (off : Nat) : Word :=
  let e := s.eng
  if off = 0x00 then reg (e.maxTiles.toNat * 2 ^ 16 + e.splitLog2.toNat)
  else if off = 0x04 then reg (fnMask fun f => e.enabled.contains f)
  else if off = 0x08 then reg (fnMask (fun f => e.draining.any fun x => decide (x.1 = f)) * 2 ^ 16 + fnMask fun f => e.abortedSeen.contains f)
  else if off = 0x0C then e.drainUs.setWidth 32
  else if off = 0x20 then reg e.satTotal
  else if off = 0x30 then e.selAllowUs.setWidth 32
  else if off = 0x34 then reg (e.selAlt * 2 ^ 16 + e.selMiss)
  else if off = 0x38 then reg e.fltTrunc
  else if off = 0x40 then reg (e.zskDamaged * 2 ^ 16 + e.zskRecovered)
  else if off = 0x44 then reg e.zskStall
  else match cellAt 0x10 4 off, rowAt 0x1000 0x10 512 off with
    | some q, _ =>
      let quad : Quad := BitVec.ofNat 2 q
      reg ((openTiles s [quad]).length * 2 ^ 16 + queuedIn s quad)
    | _, some (i, k) =>
      let t := tileOf s (BitVec.ofNat 9 i)
      if k = 0 then reg t.t0
      else if k = 4 then
        reg (bit t.gated * 2 ^ 31 + bit t.failed * 2 ^ 30 + bit (!t.queue.isEmpty) * 2 ^ 29 + t.queue.length)
      else 0
    | _, _ => 0

/-- STATE of an accord slot as it reads (Table 5.16). -/
def accCode : AccState → Nat
  | .free => 0
  | .idle => 1
  | .active => 2
  | .closing => 3

/-- ACC_ (Tables 5.11 to 5.16). -/
def readAcc (s : State) (off : Nat) : Word :=
  let used := s.acc.slots.filter fun x => decide (x.2.state ≠ .free)
  if off = 0x00 then s.acc.units.setWidth 32
  else if off = 0x04 then reg used.length
  else if off = 0x08 then reg (used.map fun x => x.2.members.length).sum
  else if off = 0x0C then reg s.acc.noslot
  else if off = 0x10 then reg s.acc.stray
  else match cellAt 0x1000 4096 off with
    | some n =>
      match tget s.acc.slots (BitVec.ofNat 12 n) with
      | some a => if a.state = .free then 0 else reg (accCode a.state * 2 ^ 30 + a.window * 2 ^ 23 + a.members.length)
      | none => 0
    | none => 0

/-- OBJ_ (Tables 8.9 to 8.16). -/
def readObj (s : State) (p : Priv) (off : Nat) : Word :=
  let o := s.obj
  if off = 0x00 then p.objTenant.setWidth 32
  else if off = 0x04 then reg ((Status.code p.objStat).toNat * 2 ^ 24)
  else if off = 0x10 then reg (p.quotaTier.toNat * 2 ^ 12 + p.quotaTenant.toNat)
  else if off = 0x14 then reg (tgetD o.quotaLim (p.quotaTenant, p.quotaTier) 0)
  else if off = 0x18 then reg (quotaUse s p.quotaTenant p.quotaTier)
  else if off = 0x20 then o.t1BaseHi.setWidth 32
  else if off = 0x24 then o.t3LatUs ++ o.t3Rate ++ o.allowUs
  else if off = 0x28 then reg (o.dlAlt * 2 ^ 16 + o.dlMiss)
  else if off = 0x2C then reg o.dmg
  else match cellAt 0x40 16 off with
    | some k => tgetD p.objData (BitVec.ofNat 4 k) 0
    | none => 0

/-- Erase counts of good blocks. -/
def goodErases (s : State) : List Nat :=
  let listed := (s.ftl.blocks.filter fun x => decide (x.2.use ≠ .bad)).map fun x => x.2.erases
  if listed.length < goodBlocks s then 0 :: listed else listed

/-- FTL_STAT as it reads (Table 9.16). -/
def ftlCode : FtlState → Nat
  | .discovering => 0
  | .formatting => 1
  | .replaying => 2
  | .online => 3
  | .offline => 4

/-- The health registers (Tables 9.21, 9.22). -/
def readHealth (s : State) (off : Nat) : Word :=
  let h := s.ftl.health
  let pct : Nat := if h.spareAtFormat = 0 then 0 else min 1023 (spareS s * 1000 / h.spareAtFormat)
  let wear : Nat :=
    let n := goodBlocks s * s.ftl.profile.endurance
    if n = 0 then 0 else min 65535 ((goodErases s).sum * 100 / n)
  let regs : List Nat := [pct, wear, (s.ftl.blocks.map fun x => x.2.erases).foldl max 0,
    ((goodErases s).tail.foldl min ((goodErases s).headD 0)), h.corr, h.retry, h.soft, h.uncorr, h.pgmFail, h.ersFail, h.grown,
    h.factory, h.refresh]
  match cellAt 0x100 13 off, cellAt 0x140 8 off with
  | some k, _ => reg (regs.getD k 0)
  | _, some b => reg (h.temps.getD b 0)
  | _, _ => 0

/-- FTL_ (Tables 9.13 to 9.22). -/
def readFtl (s : State) (off : Nat) : Word :=
  let f := s.ftl
  let g := f.geom
  if off = 0x00 then reg (f.targets * 2 ^ 24 + (g.luns - 1) * 2 ^ 20 + (g.planes - 1) * 2 ^ 18 + g.pages)
  else if off = 0x04 then reg (g.blocks - 1)
  else if off = 0x08 then reg (f.l % 2 ^ 32)
  else if off = 0x0C then reg (f.l / 2 ^ 32)
  else if off = 0x10 then
    reg (bit f.rdonly * 2 ^ 31 + bit (!f.gc.isEmpty) * 2 ^ 30 + bit (decide (freePm s < f.freeCrit.toNat) && decide (f.state ≠ .offline)) * 2 ^ 29 +
      ftlCode f.state * 2 ^ 24 + min 100 (f.jBytes * 100 / ringBytes) * 2 ^ 17 + freePm s)
  else if off = 0x20 then reg (f.freeHi.toNat * 2 ^ 20 + f.freeLo.toNat * 2 ^ 10 + f.freeCrit.toNat)
  else if off = 0x24 then f.share.setWidth 32
  else if off = 0x28 then f.wlDelta ++ f.patrolH ++ f.refreshBits
  else readHealth s off

/-- DRY_ (Tables 10.8 to 10.12). -/
def readDry (s : State) (off : Nat) : Word :=
  let d := s.dry
  if off = 0x00 then
    reg (bit d.armed * 2 ^ 31 + bit d.measured * 2 ^ 30 + bit d.huLow * 2 ^ 29 + bit d.exposed * 2 ^ 28 + bit d.drying * 2 ^ 27 +
      d.last.toNat * 2 ^ 25)
  else if off = 0x04 then reg d.huE
  else if off = 0x08 then reg d.huC
  else if off = 0x0C then reg (d.limit / 65536)
  else if off = 0x10 then reg (ceilDiv (dryUsed s) 65536)
  else if off = 0x14 then (if d.last = 1 then reg d.lastUs else 0)
  else if off = 0x18 then reg d.refuse
  else 0

/-- LSE_ (Tables 11.9 to 11.16). -/
def readLse (s : State) (p : Priv) (off : Nat) : Word :=
  if off = 0x00 then p.lseComp.setWidth 32
  else if off = 0x04 then reg ((Status.code p.lseStat).toNat * 2 ^ 24)
  else if off = 0x08 then s.lse.lostUs.setWidth 32
  else if off = 0x0C then
    reg (s.lse.staged.length * 2 ^ 17 + (s.lse.leases.filter fun x => decide (x.2.state ≠ .free)).length)
  else match cellAt 0x40 8 off, cellAt 0x1000 1024 off, cellAt 0x2000 1024 off, cellAt 0x3000 256 off with
    | some k, _, _, _ => tgetD p.lseData (BitVec.ofNat 3 k) 0
    | _, some c, _, _ =>
      let r := compRec s (BitVec.ofNat 10 c)
      reg ((compCode r.state).toNat * 2 ^ 30 + bit r.sillage * 2 ^ 29 + r.home.toNat * 2 ^ 23 + r.epoch.toNat)
    | _, _, some c, _ => reg (oldOut s (BitVec.ofNat 10 c))
    | _, _, _, some n => (portCompOf s (.lane (BitVec.ofNat 8 n))).setWidth 32
    | _, _, _, _ => 0

/-- LNK_ of a port (Tables 12.5 to 12.10, 2.6). -/
def readLnk (s : State) (p : PortNo) (off : Nat) : Word :=
  let r := portOf s p
  if off = 0x00 then
    reg (r.peerDev.toNat * 2 ^ 24 + r.cipher.toNat * 2 ^ 16 + bit r.degrade * 2 ^ 15 + r.role.toNat * 2 ^ 8 + r.width.toNat)
  else if off = 0x04 then reg (bit r.drain * 4 + bit r.enable)
  else if off = 0x08 then
    reg (r.st.toNat * 2 ^ 29 + (if portCarries r then r.actWidth.toNat else 0) * 2 ^ 25 + bit r.auth * 2 ^ 24 + bit r.enc * 2 ^ 23 +
      r.lastFault.toNat * 2 ^ 16 + r.retrains)
  else if off = 0x0C then reg r.replays
  else if off = 0x10 then reg r.crcErr
  else if off = 0x14 then reg r.tagErr
  else if off = 0x18 then reg (unacked r)
  else match cellAt 0x100 8 off, rowAt 0x4000 0x20 256 off with
    | some i, _ =>
      match r.lanes[i]? with
      | some l => reg (bit l.lock * 2 ^ 31 + bit l.trained * 2 ^ 30 + l.corr.toNat)
      | none => 0
    | _, some (n, k) => if isEndpointPort s p then winRead (tgetD s.ing.wins (.lane p, BitVec.ofNat 8 n) noWin) (k / 4) else 0
    | _, _ => 0

end Sys2Proof.Machine
end

