-- ==== Sys2Proof/Machine/RegWrite.lean ====
section
/-! DEFINITION. The registers as they are written, block by block (R7, R698): each field as its access type states, and the commands
their command fields start. An answer of none: the command has not yet taken effect (R691). -/

namespace Sys2Proof.Machine

/-- A write with its answer, or none while its command runs. -/
abbrev Written := State × Option Status

/-- A write that has taken effect. -/
def done (s : State) : Written := (s, some .ok)

/-- An answer known at once. -/
def told (x : State × Status) : Written := (x.1, some x.2)

/-- A counter field after a write: cleared by all ones over the whole field only (R7). -/
def clearField (v : Word) (lo width n : Nat) : Nat := if bitsOf v.toNat lo width = 2 ^ width - 1 then 0 else n

/-- The OP field of a command register. -/
def opOf (v : Word) : Nat := v.toNat / 2 ^ 28

/-! ### Commands of a block (R693) -/

/-- FORMAT written to FTL_CMD (Table 9.20, R413): the tier is formatting until the flash reports. -/
def formatStart (s : State) (op : Nat) : Written :=
  if op ≠ 1 ∨ s.ftl.state ≠ .offline then (s, some .denied)
  else ({ s with ftl := { s.ftl with state := .formatting } }, none)

/-- A command as it starts in its block. -/
def cmdEffect (s : State) (b : BlockCmd) : Written :=
  if b.block = blkObj then objCommand s b.w (opOf b.v) (b.v.setWidth 12)
  else if b.block = blkLse then lseCommand s b.w (opOf b.v) (b.v.setWidth 10)
  else if b.block = blkSec then secCommand s b.w (opOf b.v) (b.v.setWidth 12)
  else if b.block = blkFtl then formatStart s (opOf b.v)
  else moveHereCmd s b.w

/-- Whether a command answers at once while another of its block runs (R602, R611, R615, R688). -/
def atOnce (s : State) (block : BitVec 16) (v : Word) : Bool :=
  (block == blkSec && secAtOnce s (opOf v) (v.setWidth 12)) || block == blkFtl || block == blkSwc

/-- The RW field beside OP written in the source's own copy (Tables 8.9, 11.9, 15.8). -/
def cmdField (s : State) (w : Who) (block : BitVec 16) (v : Word) : State :=
  modPriv s w fun p =>
    if block = blkObj then { p with objTenant := v.setWidth 12 }
    else if block = blkLse then { p with lseComp := v.setWidth 10 }
    else if block = blkSec then { p with secTenant := v.setWidth 12 }
    else p

/-- A command started: answered at once with its CMD_STAT set, or running in its block. -/
def startCmd (s : State) (b : BlockCmd) : Written :=
  match cmdEffect s b with
  | (s, some st) => (setCmdStat s b.w b.block st, some st)
  | (s, none) => ({ s with mg := { s.mg with blocks := s.mg.blocks ++ [{ b with started := true }] } }, none)

/-- A command field written: commands of one block run one at a time, in the order their writes are accepted (R693). -/
def cmdWrite (s : State) (w : Who) (block off : BitVec 16) (v : Word) (msg : Bool) : Written :=
  let b : BlockCmd := { block := block, off := off, w := w, v := v, started := false, msg := msg, gone := false }
  let s := cmdField s w block v
  if s.mg.blocks.any (fun x => x.block == block) && !atOnce s block v then
    ({ s with mg := { s.mg with blocks := s.mg.blocks ++ [b] } }, none)
  else startCmd s b

/-! ### Blocks -/

/-- BOOT_. -/
def writeBoot (s : State) (w : Who) (off : Nat) (v : Word) : Written :=
  if off = 0x0C then (if opOf v = 1 then told (shutdownCmd s w) else (s, some .denied))
  else if off = 0x10 then done (modPriv s w fun p => { p with flAddr := v.setWidth 26 })
  else if off = 0x14 then
    (if opOf v = 1 then told (flReadCmd s w) else if opOf v = 2 then told (flProgramCmd s w)
     else if opOf v = 3 then told (flEraseCmd s w) else (s, some .denied))
  else if off = 0x18 then done { s with boot := { s.boot with mismatch := clearField v 16 16 s.boot.mismatch } }
  else match cellAt 0x100 64 off with
    | some k => done (modPriv s w fun p => { p with flData := tset p.flData (BitVec.ofNat 6 k) v })
    | none => done s

/-- ERR_. -/
def writeErr (s : State) (w : Who) (off : Nat) (v : Word) : Written :=
  let e := s.err
  if off = 0x00 then done { s with err := { e with lost := clearField v 16 16 e.lost } }
  else if off = 0x04 then done (modPriv s w fun p => { p with logIdx := v })
  else if off = 0x08 then done { s with err := { e with frameLost := clearField v 0 32 e.frameLost } }
  else if off = 0x0C then
    done { s with err := { e with cellN := v.extractLsb' 16 8, blockN := v.extractLsb' 8 8, resetN := v.extractLsb' 0 8 } }
  else if off = 0x10 then done { s with err := { e with alert := e.alert &&& ~~~(v.setWidth 9) } }
  else if off = 0x14 then done { s with err := { e with alertEn := v.setWidth 9 } }
  else done s

/-- An entry of the Blotter with one of its registers written, or none when KIND and ACTION are not listed (Table 18.13). -/
def writeBltEntry (b : Blt) (k : Nat) (v : Word) : Option Blt :=
  if k = 0 then
    let kind : BitVec 4 := v.extractLsb' 28 4
    let act : BitVec 4 := v.extractLsb' 24 4
    if bltListed kind act then some { b with kind := kind, action := act, every := v.extractLsb' 0 16 } else none
  else if k = 4 then some { b with portStack := v.extractLsb' 16 8, sub := v.extractLsb' 8 8 }
  else if k = 8 then some { b with granule := v }
  else if k = 12 then some { b with count := v.extractLsb' 0 16 }
  else some b

/-- BLT_: entries only while ARM = 0 (R679). -/
def writeBlt (s : State) (w : Who) (off : Nat) (v : Word) : Written :=
  if off = 0x00 then told (bltArmCmd s w (v.getLsbD 0))
  else match rowAt 0x100 0x10 16 off with
    | some (n, k) =>
      if s.err.arm then (s, some .denied)
      else match writeBltEntry (bltOf s (BitVec.ofNat 4 n)) k v with
        | some b => done { s with err := { s.err with blt := tset s.err.blt (BitVec.ofNat 4 n) b } }
        | none => (s, some .denied)
    | none => done s

/-- PWR_. -/
def writePwr (s : State) (off : Nat) (v : Word) : Written :=
  let p := s.pwr
  if off = 0x00 then told (writeCap s v)
  else if off = 0x04 then
    done { s with pwr := { p with fastPct := v.extractLsb' 24 8, hystPm := v.extractLsb' 16 8, upInt := v.extractLsb' 8 8
                                  avgInt := v.extractLsb' 0 8 } }
  else if off = 0x08 then
    done { s with pwr := { p with unmetSeen := p.unmetSeen && !v.getLsbD 28, droopSeen := p.droopSeen && !v.getLsbD 25 } }
  else if off = 0x10 then told (writePhase s v)
  else if off = 0x18 then done { s with pwr := { p with tThr := v.setWidth 8 } }
  else done s

/-- SEC_: key bytes are taken over management sessions only (Table 15.11). -/
def writeSec (s : State) (w : Who) (off : Nat) (v : Word) (msg : Bool) : Written :=
  if off = 0x00 then cmdWrite s w blkSec 0 v msg
  else match cellAt 0x40 16 off, cellAt 0x80 16 off with
    | some k, _ => done (modPriv s w fun p => { p with secData := tset p.secData (BitVec.ofNat 4 k) v })
    | _, some k =>
      if !isSession w then (s, some .denied)
      else
        done (modPriv s w fun p =>
          { p with secKey := tset p.secKey (BitVec.ofNat 4 k) v, keyMask := p.keyMask ||| BitVec.ofNat 16 (2 ^ k) })
    | _, _ => done s

/-- SWC_HP_CFG: the MTU between 1,500 and 9,000, and not while LINK = 1 (Table 19.7). -/
def writeHpCfg (s : State) (v : Word) : State × Status :=
  let mtu : BitVec 14 := v.extractLsb' 0 14
  if mtu < 1500 || 9000 < mtu || s.hp.link then (s, .denied)
  else ({ s with hp := { s.hp with etype := v.extractLsb' 16 16, mtu := mtu } }, .ok)

/-- SWC_. -/
def writeSwc (s : State) (w : Who) (off : Nat) (v : Word) (msg : Bool) : Written :=
  let x := s.swc
  if off = 0x40 then done { s with swc := { x with dropPushed := clearW1 v x.dropPushed } }
  else if off = 0x44 then done { s with swc := { x with dropAged := clearW1 v x.dropAged } }
  else if off = 0x48 then done { s with swc := { x with dropFlushed := clearW1 v x.dropFlushed } }
  else if off = 0x4C then done { s with swc := { x with dropVoided := clearW1 v x.dropVoided } }
  else if off = 0x50 then done { s with swc := { x with ctEn := v.getLsbD 1, poEn := v.getLsbD 0 } }
  else if off = 0x60 then done { s with swc := { x with adaptEn := v.getLsbD 31, margin := v.extractLsb' 0 16 } }
  else if off = 0x100 then
    done { s with cmb := { s.cmb with joinUs := v.extractLsb' 8 8, readEn := v.getLsbD 2, atomEn := v.getLsbD 1, enable := v.getLsbD 0 } }
  else if off = 0x108 then done { s with cmb := { s.cmb with pass := clearW1 v s.cmb.pass } }
  else if off = 0x200 then told (writeHpCfg s v)
  else if off = 0x204 then (if v.getLsbD 0 then cmdWrite s w blkSwc 0x204 v msg else done s)
  else if off = 0x20C then
    done { s with hp := { s.hp with replays := clearField v 16 16 s.hp.replays, fcs := clearField v 0 16 s.hp.fcs } }
  else match cellAt 0x20 8 off, rowAt 0x4000 0x20 256 off with
    | some c, _ => told (writeClsCfg s (BitVec.ofNat 3 c) v)
    | _, some (n, k) => told (writeWindow s .host (BitVec.ofNat 8 n) (BitVec.ofNat 3 (k / 4)) v)
    | _, _ => done s

/-- SHP_. -/
def writeShpBlock (s : State) (off : Nat) (v : Word) : Written :=
  match shpAt off with
  | some (p, k) => told (writeShp s p k v)
  | none => done s

/-- COH_ of a port. -/
def writeCoh (s : State) (off : Nat) (v : Word) : Written :=
  match rowAt 0x1000 0x10 256 off with
  | some (n, k) =>
    let p : PortNo := BitVec.ofNat 8 n
    if k = 0 then told (if v.getLsbD 31 then cohAttach s p (v.extractLsb' 8 4) (v.extractLsb' 0 4) else cohDetach s p (v.extractLsb' 8 4) (v.extractLsb' 0 4))
    else if k = 4 then done (modPart s p fun r => { r with failed := r.failed && !v.getLsbD 29, refused := r.refused && !v.getLsbD 28 })
    else if k = 8 then done (modPart s p fun r => { r with stray := clearW1 v r.stray })
    else done s
  | none => done s

/-- ENG_FUNC_CTRL: each function whose bit changes is disabled or enabled (R211, R214). -/
def writeFuncs (s : State) (v : Word) : State :=
  fnOrder.zipIdx.foldl (fun s (f, i) => if v.getLsbD i then enableFn s f else disableFn s f) s

/-- ENG_. -/
def writeEng (s : State) (off : Nat) (v : Word) : Written :=
  let e := s.eng
  if off = 0x00 then done { s with eng := { e with maxTiles := v.extractLsb' 16 10, splitLog2 := v.extractLsb' 0 5 } }
  else if off = 0x04 then done (writeFuncs s v)
  else if off = 0x08 then
    done { s with eng := { e with abortedSeen := e.abortedSeen.filter fun f =>
      !(fnOrder.zipIdx.any fun x => decide (x.1 = f) && v.getLsbD x.2) } }
  else if off = 0x0C then done { s with eng := { e with drainUs := v.extractLsb' 0 16 } }
  else if off = 0x20 then done { s with eng := { e with satTotal := clearW1 v e.satTotal } }
  else if off = 0x30 then done { s with eng := { e with selAllowUs := v.setWidth 8 } }
  else if off = 0x34 then done { s with eng := { e with selAlt := clearField v 16 16 e.selAlt, selMiss := clearField v 0 16 e.selMiss } }
  else if off = 0x38 then done { s with eng := { e with fltTrunc := clearW1 v e.fltTrunc } }
  else if off = 0x40 then
    done { s with eng := { e with zskDamaged := clearField v 16 16 e.zskDamaged, zskRecovered := clearField v 0 16 e.zskRecovered } }
  else if off = 0x44 then done { s with eng := { e with zskStall := clearW1 v e.zskStall } }
  else match rowAt 0x1000 0x10 512 off with
    | some (i, k) => if k = 0 then told (writeT0 s (BitVec.ofNat 9 i) v) else done s
    | none => done s

/-- ACC_. -/
def writeAcc (s : State) (off : Nat) (v : Word) : Written :=
  if off = 0x00 then done { s with acc := { s.acc with units := v.extractLsb' 0 3 } }
  else if off = 0x0C then done { s with acc := { s.acc with noslot := clearW1 v s.acc.noslot } }
  else if off = 0x10 then done { s with acc := { s.acc with stray := clearW1 v s.acc.stray } }
  else done s

/-- OBJ_. -/
def writeObj (s : State) (w : Who) (off : Nat) (v : Word) (msg : Bool) : Written :=
  let o := s.obj
  if off = 0x00 then cmdWrite s w blkObj 0 v msg
  else if off = 0x10 then done (modPriv s w fun p => { p with quotaTier := v.extractLsb' 12 2, quotaTenant := v.setWidth 12 })
  else if off = 0x14 then
    let p := privOf s w
    if isRemoving s p.quotaTenant then (s, some .denied)
    else done { s with obj := { o with quotaLim := tset o.quotaLim (p.quotaTenant, p.quotaTier) v.toNat } }
  else if off = 0x24 then
    done { s with obj := { o with t3LatUs := v.extractLsb' 20 12, t3Rate := v.extractLsb' 8 12, allowUs := v.extractLsb' 0 8 } }
  else if off = 0x28 then done { s with obj := { o with dlAlt := clearField v 16 16 o.dlAlt, dlMiss := clearField v 0 16 o.dlMiss } }
  else if off = 0x2C then done { s with obj := { o with dmg := clearW1 v o.dmg } }
  else match cellAt 0x40 16 off with
    | some k => done (modPriv s w fun p => { p with objData := tset p.objData (BitVec.ofNat 4 k) v })
    | none => done s

/-- FTL_. -/
def writeFtl (s : State) (w : Who) (off : Nat) (v : Word) (msg : Bool) : Written :=
  if off = 0x20 then told (writeGcCfg s v)
  else if off = 0x24 then done { s with ftl := { s.ftl with share := v.setWidth 7 } }
  else if off = 0x28 then
    done { s with ftl := { s.ftl with wlDelta := v.extractLsb' 16 16, patrolH := v.extractLsb' 8 8, refreshBits := v.extractLsb' 0 8 } }
  else if off = 0x40 then cmdWrite s w blkFtl 0x40 v msg
  else done s

/-- DRY_. -/
def writeDry (s : State) (off : Nat) (v : Word) : Written :=
  if off = 0x18 then done { s with dry := { s.dry with refuse := clearW1 v s.dry.refuse } } else done s

/-- LSE_. -/
def writeLse (s : State) (w : Who) (off : Nat) (v : Word) (msg : Bool) : Written :=
  if off = 0x00 then cmdWrite s w blkLse 0 v msg
  else if off = 0x08 then done { s with lse := { s.lse with lostUs := v.setWidth 16 } }
  else match cellAt 0x40 8 off with
    | some k => done (modPriv s w fun p => { p with lseData := tset p.lseData (BitVec.ofNat 3 k) v })
    | none => done s

/-- LNK_PORT_CTRL (Table 12.6): ENABLE = 0 takes the port down; with ENABLE = 1, RETRAIN starts an attempt, and DRAIN then a drain. -/
def writePortCtrl (s : State) (p : PortNo) (v : Word) : State × Status :=
  if !v.getLsbD 0 then portDisableCmd s p
  else
    let x := if v.getLsbD 1 then retrainCmd (modPort s p fun r => { r with enable := true }) p else portEnableCmd s p
    if v.getLsbD 2 then portDrainCmd x.1 p else x

/-- LNK_ of a port. -/
def writeLnk (s : State) (p : PortNo) (off : Nat) (v : Word) : Written :=
  if off = 0x04 then told (writePortCtrl s p v)
  else if off = 0x0C then done (modPort s p fun r => { r with replays := clearW1 v r.replays })
  else if off = 0x10 then done (modPort s p fun r => { r with crcErr := clearW1 v r.crcErr })
  else if off = 0x14 then done (modPort s p fun r => { r with tagErr := clearW1 v r.tagErr })
  else match rowAt 0x4000 0x20 256 off with
    | some (n, k) => told (writeWindow s (.lane p) (BitVec.ofNat 8 n) (BitVec.ofNat 3 (k / 4)) v)
    | none => done s

end Sys2Proof.Machine
end

