-- ==== Sys2Proof/Machine/Mgmt.lean ====
section
/-! DEFINITION. The management address space and its rights (R696 to R699, R608), messages and their order (R691 to R693, R730), and
sessions (R607, R609, R689). -/

namespace Sys2Proof.Machine

/-! ### Access (R697 to R699) -/

/-- The block index of a management address. -/
def blkOfAddr (a : Word) : BitVec 16 := a.extractLsb' 16 16

/-- The offset of a management address within its block. -/
def offOfAddr (a : Word) : Nat := (a.extractLsb' 0 16).toNat

/-- A management address (R697). -/
def mgmtAddr (block : BitVec 16) (off : Nat) : Word := block ++ BitVec.ofNat 16 off

/-- The LNK_ block of a port (Table 19.6). -/
def blkLnk (p : PortNo) : BitVec 16 := 0x0100 + p.setWidth 16

/-- The port of a LNK_ block. -/
def lnkPort (block : BitVec 16) : PortNo := block.setWidth 8

/-- Whether a block exists: those of Table 19.6, and the LNK_ block of a configured port (R697, R698). -/
def blockKnown (s : State) (block : BitVec 16) : Bool :=
  block ≤ 0x000D || (0x0100 ≤ block && block ≤ 0x01FF && (portOf s (lnkPort block)).role != 0)

/-- What the host path may write (Table 19.5). -/
def hostWrites (block : BitVec 16) (off : Nat) : Bool :=
  (block == blkObj && (off == 0x00 || off == 0x10 || (cellAt 0x40 16 off).isSome)) ||
    (block == blkLse && (off == 0x00 || (cellAt 0x40 8 off).isSome)) || (block == blkErr && off == 0x04)

/-- What a session of role AUDITOR may write: the private read selectors, and QUOTE with its data (Table 15.3). -/
def auditorWrites (block : BitVec 16) (off : Nat) (v : Word) : Bool :=
  (block == blkErr && off == 0x04) || (block == blkObj && off == 0x10) ||
    (block == blkSec && ((cellAt 0x40 16 off).isSome || (off == 0x00 && opOf v == 4)))

/-- Whether a source may write a register (R608, R696). -/
def mayWrite (s : State) (w : Who) (block : BitVec 16) (off : Nat) (v : Word) : Bool :=
  match w with
  | .hostPath => hostWrites block off
  | .session _ =>
    match roleOf s w with
    | some .auditor => auditorWrites block off v
    | some _ => true
    | none => false

/-- Whether a source may read a block (Table 19.5): the host path all but BLT_. -/
def mayRead (w : Who) (block : BitVec 16) : Bool := !(decide (w = .hostPath) && block == blkBlt)

/-- Blocks that the management cores serve: BUSY_RETRY during their partial reset (R699). -/
def blockBusy (s : State) (block : BitVec 16) : Bool :=
  isResetting s 0 && (block == blkObj || block == blkLse || block == blkSec || block == blkFtl)

/-- What an access is refused with before its register is reached, if it is. -/
def accessRefused (s : State) (block : BitVec 16) (allowed : Bool) : Option Status :=
  if !blockKnown s block || !allowed then some .denied else if blockBusy s block then some .busyRetry else none

/-- A register as it reads to a source. -/
def readReg (s : State) (w : Who) (a : Word) : Word :=
  let p := privOf s w
  let off := offOfAddr a
  match (blkOfAddr a).toNat with
  | 0x0 => readBoot s p off
  | 0x1 => readErr s p off
  | 0x2 => readBlt s off
  | 0x3 => readPwr s off
  | 0x4 => readSec s p off
  | 0x5 => readSwc s off
  | 0x6 => readShpBlock s off
  | 0x7 => readCoh s off
  | 0x8 => readEng s off
  | 0x9 => readAcc s off
  | 0xA => readObj s p off
  | 0xB => readFtl s off
  | 0xC => readDry s off
  | 0xD => readLse s p off
  | _ => readLnk s (lnkPort (blkOfAddr a)) off

/-- A read access with its status. -/
def readAccess (s : State) (w : Who) (a : Word) : Word × Status :=
  match accessRefused s (blkOfAddr a) (mayRead w (blkOfAddr a)) with
  | some st => (0, st)
  | none => (readReg s w a, .ok)

/-- A register written by a source. -/
def writeReg (s : State) (w : Who) (a v : Word) (msg : Bool) : Written :=
  let off := offOfAddr a
  match (blkOfAddr a).toNat with
  | 0x0 => writeBoot s w off v
  | 0x1 => writeErr s w off v
  | 0x2 => writeBlt s w off v
  | 0x3 => writePwr s off v
  | 0x4 => writeSec s w off v msg
  | 0x5 => writeSwc s w off v msg
  | 0x6 => writeShpBlock s off v
  | 0x7 => writeCoh s off v
  | 0x8 => writeEng s off v
  | 0x9 => writeAcc s off v
  | 0xA => writeObj s w off v msg
  | 0xB => writeFtl s w off v msg
  | 0xC => writeDry s off v
  | 0xD => writeLse s w off v msg
  | _ => writeLnk s (lnkPort (blkOfAddr a)) off v

/-- What a write access is refused with, if it is. -/
def writeRefused (s : State) (w : Who) (a v : Word) : Option Status :=
  accessRefused s (blkOfAddr a) (mayWrite s w (blkOfAddr a) (offOfAddr a) v)

/-- A write access. -/
def writeAccess (s : State) (w : Who) (a v : Word) (msg : Bool) : Written :=
  match writeRefused s w a v with
  | some st => (s, some st)
  | none => writeReg s w a v msg

/-- One command or register write of a source that is open, by itself: refused, or carried out and answered when it has taken
effect (R691). -/
def oneWrite (s : State) (w : Who) (a v : Word) (f : State → Written) : State :=
  match sourceOf s w with
  | none => s
  | some _ =>
    match writeRefused s w a v with
    | some st => respondOne s w a st
    | none =>
      match f s with
      | (s, some st) => respondOne s w a st
      | (s, none) => s

/-! ### Messages (R690 to R694, R730) -/

/-- A response on its way: a TLS record, a frame to the host, or a class-7 answer to the device that holds the host interface. -/
def sendResponse (s : State) (w : Who) (m : MgmtMsg) : State :=
  match w with
  | .session _ => emit s (.response w m)
  | .hostPath =>
    if s.hp.active then (if s.hp.link then hostNew s hkMgmt (mgmtBytes m) (some m) else s)
    else notify s s.hp.hostDev (.mgmtAnswer m)

/-- The response to a message (Table 19.3): accesses completed, the status that ended it, and the data read. -/
def response (m : MgmtMsg) (count : Nat) (st : Status) (data : List Word) : MgmtMsg :=
  { m with count := BitVec.ofNat 7 count, status := Status.code st, len := 16 + 4 * data.length, data := data }

/-- A source's message in execution set. -/
def setRun (s : State) (w : Who) (r : Option MsgRun) : State :=
  match sourceOf s w with
  | some x => setSource s { x with run := r }
  | none => s

/-- A message ended and answered. -/
def msgEnd (s : State) (w : Who) (r : MsgRun) (st : Status) : State :=
  sendResponse (setRun s w none) w (response r.m r.done st r.data)

/-- The accesses a message has left, in ascending order, up to the first whose status is not OK or that waits (R691). -/
def msgAccess : Nat → State → Who → MsgRun → State
  | 0, s, w, r => msgEnd s w r .ok
  | n + 1, s, w, r =>
    let a := r.m.addr + BitVec.ofNat 32 (4 * r.done)
    if r.m.mop = 1 then
      match readAccess s w a with
      | (v, .ok) => msgAccess n s w { r with done := r.done + 1, data := r.data ++ [v] }
      | (_, st) => msgEnd s w r st
    else
      match writeAccess s w a (r.m.data.getD r.done 0) true with
      | (s, some .ok) => msgAccess n s w { r with done := r.done + 1 }
      | (s, some st) => msgEnd s w r st
      | (s, none) => setRun s w (some r)

/-- Whether a message is whole (R730); the length of one with another MOP is not checked. -/
def msgWhole (m : MgmtMsg) : Bool :=
  if m.mop = 1 then m.len == 16 else if m.mop = 2 then m.len == 16 + 4 * m.count.toNat else true

/-- Whether the checks 1 and 3 to 5 of R730 refuse a message. -/
def msgBad (s : State) (w : Who) (m : MgmtMsg) : Bool :=
  !(m.mop == 1 || m.mop == 2) || !msgWhole m || m.count == 0 || decide (64 < m.count.toNat) || m.addr.extractLsb' 0 2 != 0 ||
    (isSession w && m.device != devId s)

/-- A message begun. -/
def msgBegin (s : State) (w : Who) (m : MgmtMsg) : State :=
  let r : MsgRun := { m := m, done := 0, data := [], answer := none }
  if msgBad s w m then msgEnd s w r .denied else msgAccess m.count.toNat s w r

/-- A message goes on with the answer of the command it waited for. -/
def msgResume (s : State) (w : Who) (r : MsgRun) (st : Status) : State :=
  if st = .ok then msgAccess (r.m.count.toNat - r.done - 1) s w { r with done := r.done + 1, answer := none } else msgEnd s w r st

/-! ### What goes on by itself: commands that wait for their block, messages that wait for a command or for their turn -/

/-- The next command whose block is free. -/
def nextCmd (s : State) : Option BlockCmd :=
  s.mg.blocks.find? fun b => !b.started && !(s.mg.blocks.any fun x => x.block == b.block && x.started)

/-- A waiting command started; its status, once known, goes to its source. -/
def startNext (s : State) (b : BlockCmd) : State :=
  let s := { s with mg := { s.mg with blocks := eraseFirst (fun x => decide (x = b)) s.mg.blocks ++ [{ b with started := true }] } }
  match cmdEffect s b with
  | (s, some st) => finishCmd s b.w b.block st
  | (s, none) => s

/-- One thing that can go on, if any. -/
def pumpOne (s : State) : Option State :=
  match nextCmd s with
  | some b => some (startNext s b)
  | none =>
    match s.mg.sources.find? fun x => x.run.any fun r => r.answer.isSome with
    | some x =>
      match x.run with
      | some r => r.answer.map fun st => msgResume s x.w r st
      | none => none
    | none =>
      match s.mg.sources.find? fun x => x.run.isNone && !x.waiting.isEmpty with
      | some x =>
        match x.waiting with
        | m :: rest => some (msgBegin (setSource s { x with waiting := rest }) x.w m)
        | [] => none
      | none => none

/-- Everything that can go on, up to a number of things. -/
def pumpN : Nat → State → State
  | 0, s => s
  | n + 1, s =>
    match pumpOne s with
    | some s => pumpN n s
    | none => s

/-- Whether a source waits on anything, or a command waits for its block. -/
def mgmtIdle (s : State) : Bool := s.mg.blocks.isEmpty && s.mg.sources.all fun x => x.run.isNone && x.waiting.isEmpty

/-- Forwarded messages whose device cannot be reached, or is lost, are answered with PATH_LOST (R694). -/
def answerUnreached (s : State) : State :=
  let gone : MgmtMsg → Bool := fun m => s.lse.lostDevs.contains m.device || (effRoute s m.device).isNone
  let out := s.hp.forwarded.filter gone
  if out.isEmpty then s
  else
    out.foldl (fun s m => sendResponse s .hostPath (response m 0 .pathLost []))
      { s with hp := { s.hp with forwarded := s.hp.forwarded.filter fun m => !gone m } }

/-- Management work that can go on, done: each message has at most 64 accesses, each of which starts and answers one command. -/
def pump (s : State) : State :=
  let s := answerUnreached s
  if mgmtIdle s then s
  else
    let msgs := (s.mg.sources.map fun x => x.waiting.length + 1).sum
    pumpN (2 * s.mg.blocks.length + 132 * msgs) s

/-- Messages of a source that have no response yet. -/
def unansweredOf (s : State) (w : Who) : Nat :=
  match sourceOf s w with
  | some x => x.waiting.length + bit x.run.isSome
  | none => 0

/-- A message taken from a source: it waits its turn in the source's order (R692). -/
def submit (s : State) (w : Who) (m : MgmtMsg) : State :=
  match sourceOf s w with
  | some x => shutdownStep (pump (setSource s { x with waiting := x.waiting ++ [m], last := s.counter }))
  | none => s

/-- A message of the host for another device: sent on in class 7, or PATH_LOST when that device is not reached (R694). -/
def forwardMsg (s : State) (m : MgmtMsg) : State :=
  answerUnreached (notify { s with hp := { s.hp with forwarded := s.hp.forwarded ++ [m] } } m.device (.mgmt m))

/-- A management message arrives: over a session, one that is not whole closes it, and a 17th waits in the TCP stream; from the host path,
one for another device is sent on (R689, R692, R694, R730). -/
def mgmtMsg (s : State) (w : Who) (m : MgmtMsg) : State :=
  if (sourceOf s w).isNone then s
  else if isSession w then
    if !msgWhole m then closeSource s w
    else if 16 ≤ unansweredOf s w then s
    else submit s w m
  else if m.device != devId s then (if s.hp.active then forwardMsg s m else s)
  else submit s w m

/-- MGMT_FORWARD_ANSWER (R694): the answer of a device to a forwarded message goes to the host. -/
def forwardAnswer (s : State) (m : MgmtMsg) : State :=
  let hit : MgmtMsg → Bool := fun x => x.device == m.device && x.mtag == m.mtag
  if s.hp.forwarded.any hit then
    sendResponse { s with hp := { s.hp with forwarded := eraseFirst hit s.hp.forwarded } } .hostPath m
  else s

/-! ### Sessions (R607 to R609, R689) -/

/-- Open sessions. -/
def sessionCount (s : State) : Nat := (s.mg.sources.filter fun x => isSession x.w).length

/-- The lowest session number not in use. -/
def freeSession (s : State) : Option (BitVec 3) :=
  ((List.range 8).map (BitVec.ofNat 3)).find? fun i => (sourceOf s (.session i)).isNone

/-- TLS_HANDSHAKE (R607, R609): a session opens with its private registers at reset, or the handshake ends with an alert; one that begins
during a switch-over of the root of trust waits (R614). -/
def tlsHandshake (s : State) (h : Handshake) : State :=
  if !s.mg.link || decide (s.sec.update = .switching) then s
  else match freeSession s, h.role with
    | some i, some r =>
      if h.suiteOk && h.chainOk then
        { s with mg := { s.mg with sources := s.mg.sources ++ [⟨.session i, some r, .blank, s.counter, none, []⟩] } }
      else emit s .tlsAlert
    | _, _ => emit s .tlsAlert

/-- SESSION_IDLE_TIMEOUT (R609): no traffic for 300 s. -/
def sessionIdle (s : State) (i : BitVec 3) : State :=
  match sourceOf s (.session i) with
  | some x => if x.last + 300000000 ≤ s.counter then closeSource s (.session i) else s
  | none => s

/-- MGMT_LINK_UP (R689): the port runs once the device is ready and is not drying down. -/
def mgmtLinkUp (s : State) : State := if s.boot.ready then { s with mg := { s.mg with link := true } } else s

/-- MGMT_LINK_DOWN (R689): sessions are TCP connections and outlive it; the DHCPv4 lease is held. -/
def mgmtLinkDown (s : State) : State := { s with mg := { s.mg with link := false } }

/-- DHCPV4_LEASE (R689, Tables 19.11, 19.12). -/
def dhcpv4Lease (s : State) (ip : Word) : State :=
  if s.mg.link then { s with mg := { s.mg with v4 := true, ip := ip } } else s

end Sys2Proof.Machine
end

