-- ==== Sys2Proof/Machine/Clock.lean ====
section
/-! DEFINITION. What one microsecond of the interval counter brings with it (R11). -/

namespace Sys2Proof.Machine

/-- The wheels of the ports that carry traffic advanced by 1 µs (R562, R563). -/
def advanceWheels (s : State) : State :=
  { s with shp := { s.shp with sets := tmap s.shp.sets fun p x => if wheelRuns s p then wheelAdvance x else x } }

/-- A port past flit lock: it sends a flit in every flit time (R486). -/
def linkRuns (r : PortRec) : Bool := portCarries r || decide (5 ≤ r.step)

/-- What links send while they have nothing else to send: an IDLE flit, one for each microsecond, and an ACK frame to the host when
credits wait to go back (R486, R489, R494, Table 19.1). -/
def idleFlits (s : State) : State :=
  let s := (s.lnk.filter fun x => linkRuns x.2).foldl (fun s x => sendRest s x.1) s
  if s.hp.link && s.hp.toReturn.any fun n => decide (n ≠ 0) then hostAck s false else s

/-- One microsecond passes: links idle, occupancies, routes and sillage are sampled (R463, R466, R548), the wheels and the counter
advance, and what has waited for the last drain or for a lost device goes on. -/
def tick (s : State) : State :=
  let s := if isUp s then advanceWheels (watchSillage (watchRoutes (sampleOccupancy (idleFlits s)))) else s
  let s := { s with counter := s.counter + 1 }
  if isUp s then shutdownStep (pump s) else s

end Sys2Proof.Machine
end

