-- ==== Sys2Proof/Machine/HostPort.lean ====
section
/-! DEFINITION. Frames from the host (R684 to R687, R694) and the host link's timers (R686). -/

namespace Sys2Proof.Machine

/-- Whether the MAC keeps a frame (R684): FCS, EtherType and length. -/
def macKeeps (s : State) (h : Shim) : Bool := h.fcsOk && h.etype == s.hp.etype && decide (h.bytes ≤ s.hp.mtu.toNat)

/-- A frame as the MAC and the shim's checks pass it on (Table 19.1): dropped and counted, discarded, or taken. -/
def hostFrame (s : State) (h : Shim) (kind : BitVec 4) (take : State → State) : State :=
  if !s.hp.phy then s
  else if !macKeeps s h then { s with hp := { s.hp with fcs := satInc 16 s.hp.fcs } }
  else if h.ver != 1 || h.kind != kind then s
  else take s

/-- The acknowledgement of a frame taken: what it covers leaves the replay buffer, a NAK replays the rest, and PARAM acknowledged may
raise LINK (R686). -/
def hostAcks (s : State) (h : Shim) : State :=
  let s := if h.ackv then hostTakeAck s h.ackseq else s
  hostRise (if h.nak then hostReplay s else s)

/-- Credits the host returned (R494, R685). -/
def hostCredits (s : State) (h : Shim) : State :=
  { s with hp := { s.hp with credits := addCredit s.hp.credits h.crcls h.crcnt.toNat } }

/-- The ESEQ accepted next (R686). -/
def hostNext (s : State) : Word :=
  match s.hp.rx with
  | some e => e + 1
  | none => 0

/-- A sequenced frame (R686): accepted in ESEQ order and acknowledged; a gap answered with NAK = 1 once; one seen before acknowledged
again. -/
def hostSeq (s : State) (h : Shim) (f : State → State) : State :=
  let s := hostAcks s h
  if h.eseq = hostNext s then
    hostAck (f (hostCredits { s with hp := { s.hp with rx := some h.eseq, gap := false, peer := h.mac } } h)) false
  else if (h.eseq - hostNext s).toNat < 2 ^ 31 then
    (if s.hp.gap then s else hostAck { s with hp := { s.hp with gap := true } } true)
  else hostAck s false

/-- A whole frame from the host: a request to the ingress checks, refused when its opcode is reserved (R53); a completion to this
device's egress (R687). -/
def hostArrived (s : State) (fr : Frame) : State :=
  match fr with
  | .req f =>
    if opRequest f.opcode then emit s (.toIngressPort .host f)
    else deliver (freeLanding s .host f) .host (mkCpl f (ownEp s) .denied [])
  | .cpl c => emit (returnCredits s .host c.cls (frameCredits fr)) (.answer c)

/-- DATA bytes taken: frames packed back to back, a zero OPCODE byte padding the rest (R685). -/
def hostBytes : Nat → List Byte → State → State
  | 0, _, s => s
  | n + 1, bs, s =>
    if bs.isEmpty then s
    else
      let all := s.hp.part ++ bs
      let total := wireLength all
      if s.hp.part.isEmpty && byteAt bs 0 == 0 then s
      else if total ≠ 0 && total ≤ all.length then
        hostBytes n (all.drop total) (hostArrived { s with hp := { s.hp with part := [] } } (frameOfWire (all.take total)))
      else { s with hp := { s.hp with part := all } }

/-- HP_DATA (R685): only while LINK = 1. -/
def hpData (s : State) (h : Shim) (body : List Byte) : State :=
  hostFrame s h hkData fun s => if s.hp.link then hostSeq s h fun s => hostBytes (body.length + 1) body s else s

/-- HP_ACK (R686): it takes no place in the sequence; its credits count. -/
def hpAck (s : State) (h : Shim) : State :=
  hostFrame s h hkAck fun s => hostCredits (hostAcks { s with hp := { s.hp with peer := h.mac } } h) h

/-- Messages of the host that have no response yet (R694). -/
def hostUnanswered (s : State) : Nat := unansweredOf s .hostPath + s.hp.forwarded.length

/-- HP_MGMT (R694): not accepted beyond 64 unanswered messages, nor while LINK = 0. -/
def hpMgmt (s : State) (h : Shim) (m : MgmtMsg) : State :=
  hostFrame s h hkMgmt fun s =>
    if !s.hp.link || decide (64 ≤ hostUnanswered s) then s else hostSeq s h fun s => mgmtMsg s .hostPath m

/-- HP_PARAM (R686): the host's classes and credits. One that arrives after later frames were accepted says that the host's side went
down: this side follows, and takes it. -/
def hpParam (s : State) (h : Shim) (classes : BitVec 8) (credits : List Nat) : State :=
  hostFrame s h hkParam fun s =>
    if !hostEnabled s || h.eseq != 0 then s
    else
      let s := match s.hp.rx with
        | some e => if e = 0 then s else hostSendParam (hostGone s)
        | none => s
      hostRise (hostSeq s h fun s =>
        { s with hp := { s.hp with classes := classes, credits := (List.range 8).map fun k => credits.getD k 0, gotParam := true } })

/-- HOST_PHY_LINK_UP (R683, R686): on the device whose host port is enabled, PARAM goes out with ESEQ 0. -/
def hostPhyUp (s : State) : State :=
  if hostEnabled s && !s.hp.phy then
    let s := hostGone s
    hostSendParam { s with hp := { s.hp with phy := true } }
  else s

/-- Frames sent and not acknowledged. -/
def hostWaits (s : State) : Bool := s.hp.rb.any (·.sent)

/-- HP_REPLAY_TIMEOUT (R686): ACKSEQ has not advanced, nor a replay begun, for 20 µs; the eighth replay of one ESEQ takes the link down. -/
def hpReplayTimeout (s : State) : State :=
  if s.hp.phy && hostWaits s && decide (s.hp.ackAt + 20 ≤ s.counter) && decide (s.hp.replayAt + 20 ≤ s.counter) then
    let s := hostReplay s
    if s.hp.rb.any fun f => decide (8 ≤ f.replays) then hostGone s else s
  else s

/-- HP_LINK_DOWN (R686): a stall of 100 µs with frames unacknowledged takes the link down; otherwise the PHY has lost link. -/
def hpLinkDown (s : State) : State :=
  if !s.hp.phy then s
  else if hostWaits s && decide (s.hp.ackAt + 100 ≤ s.counter) then hostGone s
  else hostOff s

/-- HP_PARAM_RETRY (R686): while the link is down, every 1 ms. -/
def hpParamRetry (s : State) : State :=
  if s.hp.phy && !s.hp.link && decide (s.hp.paramAt + 1000 ≤ s.counter) then hostSendParam s else s

end Sys2Proof.Machine
end

