-- ==== Sys2Proof/Machine/MgmtRows.lean ====
section
/-! DEFINITION. The commands that come over the management address space, each as one write, and those whose end lets waiting
management work go on; the host port's and the management port's own. -/

namespace Sys2Proof.Machine

/-- The address of a window register (R81). -/
def windowAddr (p : Port) (win : BitVec 8) (reg : BitVec 3) : Word :=
  let off := 0x4000 + 0x20 * win.toNat + 4 * reg.toNat
  match p with
  | .lane q => mgmtAddr (blkLnk q) off
  | .host => mgmtAddr blkSwc off
  | .own => mgmtAddr 0xFFFF off

/-- The address of a register of a port's SHP_ set (R580). -/
def shpAddr (p : Port) (off : BitVec 7) : Word :=
  match p with
  | .lane q => mgmtAddr blkShp (0x8000 + 0x80 * q.toNat + off.toNat)
  | .host => mgmtAddr blkShp (0x7F80 + off.toNat)
  | .own => mgmtAddr 0xFFFF off.toNat

/-- The word of a command register: OP over its RW field. -/
def cmdWord (op : Nat) (field : Nat) : Word := BitVec.ofNat 32 (op * 2 ^ 28 + field)

/-- An object command as one write of OBJ_CMD (Table 8.9). -/
def objRow (s : State) (w : Who) (op : Nat) (t : TenantId) : State :=
  oneWrite s w (mgmtAddr blkObj 0) (cmdWord op t.toNat) fun s => cmdWrite s w blkObj 0 (cmdWord op t.toNat) false

/-- A lease, composition or ownership command as one write of LSE_CMD (Table 11.9). -/
def lseRow (s : State) (w : Who) (op : Nat) (c : CompId) : State :=
  oneWrite s w (mgmtAddr blkLse 0) (cmdWord op c.toNat) fun s => cmdWrite s w blkLse 0 (cmdWord op c.toNat) false

/-- A security command as one write of SEC_CMD (Table 15.8). -/
def secRow (s : State) (w : Who) (op : Nat) (t : TenantId) : State :=
  oneWrite s w (mgmtAddr blkSec 0) (cmdWord op t.toNat) fun s => cmdWrite s w blkSec 0 (cmdWord op t.toNat) false

/-- Whether REMOVE of a tenant first asks another device that is recorded as its coordinator (R602). -/
def asksCoordinator (s : State) (t : TenantId) : Bool :=
  (tget s.sec.removals t).isNone && isRemoving s t && (tenantOf s t).coord.any fun c => c != devId s

/-- FORMAT carried out: the media formatted, then step 7 of Table 9.2 with no pending record of the journal it discarded (R413). -/
def formatRun (s : State) (d : Discovery) : State × Status :=
  match formatFlash s d with
  | (s, .ok) => (replayOwn (drydownReplay { s with dry := { s.dry with image := s.dry.image.map fun i => { i with pend := [] } } }), .ok)
  | (s, st) => ({ s with ftl := { s.ftl with state := .offline } }, st)

/-- FORMAT (R413): the end of the one that a write of FTL_CMD began, or a command by itself. -/
def formatRow (s : State) (w : Who) (d : Discovery) : State :=
  match s.mg.blocks.find? fun b => b.block == blkFtl && b.started with
  | some b => if s.ftl.state = .formatting then pump (finishCmd (formatRun s d).1 b.w blkFtl (formatRun s d).2) else s
  | none =>
    oneWrite s w (mgmtAddr blkFtl 0x40) (cmdWord 1 0) fun s =>
      if s.ftl.state = .offline then told (formatRun s d) else (s, some .denied)

/-! ### Commands whose end lets others go on -/

/-- COMP_ID_ASSIGN (R453). -/
def execCompIdAssign (home : DevId) (granted : Option CompId) (s : State) : Res := whenUp s fun s => pump (compIdAssign s home granted)
/-- DEVICE_LOST (R466). -/
def execDeviceLost (dev : DevId) (s : State) : Res := whenUp s fun s => pump (deviceLost s dev)
/-- EPOCH_DRAINED (R461). -/
def execEpochDrained (dev : DevId) (c : CompId) (s : State) : Res := whenUp s fun s => pump (epochDrained s dev c)
/-- EPOCH_READY (R461). -/
def execEpochReady (dev : DevId) (c : CompId) (r : ReadyNote) (s : State) : Res := whenUp s fun s => pump (epochReady s dev c r)
/-- EPOCH_READY_TIMEOUT (R462). -/
def execEpochReadyTimeout (c : CompId) (s : State) : Res := whenUp s fun s => pump (epochReadyTimeout s c)
/-- EPOCH_SWITCH_RESEND (R462). -/
def execEpochSwitchResend (c : CompId) (s : State) : Res := whenUp s fun s => pump (epochSwitchResend s c)
/-- EPOCH_SWITCHED (R461). -/
def execEpochSwitched (dev : DevId) (c : CompId) (s : State) : Res := whenUp s fun s => pump (epochSwitched s dev c)
/-- INCARNATION_NOTICE (R659). -/
def execIncarnationNotice (dev : DevId) (s : State) : Res := whenUp s fun s => pump (incarnationNotice s dev)
/-- LOSS_NOTICE (R467). -/
def execLossNotice (l : Loss) (s : State) : Res := whenUp s fun s => pump (lossNotice s l)
/-- POOL_MEMBER_LOST (R466). -/
def execPoolMemberLost (ep : Ep) (s : State) : Res := whenUp s fun s => pump (poolMemberLost s ep)
/-- GATE_ACK (R476). -/
def execGateAck (oid : Oid) (found : Bool) (s : State) : Res := whenUp s fun s => pump (gateAck s oid found)
/-- JOURNAL_COMMIT (R386). -/
def execJournalCommit (s : State) : Res := whenUp s fun s => pump (journalCommit s)
/-- COORDINATOR_ANSWER (R602). -/
def execCoordinatorAnswer (dev : DevId) (ten : TenantId) (running : Option Bool) (s : State) : Res :=
  whenUp s fun s => pump (if (tenantOf s ten).coord = some dev then coordinatorAnswer s ten running else s)
/-- FW_VERIFY_DONE (R613). -/
def execFwVerifyDone (ok : Bool) (svn : Word) (digest : List Byte) (s : State) : Res := whenUp s fun s => pump (fwVerifyDone s ok svn digest)
/-- QUOTE_DONE (R611). -/
def execQuoteDone (s : State) : Res := whenUp s fun s => pump (quoteDone s)
/-- REMOVE_TIMEOUT (R602). -/
def execRemoveTimeout (ten : TenantId) (s : State) : Res := whenUp s fun s => pump (removeTimeout s ten)
/-- ROT_SWITCH_DONE (R614). -/
def execRotSwitchDone (ok : Bool) (s : State) : Res := whenUp s fun s => pump (rotSwitchDone s ok)
/-- SCRUBBED (R599). -/
def execScrubbed (dev : DevId) (ten : TenantId) (s : State) : Res := whenUp s fun s => pump (scrubbedNotice s dev ten)

/-! ### Windows, coherence, engine -/

/-- WINDOW_REGISTER_WRITE (R84). -/
def execWindowRegisterWrite (w : Who) (p : Port) (win : BitVec 8) (reg : BitVec 3) (v : Word) (s : State) : Res :=
  whenUp s fun s => oneWrite s w (windowAddr p win reg) v fun s => told (writeWindow s p win reg v)
/-- COH_ATTACH (R148). -/
def execCohAttach (w : Who) (p : PortNo) (ways sets : BitVec 4) (s : State) : Res :=
  whenUp s fun s => oneWrite s w (mgmtAddr blkCoh (0x1000 + 0x10 * p.toNat)) (reg (2 ^ 31 + ways.toNat * 2 ^ 8 + sets.toNat)) fun s => told (cohAttach s p ways sets)
/-- COH_DETACH (R163). -/
def execCohDetach (w : Who) (p : PortWays) (s : State) : Res :=
  whenUp s fun s => oneWrite s w (mgmtAddr blkCoh (0x1000 + 0x10 * p.port.toNat)) (reg (p.ways.toNat * 2 ^ 8 + p.sets.toNat)) fun s =>
    told (cohDetach s p.port p.ways p.sets)
/-- FUNC_DISABLE (R211). -/
def execFuncDisable (w : Who) (fn : EngFn) (s : State) : Res :=
  whenUp s fun s => oneWrite s w (mgmtAddr blkEng 0x04) 0 fun s => done (disableFn s fn)
/-- FUNC_ENABLE (R214). -/
def execFuncEnable (w : Who) (fn : EngFn) (s : State) : Res :=
  whenUp s fun s => oneWrite s w (mgmtAddr blkEng 0x04) 0 fun s => done (enableFn s fn)
/-- TILE_T0_WRITE (R172). -/
def execTileT0Write (w : Who) (t : TileNo) (v : Word) (s : State) : Res :=
  whenUp s fun s => oneWrite s w (mgmtAddr blkEng (0x1000 + 0x10 * t.toNat)) v fun s => told (writeT0 s t v)

/-! ### Objects and flash -/

/-- CREATE (R336). -/
def execCreate (w : Who) (ten : TenantId) (s : State) : Res := whenUp s fun s => objRow s w 1 ten
/-- PLACE (R337). -/
def execPlace (w : Who) (ten : TenantId) (s : State) : Res := whenUp s fun s => objRow s w 2 ten
/-- UNPLACE (R339). -/
def execUnplace (w : Who) (ten : TenantId) (s : State) : Res := whenUp s fun s => objRow s w 3 ten
/-- SET_ALT (R338). -/
def execSetAlt (w : Who) (ten : TenantId) (s : State) : Res := whenUp s fun s => objRow s w 4 ten
/-- DELETE (R339). -/
def execDelete (w : Who) (ten : TenantId) (s : State) : Res := whenUp s fun s => objRow s w 5 ten
/-- QUERY (R336). -/
def execQuery (w : Who) (ten : TenantId) (s : State) : Res := whenUp s fun s => objRow s w 6 ten
/-- PLAN_OPEN (R355). -/
def execPlanOpen (w : Who) (ten : TenantId) (s : State) : Res := whenUp s fun s => objRow s w 7 ten
/-- PLAN_CLOSE (R356). -/
def execPlanClose (w : Who) (ten : TenantId) (s : State) : Res := whenUp s fun s => objRow s w 8 ten
/-- FORMAT (R413). -/
def execFormat (w : Who) (d : Discovery) (s : State) : Res := whenUp s fun s => formatRow s w d
/-- FTL_GC_CFG_WRITE (R412). -/
def execFtlGcCfgWrite (w : Who) (v : Word) (s : State) : Res :=
  whenUp s fun s => oneWrite s w (mgmtAddr blkFtl 0x20) v fun s => told (writeGcCfg s v)

/-! ### Leases, compositions, ownership -/

/-- COMP_CREATE (R453). -/
def execCompCreate (w : Who) (s : State) : Res := whenUp s fun s => lseRow s w 1 0
/-- COMP_DESTROY (R469). -/
def execCompDestroy (w : Who) (c : CompId) (s : State) : Res := whenUp s fun s => lseRow s w 2 c
/-- GRANT (R448). -/
def execGrant (w : Who) (c : CompId) (s : State) : Res := whenUp s fun s => lseRow s w 3 c
/-- RENEW (R449). -/
def execRenew (w : Who) (c : CompId) (s : State) : Res := whenUp s fun s => lseRow s w 4 c
/-- RELEASE (R451). -/
def execRelease (w : Who) (c : CompId) (s : State) : Res := whenUp s fun s => lseRow s w 5 c
/-- STAGE_WIN (R458). -/
def execStageWin (w : Who) (c : CompId) (s : State) : Res := whenUp s fun s => lseRow s w 6 c
/-- STAGE_PORT (R458). -/
def execStagePort (w : Who) (c : CompId) (s : State) : Res := whenUp s fun s => lseRow s w 7 c
/-- STAGE_LEASE (R459). -/
def execStageLease (w : Who) (c : CompId) (s : State) : Res := whenUp s fun s => lseRow s w 8 c
/-- STAGE_CLEAR (R458). -/
def execStageClear (w : Who) (c : CompId) (s : State) : Res := whenUp s fun s => lseRow s w 9 c
/-- COMMIT (R460). -/
def execCommit (w : Who) (c : CompId) (s : State) : Res := whenUp s fun s => lseRow s w 10 c
/-- QUERY_LEASE (R447). -/
def execQueryLease (w : Who) (c : CompId) (s : State) : Res := whenUp s fun s => lseRow s w 11 c
/-- OWN_REGISTER (R470). -/
def execOwnRegister (w : Who) (c : CompId) (s : State) : Res := whenUp s fun s => lseRow s w 12 c
/-- OWN_DROP (R479). -/
def execOwnDrop (w : Who) (c : CompId) (s : State) : Res := whenUp s fun s => lseRow s w 13 c

/-! ### Ports, buffer, shapers -/

/-- PORT_ENABLE (R518). -/
def execPortEnable (w : Who) (p : PortNo) (s : State) : Res :=
  whenUp s fun s => oneWrite s w (mgmtAddr (blkLnk p) 0x04) 1 fun s => told (portEnableCmd s p)
/-- PORT_DISABLE (R518). -/
def execPortDisable (w : Who) (p : PortNo) (s : State) : Res :=
  whenUp s fun s => oneWrite s w (mgmtAddr (blkLnk p) 0x04) 0 fun s => told (portDisableCmd s p)
/-- RETRAIN (R518). -/
def execRetrain (w : Who) (p : PortNo) (s : State) : Res :=
  whenUp s fun s => oneWrite s w (mgmtAddr (blkLnk p) 0x04) 3 fun s => told (retrainCmd s p)
/-- PORT_DRAIN (R521). -/
def execPortDrain (w : Who) (p : PortNo) (s : State) : Res :=
  whenUp s fun s => oneWrite s w (mgmtAddr (blkLnk p) 0x04) 5 fun s => told (portDrainCmd s p)
/-- SWC_CLS_CFG_WRITE (R531). -/
def execSwcClsCfgWrite (w : Who) (c : Cls) (v : Word) (s : State) : Res :=
  whenUp s fun s => oneWrite s w (mgmtAddr blkSwc (0x20 + 4 * c.toNat)) v fun s => told (writeClsCfg s c v)
/-- SHAPER_CONFIG_WRITE (R571). -/
def execShaperConfigWrite (w : Who) (p : Port) (off : BitVec 7) (v : Word) (s : State) : Res :=
  whenUp s fun s => oneWrite s w (shpAddr p off) v fun s => told (writeShp s p off.toNat v)

/-! ### Security -/

/-- ACTIVATE (R597). -/
def execActivate (w : Who) (ten : TenantId) (s : State) : Res := whenUp s fun s => secRow s w 1 ten
/-- DEACTIVATE (R598). -/
def execDeactivate (w : Who) (ten : TenantId) (s : State) : Res := whenUp s fun s => secRow s w 2 ten
/-- REMOVE (R599). -/
def execRemove (w : Who) (ten : TenantId) (s : State) : Res := whenUp s fun s => secRow s w 3 ten
/-- COORDINATOR_QUERY (R602). -/
def execCoordinatorQuery (w : Who) (ten : TenantId) (s : State) : Res :=
  whenUp s fun s => if asksCoordinator s ten then secRow s w 3 ten else s
/-- QUOTE (R611). -/
def execQuote (w : Who) (s : State) : Res := whenUp s fun s => secRow s w 4 0
/-- FW_STAGE (R613). -/
def execFwStage (w : Who) (s : State) : Res := whenUp s fun s => secRow s w 5 0
/-- FW_SWITCH (R614). -/
def execFwSwitch (w : Who) (s : State) : Res := whenUp s fun s => secRow s w 6 0
/-- FW_COMMIT (R616). -/
def execFwCommit (w : Who) (s : State) : Res := whenUp s fun s => secRow s w 7 0
/-- TLS_HANDSHAKE (R607). -/
def execTlsHandshake (h : Handshake) (s : State) : Res := whenUp s fun s => tlsHandshake s h
/-- SESSION_IDLE_TIMEOUT (R609). -/
def execSessionIdleTimeout (i : BitVec 3) (s : State) : Res := whenUp s fun s => pump (sessionIdle s i)

/-! ### Power, start-up, the Blotter -/

/-- PWR_CAP_WRITE (R633). -/
def execPwrCapWrite (w : Who) (v : Word) (s : State) : Res :=
  whenUp s fun s => oneWrite s w (mgmtAddr blkPwr 0x00) v fun s => told (writeCap s v)
/-- PWR_PHASE_WRITE (R643). -/
def execPwrPhaseWrite (w : Who) (v : Word) (s : State) : Res :=
  whenUp s fun s => oneWrite s w (mgmtAddr blkPwr 0x10) v fun s => told (writePhase s v)
/-- SHUTDOWN (R662). -/
def execShutdown (w : Who) (s : State) : Res :=
  whenUp s fun s => shutdownStep (oneWrite s w (mgmtAddr blkBoot 0x0C) 0x10000000 fun s => told (shutdownCmd s w))
/-- FL_READ (R647). -/
def execFlRead (w : Who) (s : State) : Res :=
  whenUp s fun s => oneWrite s w (mgmtAddr blkBoot 0x14) 0x10000000 fun s => told (flReadCmd s w)
/-- FL_PROGRAM (R647). -/
def execFlProgram (w : Who) (s : State) : Res :=
  whenUp s fun s => oneWrite s w (mgmtAddr blkBoot 0x14) 0x20000000 fun s => told (flProgramCmd s w)
/-- FL_ERASE (R647). -/
def execFlErase (w : Who) (s : State) : Res :=
  whenUp s fun s => oneWrite s w (mgmtAddr blkBoot 0x14) 0x30000000 fun s => told (flEraseCmd s w)
/-- BLT_ARM (R679). -/
def execBltArm (w : Who) (s : State) : Res :=
  whenUp s fun s => oneWrite s w (mgmtAddr blkBlt 0x00) 1 fun s => told (bltArmCmd s w true)
/-- BLT_DISARM (R679). -/
def execBltDisarm (w : Who) (s : State) : Res :=
  whenUp s fun s => oneWrite s w (mgmtAddr blkBlt 0x00) 0 fun s => told (bltArmCmd s w false)

/-! ### The host port -/

/-- HP_DATA (R685). -/
def execHpData (h : Shim) (body : List Byte) (s : State) : Res := whenUp s fun s => hpData s h body
/-- HP_ACK (R686). -/
def execHpAck (h : Shim) (s : State) : Res := whenUp s fun s => pump (hpAck s h)
/-- HP_MGMT (R694). -/
def execHpMgmt (h : Shim) (m : MgmtMsg) (s : State) : Res := whenUp s fun s => pump (hpMgmt s h m)
/-- HP_PARAM (R686). -/
def execHpParam (h : Shim) (classes : BitVec 8) (credits : List Nat) (s : State) : Res :=
  whenUp s fun s => pump (hpParam s h classes credits)
/-- HP_REPLAY_TIMEOUT (R686). -/
def execHpReplayTimeout (s : State) : Res := whenUp s fun s => hpReplayTimeout s
/-- HP_LINK_DOWN (R686). -/
def execHpLinkDown (s : State) : Res := whenUp s fun s => hpLinkDown s
/-- HP_PARAM_RETRY (R686). -/
def execHpParamRetry (s : State) : Res := whenUp s fun s => hpParamRetry s
/-- HOST_PHY_LINK_UP (R686). -/
def execHostPhyLinkUp (s : State) : Res := whenUp s fun s => hostPhyUp s
/-- MOVE_HERE (R688). -/
def execMoveHere (w : Who) (s : State) : Res :=
  whenUp s fun s => oneWrite s w (mgmtAddr blkSwc 0x204) 1 fun s => cmdWrite s w blkSwc 0x204 1 false
/-- HOST_MOVE_NOTICE (R688). -/
def execHostMoveNotice (new : DevId) (s : State) : Res := whenUp s fun s => hostMoveNotice s new
/-- HOST_MOVE_OLD (R688). -/
def execHostMoveOld (new : DevId) (s : State) : Res := whenUp s fun s => hostMoveOld s new
/-- HOST_MOVE_LOAD (R688). -/
def execHostMoveLoad (h : HostHandover) (s : State) : Res := whenUp s fun s => pump (hostMoveLoad s h)
/-- HOST_ENDPOINT_UPDATE (R688). -/
def execHostEndpointUpdate (holder origin : DevId) (nseq : Word) (s : State) : Res :=
  whenUp s fun s => hostEndpointUpdate s holder origin nseq
/-- HOST_MOVE_RETRY (R688). -/
def execHostMoveRetry (s : State) : Res := whenUp s fun s => pump (hostMoveRetry s)

/-! ### Messages, registers, the management port -/

/-- MGMT_READ (R691). -/
def execMgmtRead (w : Who) (m : MgmtMsg) (s : State) : Res :=
  whenUp s fun s => mgmtMsg s w (if m.mop = 2 then { m with mop := 1 } else m)
/-- MGMT_WRITE (R691). -/
def execMgmtWrite (w : Who) (m : MgmtMsg) (s : State) : Res := whenUp s fun s => mgmtMsg s w { m with mop := 2 }
/-- REGISTER_WRITE (R698). -/
def execRegisterWrite (w : Who) (a v : Word) (s : State) : Res :=
  whenUp s fun s => shutdownStep (oneWrite s w a v fun s => writeReg s w a v false)
/-- MGMT_FORWARD_ANSWER (R694). -/
def execMgmtForwardAnswer (m : MgmtMsg) (s : State) : Res := whenUp s fun s => forwardAnswer s m
/-- MGMT_LINK_UP (R689). -/
def execMgmtLinkUp (s : State) : Res := whenUp s fun s => mgmtLinkUp s
/-- MGMT_LINK_DOWN (R689). -/
def execMgmtLinkDown (s : State) : Res := whenUp s fun s => mgmtLinkDown s
/-- DHCPV4_LEASE (R689). -/
def execDhcpv4Lease (ip : Word) (s : State) : Res := whenUp s fun s => dhcpv4Lease s ip
/-- MGMT_SESSION_CLOSE (R693). -/
def execMgmtSessionClose (i : BitVec 3) (s : State) : Res := whenUp s fun s => pump (closeSource s (.session i))

end Sys2Proof.Machine
end

