-- ==== Sys2Proof/Machine/Dispatch.lean ====
section
/-! DEFINITION. One arm for each command: its meaning, or its refusal by name while it has none. -/

namespace Sys2Proof.Machine

/-- A command's effect on everything but the queue. -/
def exec (i : Instr) (s : State) : Host.Outcome State Fault Refusal :=
  match i with
  | .rdLine p f => Sys2Proof.Machine.execRdLine p f s
  | .wrLine p f => Sys2Proof.Machine.execWrLine p f s
  | .wrLineRel p f => Sys2Proof.Machine.execWrLineRel p f s
  | .fence p f => Sys2Proof.Machine.execFence p f s
  | .atomAdd p f => Sys2Proof.Machine.execAtomAdd p f s
  | .atomLogic p f => Sys2Proof.Machine.execAtomLogic p f s
  | .atomSwap p f => Sys2Proof.Machine.execAtomSwap p f s
  | .atomCas p f => Sys2Proof.Machine.execAtomCas p f s
  | .atomMinmax p f => Sys2Proof.Machine.execAtomMinmax p f s
  | .readShared f => Sys2Proof.Machine.execReadShared f s
  | .readOwn f => Sys2Proof.Machine.execReadOwn f s
  | .claim f => Sys2Proof.Machine.execClaim f s
  | .portBufferRelease p => Sys2Proof.Machine.execPortBufferRelease p s
  | .trunkRequestArrive p f => Sys2Proof.Machine.execTrunkRequestArrive p f s
  | .egressSequencedArrive f => Sys2Proof.Machine.execEgressSequencedArrive f s
  | .egressReadArrive f => Sys2Proof.Machine.execEgressReadArrive f s
  | .destAnswerReturn c => Sys2Proof.Machine.execDestAnswerReturn c s
  | .completionArrive c => Sys2Proof.Machine.execCompletionArrive c s
  | .wrLineRelRelease src => Sys2Proof.Machine.execWrLineRelRelease src s
  | .fenceComplete src => Sys2Proof.Machine.execFenceComplete src s
  | .pathFaultNotice dev p => Sys2Proof.Machine.execPathFaultNotice dev p s
  | .resendTimeout src tag => Sys2Proof.Machine.execResendTimeout src tag s
  | .pathLostTimeout src tag => Sys2Proof.Machine.execPathLostTimeout src tag s
  | .tagHoldExpire src tag => Sys2Proof.Machine.execTagHoldExpire src tag s
  | .settlingEnd src dst cls => Sys2Proof.Machine.execSettlingEnd src dst cls s
  | .completionLogEvict src dst cls seq => Sys2Proof.Machine.execCompletionLogEvict src dst cls seq s
  | .windowRegisterWrite w p win reg v => Sys2Proof.Machine.execWindowRegisterWrite w p win reg v s
  | .progressNoticeSend src tag => Sys2Proof.Machine.execProgressNoticeSend src tag s
  | .progressNoticeReceive src tag => Sys2Proof.Machine.execProgressNoticeReceive src tag s
  | .joinWindowExpire e => Sys2Proof.Machine.execJoinWindowExpire e s
  | .combineLeadComplete e st data => Sys2Proof.Machine.execCombineLeadComplete e st data s
  | .combineFollowupComplete e st data => Sys2Proof.Machine.execCombineFollowupComplete e st data s
  | .combineDestTimeout e => Sys2Proof.Machine.execCombineDestTimeout e s
  | .snoopAnswer p tag data => Sys2Proof.Machine.execSnoopAnswer p tag data s
  | .snoopTimeout p tag => Sys2Proof.Machine.execSnoopTimeout p tag s
  | .cohAttach w p ways sets => Sys2Proof.Machine.execCohAttach w p ways sets s
  | .cohDetach w p => Sys2Proof.Machine.execCohDetach w p s
  | .detachFinish p => Sys2Proof.Machine.execDetachFinish p s
  | .tileXfer pl f => Sys2Proof.Machine.execTileXfer pl f s
  | .portionPlace q => Sys2Proof.Machine.execPortionPlace q s
  | .descriptorComplete t => Sys2Proof.Machine.execDescriptorComplete t s
  | .deviceFrameComplete src tag a st data => Sys2Proof.Machine.execDeviceFrameComplete src tag a st data s
  | .dispatchRetryTimeout src tag => Sys2Proof.Machine.execDispatchRetryTimeout src tag s
  | .tileParityError t rereadOk => Sys2Proof.Machine.execTileParityError t rereadOk s
  | .funcDisable w fn => Sys2Proof.Machine.execFuncDisable w fn s
  | .funcEnable w fn => Sys2Proof.Machine.execFuncEnable w fn s
  | .funcDrainTimeout fn => Sys2Proof.Machine.execFuncDrainTimeout fn s
  | .tileT0Write w t v => Sys2Proof.Machine.execTileT0Write w t v s
  | .tileGate t => Sys2Proof.Machine.execTileGate t s
  | .accOpen pl f => Sys2Proof.Machine.execAccOpen pl f s
  | .accBindingNotice child b => Sys2Proof.Machine.execAccBindingNotice child b s
  | .accBindingTimeout slot => Sys2Proof.Machine.execAccBindingTimeout slot s
  | .accStart pl f => Sys2Proof.Machine.execAccStart pl f s
  | .accSegmentIngress p f => Sys2Proof.Machine.execAccSegmentIngress p f s
  | .accSegment f => Sys2Proof.Machine.execAccSegment f s
  | .accWindowNotice member tag n => Sys2Proof.Machine.execAccWindowNotice member tag n s
  | .accStripeComplete slot seg stripe => Sys2Proof.Machine.execAccStripeComplete slot seg stripe s
  | .accResult f => Sys2Proof.Machine.execAccResult f s
  | .accReport handle member round r => Sys2Proof.Machine.execAccReport handle member round r s
  | .accStallTimeout slot member => Sys2Proof.Machine.execAccStallTimeout slot member s
  | .accAbortNotice handle round => Sys2Proof.Machine.execAccAbortNotice handle round s
  | .accClose pl f => Sys2Proof.Machine.execAccClose pl f s
  | .accIdleTimeout slot => Sys2Proof.Machine.execAccIdleTimeout slot s
  | .gatherDirect pl f => Sys2Proof.Machine.execGatherDirect pl f s
  | .gatherIndexed pl f => Sys2Proof.Machine.execGatherIndexed pl f s
  | .scatterDirect pl f => Sys2Proof.Machine.execScatterDirect pl f s
  | .scatterIndexed pl f => Sys2Proof.Machine.execScatterIndexed pl f s
  | .filter pl f => Sys2Proof.Machine.execFilter pl f s
  | .scoreSel pl f => Sys2Proof.Machine.execScoreSel pl f s
  | .expand pl f => Sys2Proof.Machine.execExpand pl f s
  | .zskBlockExpand t => Sys2Proof.Machine.execZskBlockExpand t s
  | .zskRereadResult t bytes => Sys2Proof.Machine.execZskRereadResult t bytes s
  | .create w ten => Sys2Proof.Machine.execCreate w ten s
  | .place w ten => Sys2Proof.Machine.execPlace w ten s
  | .unplace w ten => Sys2Proof.Machine.execUnplace w ten s
  | .setAlt w ten => Sys2Proof.Machine.execSetAlt w ten s
  | .delete w ten => Sys2Proof.Machine.execDelete w ten s
  | .query w ten => Sys2Proof.Machine.execQuery w ten s
  | .planOpen w ten => Sys2Proof.Machine.execPlanOpen w ten s
  | .planClose w ten => Sys2Proof.Machine.execPlanClose w ten s
  | .objectScrubFree oid => Sys2Proof.Machine.execObjectScrubFree oid s
  | .t1CopyFilled oid => Sys2Proof.Machine.execT1CopyFilled oid s
  | .replicaFilled oid => Sys2Proof.Machine.execReplicaFilled oid s
  | .seal pl f => Sys2Proof.Machine.execSeal pl f s
  | .reseal pl f => Sys2Proof.Machine.execReseal pl f s
  | .rdObj pl f => Sys2Proof.Machine.execRdObj pl f s
  | .tier3FetchDone oid unit d => Sys2Proof.Machine.execTier3FetchDone oid unit d s
  | .tier3Uncorrectable oid unit => Sys2Proof.Machine.execTier3Uncorrectable oid unit s
  | .planStepFetch plan => Sys2Proof.Machine.execPlanStepFetch plan s
  | .discard pl f => Sys2Proof.Machine.execDiscard pl f s
  | .format w d => Sys2Proof.Machine.execFormat w d s
  | .nandProgramComplete a => Sys2Proof.Machine.execNandProgramComplete a s
  | .nandProgramFail a => Sys2Proof.Machine.execNandProgramFail a s
  | .journalCommit => Sys2Proof.Machine.execJournalCommit s
  | .gcCycleStart rs => Sys2Proof.Machine.execGcCycleStart rs s
  | .gcVictimErase b => Sys2Proof.Machine.execGcVictimErase b s
  | .nandEraseComplete b => Sys2Proof.Machine.execNandEraseComplete b s
  | .nandEraseFail b => Sys2Proof.Machine.execNandEraseFail b s
  | .patrolRead b rs => Sys2Proof.Machine.execPatrolRead b rs s
  | .flashTempSample celsius => Sys2Proof.Machine.execFlashTempSample celsius s
  | .healthPersist => Sys2Proof.Machine.execHealthPersist s
  | .ftlGcCfgWrite w v => Sys2Proof.Machine.execFtlGcCfgWrite w v s
  | .dryCompact => Sys2Proof.Machine.execDryCompact s
  | .pfailAssert => Sys2Proof.Machine.execPfailAssert s
  | .drydownImageCommit => Sys2Proof.Machine.execDrydownImageCommit s
  | .holdupMeasureDone m => Sys2Proof.Machine.execHoldupMeasureDone m s
  | .holdupTimeout => Sys2Proof.Machine.execHoldupTimeout s
  | .holdupRecompute mv => Sys2Proof.Machine.execHoldupRecompute mv s
  | .compCreate w => Sys2Proof.Machine.execCompCreate w s
  | .compDestroy w c => Sys2Proof.Machine.execCompDestroy w c s
  | .grant w c => Sys2Proof.Machine.execGrant w c s
  | .renew w c => Sys2Proof.Machine.execRenew w c s
  | .release w c => Sys2Proof.Machine.execRelease w c s
  | .stageWin w c => Sys2Proof.Machine.execStageWin w c s
  | .stagePort w c => Sys2Proof.Machine.execStagePort w c s
  | .stageLease w c => Sys2Proof.Machine.execStageLease w c s
  | .stageClear w c => Sys2Proof.Machine.execStageClear w c s
  | .commit w c => Sys2Proof.Machine.execCommit w c s
  | .queryLease w c => Sys2Proof.Machine.execQueryLease w c s
  | .ownRegister w c => Sys2Proof.Machine.execOwnRegister w c s
  | .ownDrop w c => Sys2Proof.Machine.execOwnDrop w c s
  | .epochPrepare home c e destroy => Sys2Proof.Machine.execEpochPrepare home c e destroy s
  | .epochReady dev c r => Sys2Proof.Machine.execEpochReady dev c r s
  | .epochReadyTimeout c => Sys2Proof.Machine.execEpochReadyTimeout c s
  | .epochAbort c => Sys2Proof.Machine.execEpochAbort c s
  | .epochSwitch c e reach binds => Sys2Proof.Machine.execEpochSwitch c e reach binds s
  | .epochSwitchResend c => Sys2Proof.Machine.execEpochSwitchResend c s
  | .epochSwitched dev c => Sys2Proof.Machine.execEpochSwitched dev c s
  | .sillageDrain c => Sys2Proof.Machine.execSillageDrain c s
  | .epochDrained dev c => Sys2Proof.Machine.execEpochDrained dev c s
  | .epochClose c => Sys2Proof.Machine.execEpochClose c s
  | .leaseExpire slot => Sys2Proof.Machine.execLeaseExpire slot s
  | .leaseScrubDone slot => Sys2Proof.Machine.execLeaseScrubDone slot s
  | .poolMemberLost ep => Sys2Proof.Machine.execPoolMemberLost ep s
  | .deviceLost dev => Sys2Proof.Machine.execDeviceLost dev s
  | .lossNotice l => Sys2Proof.Machine.execLossNotice l s
  | .offer pl f => Sys2Proof.Machine.execOffer pl f s
  | .withdraw pl f => Sys2Proof.Machine.execWithdraw pl f s
  | .confirm pl f => Sys2Proof.Machine.execConfirm pl f s
  | .ownAccept pl f => Sys2Proof.Machine.execOwnAccept pl f s
  | .offerLeaseExpire slot => Sys2Proof.Machine.execOfferLeaseExpire slot s
  | .gateUpdate oid owner => Sys2Proof.Machine.execGateUpdate oid owner s
  | .gateAck oid found => Sys2Proof.Machine.execGateAck oid found s
  | .flitData p fl tagOk => Sys2Proof.Machine.execFlitData p fl tagOk s
  | .flitIdle p fl tagOk => Sys2Proof.Machine.execFlitIdle p fl tagOk s
  | .replayTimeout p => Sys2Proof.Machine.execReplayTimeout p s
  | .keyChangeTimer p => Sys2Proof.Machine.execKeyChangeTimer p s
  | .linkParam p m => Sys2Proof.Machine.execLinkParam p m s
  | .authHello p m => Sys2Proof.Machine.execAuthHello p m s
  | .authProof p m => Sys2Proof.Machine.execAuthProof p m s
  | .kaPoint p point => Sys2Proof.Machine.execKaPoint p point s
  | .kaConfirm p value verifies => Sys2Proof.Machine.execKaConfirm p value verifies s
  | .keyNext p kph => Sys2Proof.Machine.execKeyNext p kph s
  | .linkDown p code => Sys2Proof.Machine.execLinkDown p code s
  | .drain p => Sys2Proof.Machine.execDrain p s
  | .retrainReq p => Sys2Proof.Machine.execRetrainReq p s
  | .frameVoid p src tag => Sys2Proof.Machine.execFrameVoid p src tag s
  | .join p m => Sys2Proof.Machine.execJoin p m s
  | .joinResend p => Sys2Proof.Machine.execJoinResend p s
  | .presenceDetect p present => Sys2Proof.Machine.execPresenceDetect p present s
  | .portTrainStepFail p lanesOk => Sys2Proof.Machine.execPortTrainStepFail p lanesOk s
  | .portTrained p => Sys2Proof.Machine.execPortTrained p s
  | .signalLoss p lane => Sys2Proof.Machine.execSignalLoss p lane s
  | .ackStallTimeout p => Sys2Proof.Machine.execAckStallTimeout p s
  | .noGoodFlitTimeout p => Sys2Proof.Machine.execNoGoodFlitTimeout p s
  | .replayRateWindow p => Sys2Proof.Machine.execReplayRateWindow p s
  | .retrainBackoffExpire p => Sys2Proof.Machine.execRetrainBackoffExpire p s
  | .portEnable w p => Sys2Proof.Machine.execPortEnable w p s
  | .portDisable w p => Sys2Proof.Machine.execPortDisable w p s
  | .retrain w p => Sys2Proof.Machine.execRetrain w p s
  | .portDrain w p => Sys2Proof.Machine.execPortDrain w p s
  | .portDrainEmpty p => Sys2Proof.Machine.execPortDrainEmpty p s
  | .portDrainTimeout p => Sys2Proof.Machine.execPortDrainTimeout p s
  | .frameAdmit p c => Sys2Proof.Machine.execFrameAdmit p c s
  | .residencyExpire id => Sys2Proof.Machine.execResidencyExpire id s
  | .frameSchedule p => Sys2Proof.Machine.execFrameSchedule p s
  | .routeNotice p f => Sys2Proof.Machine.execRouteNotice p f s
  | .restoreNoticeTimer p => Sys2Proof.Machine.execRestoreNoticeTimer p s
  | .occupancyWindow p => Sys2Proof.Machine.execOccupancyWindow p s
  | .swcClsCfgWrite w c v => Sys2Proof.Machine.execSwcClsCfgWrite w c v s
  | .wheelEntryDue p b => Sys2Proof.Machine.execWheelEntryDue p b s
  | .shaperConfigWrite w p off v => Sys2Proof.Machine.execShaperConfigWrite w p off v s
  | .activate w ten => Sys2Proof.Machine.execActivate w ten s
  | .deactivate w ten => Sys2Proof.Machine.execDeactivate w ten s
  | .remove w ten => Sys2Proof.Machine.execRemove w ten s
  | .removeNotice coord ten => Sys2Proof.Machine.execRemoveNotice coord ten s
  | .removeMarked dev ten => Sys2Proof.Machine.execRemoveMarked dev ten s
  | .tenantDmaDrain ten => Sys2Proof.Machine.execTenantDmaDrain ten s
  | .removeDrained dev ten => Sys2Proof.Machine.execRemoveDrained dev ten s
  | .scrub coord ten => Sys2Proof.Machine.execScrub coord ten s
  | .scrubbed dev ten => Sys2Proof.Machine.execScrubbed dev ten s
  | .removeResend ten => Sys2Proof.Machine.execRemoveResend ten s
  | .removeTimeout ten => Sys2Proof.Machine.execRemoveTimeout ten s
  | .coordinatorQuery w ten => Sys2Proof.Machine.execCoordinatorQuery w ten s
  | .quote w => Sys2Proof.Machine.execQuote w s
  | .fwStage w => Sys2Proof.Machine.execFwStage w s
  | .fwVerifyDone ok svn digest => Sys2Proof.Machine.execFwVerifyDone ok svn digest s
  | .fwSwitch w => Sys2Proof.Machine.execFwSwitch w s
  | .fwCommit w => Sys2Proof.Machine.execFwCommit w s
  | .tlsHandshake h => Sys2Proof.Machine.execTlsHandshake h s
  | .sessionIdleTimeout i1 => Sys2Proof.Machine.execSessionIdleTimeout i1 s
  | .intervalEnd inW doms => Sys2Proof.Machine.execIntervalEnd inW doms s
  | .thermalRead temps => Sys2Proof.Machine.execThermalRead temps s
  | .noteRequestDecay die => Sys2Proof.Machine.execNoteRequestDecay die s
  | .noteRampEnd die => Sys2Proof.Machine.execNoteRampEnd die s
  | .droopDetect dom => Sys2Proof.Machine.execDroopDetect dom s
  | .droopRecover dom => Sys2Proof.Machine.execDroopRecover dom s
  | .droopRecoverTimeout dom => Sys2Proof.Machine.execDroopRecoverTimeout dom s
  | .undervoltage dom => Sys2Proof.Machine.execUndervoltage dom s
  | .pwrCapWrite w v => Sys2Proof.Machine.execPwrCapWrite w v s
  | .pwrPhaseWrite w v => Sys2Proof.Machine.execPwrPhaseWrite w v s
  | .powerUp b => Sys2Proof.Machine.execPowerUp b s
  | .shutdown w => Sys2Proof.Machine.execShutdown w s
  | .flRead w => Sys2Proof.Machine.execFlRead w s
  | .flProgram w => Sys2Proof.Machine.execFlProgram w s
  | .flErase w => Sys2Proof.Machine.execFlErase w s
  | .registrarTableSync t => Sys2Proof.Machine.execRegistrarTableSync t s
  | .stackCodeError stk granule place => Sys2Proof.Machine.execStackCodeError stk granule place s
  | .bufferParityError frame block => Sys2Proof.Machine.execBufferParityError frame block s
  | .rereadResult stk granule place ok => Sys2Proof.Machine.execRereadResult stk granule place ok s
  | .partialResetComplete region ok => Sys2Proof.Machine.execPartialResetComplete region ok s
  | .bltArm w => Sys2Proof.Machine.execBltArm w s
  | .bltDisarm w => Sys2Proof.Machine.execBltDisarm w s
  | .hpData h body => Sys2Proof.Machine.execHpData h body s
  | .hpAck h => Sys2Proof.Machine.execHpAck h s
  | .hpMgmt h m => Sys2Proof.Machine.execHpMgmt h m s
  | .hpParam h classes credits => Sys2Proof.Machine.execHpParam h classes credits s
  | .hpReplayTimeout => Sys2Proof.Machine.execHpReplayTimeout s
  | .hpLinkDown => Sys2Proof.Machine.execHpLinkDown s
  | .hpParamRetry => Sys2Proof.Machine.execHpParamRetry s
  | .moveHere w => Sys2Proof.Machine.execMoveHere w s
  | .hostMoveNotice new => Sys2Proof.Machine.execHostMoveNotice new s
  | .hostMoveOld new => Sys2Proof.Machine.execHostMoveOld new s
  | .hostMoveLoad h => Sys2Proof.Machine.execHostMoveLoad h s
  | .mgmtRead w m => Sys2Proof.Machine.execMgmtRead w m s
  | .mgmtWrite w m => Sys2Proof.Machine.execMgmtWrite w m s
  | .registerWrite w a v => Sys2Proof.Machine.execRegisterWrite w a v s
  | .vinRise => Sys2Proof.Machine.execVinRise s
  | .vinLow => Sys2Proof.Machine.execVinLow s
  | .vinOvervoltage => Sys2Proof.Machine.execVinOvervoltage s
  | .vinOvervoltageTrip => Sys2Proof.Machine.execVinOvervoltageTrip s
  | .pwrEnFall => Sys2Proof.Machine.execPwrEnFall s
  | .refclkLoss => Sys2Proof.Machine.execRefclkLoss s
  | .holdoverEnd => Sys2Proof.Machine.execHoldoverEnd s
  | .hostPhyLinkUp => Sys2Proof.Machine.execHostPhyLinkUp s
  | .mgmtLinkUp => Sys2Proof.Machine.execMgmtLinkUp s
  | .mgmtLinkDown => Sys2Proof.Machine.execMgmtLinkDown s
  | .dhcpv4Lease ip => Sys2Proof.Machine.execDhcpv4Lease ip s
  | .mgmtSessionClose i1 => Sys2Proof.Machine.execMgmtSessionClose i1 s
  | .hostEndpointUpdate holder origin nseq => Sys2Proof.Machine.execHostEndpointUpdate holder origin nseq s
  | .hostMoveRetry => Sys2Proof.Machine.execHostMoveRetry s
  | .compIdAssign home granted => Sys2Proof.Machine.execCompIdAssign home granted s
  | .tileUngateComplete t => Sys2Proof.Machine.execTileUngateComplete t s
  | .accBindingAnswer slot accepted depth => Sys2Proof.Machine.execAccBindingAnswer slot accepted depth s
  | .vinFall => Sys2Proof.Machine.execVinFall s
  | .refclkReturn => Sys2Proof.Machine.execRefclkReturn s
  | .fastRampBarEnd die => Sys2Proof.Machine.execFastRampBarEnd die s
  | .coordinatorQueryReceive dev ten => Sys2Proof.Machine.execCoordinatorQueryReceive dev ten s
  | .coordinatorAnswer dev ten running => Sys2Proof.Machine.execCoordinatorAnswer dev ten running s
  | .flitCtrlReserved p fl => Sys2Proof.Machine.execFlitCtrlReserved p fl s
  | .rotSwitchDone ok => Sys2Proof.Machine.execRotSwitchDone ok s
  | .quoteDone => Sys2Proof.Machine.execQuoteDone s
  | .tenantScrubDone ten => Sys2Proof.Machine.execTenantScrubDone ten s
  | .mgmtForwardAnswer m => Sys2Proof.Machine.execMgmtForwardAnswer m s
  | .incarnationNotice dev => Sys2Proof.Machine.execIncarnationNotice dev s

end Sys2Proof.Machine
end

