-- ==== Sys2Proof/WellFormed.lean ====
section
/-! DEFINITION. Which commands are well formed: every operand has the length the spec's layout gives it. -/

namespace Sys2Proof

/-- A request holds LEN × 16 payload bytes (Table 2.1), and an extension only with DLX = 1 (R54). -/
def Req.wf (f : Req) : Bool := f.payload.length == 16 * f.len.toNat && (f.dlx || f.ext == 0)

/-- A completion holds LEN × 16 data bytes (R57). -/
def Cpl.wf (c : Cpl) : Bool := c.data.length == 16 * c.len.toNat

/-- A flit holds 240 payload bytes (R487). -/
def Flit.wf (fl : Flit) : Bool := fl.payload.length == 240

/-- LINK_PARAM grants eight classes (Table 12.12). -/
def LinkParam.wf (m : LinkParam) : Bool := m.credits.length == 8

/-- A nonce is 32 bytes (R506). -/
def AuthHello.wf (m : AuthHello) : Bool := m.nonce.length == 32

/-- A fragment holds at most 224 bytes (Table 12.12). -/
def AuthProof.wf (m : AuthProof) : Bool := decide (m.bytes.length ≤ 224)

/-- A digest is 32 bytes (Table 17.6). -/
def JoinMsg.wf (m : JoinMsg) : Bool := m.digest.length == 32

/-- A management message holds at most 64 registers (Table 19.3). -/
def MgmtMsg.wf (m : MgmtMsg) : Bool := decide (m.data.length ≤ 64)

/-- The commands whose operands have the lengths their layouts give. -/
def Instr.wf : Instr → Bool
  | .rdLine _ f | .wrLine _ f | .wrLineRel _ f | .fence _ f | .atomAdd _ f | .atomLogic _ f | .atomSwap _ f | .atomCas _ f
  | .atomMinmax _ f => f.wf
  | .readShared f | .readOwn f | .claim f => f.wf
  | .trunkRequestArrive _ f | .egressSequencedArrive f | .egressReadArrive f => f.wf
  | .destAnswerReturn c | .completionArrive c => c.wf
  | .tileXfer _ f | .accOpen _ f | .accStart _ f | .accClose _ f | .gatherDirect _ f | .gatherIndexed _ f
  | .scatterDirect _ f | .scatterIndexed _ f | .filter _ f | .scoreSel _ f | .expand _ f | .seal _ f | .reseal _ f
  | .rdObj _ f | .discard _ f | .offer _ f | .withdraw _ f | .confirm _ f | .ownAccept _ f => f.wf
  | .accSegmentIngress _ f | .accSegment f | .accResult f | .routeNotice _ f => f.wf
  | .snoopAnswer _ _ (some d) => d.length == 128
  | .flitData _ fl _ | .flitIdle _ fl _ | .flitCtrlReserved _ fl => fl.wf
  | .linkParam _ m => m.wf
  | .authHello _ m => m.wf
  | .authProof _ m => m.wf
  | .kaPoint _ p => p.length == 64
  | .kaConfirm _ v _ => v.length == 32
  | .join _ m => m.wf
  | .intervalEnd _ ds => decide (ds.length ≤ 32)
  | .thermalRead ts => ts.length == 25
  | .hpMgmt _ m | .mgmtRead _ m | .mgmtWrite _ m | .mgmtForwardAnswer m => m.wf
  | .hpParam _ _ cs => cs.length == 8
  | .fwVerifyDone _ _ d => d.length == 32
  | _ => true

end Sys2Proof
end

