-- ==== Sys2Proof/Certificates/Slice0/Obligations.lean ====
section
/-! DEFINITION. The statements for the provers. `Completes c s Q` says that a command answers a next state, and what holds of it. -/

namespace Sys2Proof.Claims
open Sys2Proof.Machine

/-- The command completes, and what holds of the next state. -/
def Completes (i : Instr) (s : State) (Q : State → Prop) : Prop := ∃ t, exec i s = .next t ∧ Q t

/-- Nothing of the management ports waits for anything. -/
abbrev Quiet (s : State) : Prop := mgmtIdle s = true ∧ s.hp.forwarded = []

/-- A session of role ADMIN or OPERATOR on a device whose management cores answer (R608, R699). -/
abbrev Operator (s : State) (i : BitVec 3) : Prop :=
  isUp s = true ∧ isResetting s 0 = false ∧ (roleOf s (.session i) = some .admin ∨ roleOf s (.session i) = some .operator)

/-- A session of role ADMIN, likewise. -/
abbrev Admin (s : State) (i : BitVec 3) : Prop :=
  isUp s = true ∧ isResetting s 0 = false ∧ roleOf s (.session i) = some .admin

/-- No command of a block runs or waits (R693). -/
abbrev BlockFree (s : State) (b : BitVec 16) : Prop := ∀ c ∈ s.mg.blocks, c.block ≠ b

/-- A source's one command, written by itself, is what the management ports wait for. -/
abbrev RunsAlone (s : State) (w : Who) (b : BitVec 16) (off : BitVec 16) : Prop :=
  s.mg.blocks.map (fun c => { c with v := 0 }) = [⟨b, off, w, 0, true, false, false⟩] ∧ (sourceOf s w).isSome = true ∧
    (∀ x ∈ s.mg.sources, x.run = none ∧ x.waiting = []) ∧ s.hp.forwarded = []

/-- The command that a write of a session started and that now runs in its block. -/
def running (i : BitVec 3) (b : BitVec 16) (v : Word) : BlockCmd := ⟨b, 0, .session i, v, true, false, false⟩

/-- What the device has sent once it answers a single write. -/
def answered (s : State) (w : Who) (a : Word) (st : Status) : List Out := (respondOne s w a st).out

/-- Drydown has begun, and the device will hold itself in reset for a cause (Table 10.2 steps 1 to 3). -/
def DryBegun (s t : State) (cause : HoldCause) : Prop :=
  t.dry.drying = true ∧ t.dry.armed = false ∧ t.err.arm = false ∧ t.boot.ready = false ∧ t.boot.heldNext = cause ∧
    (∀ p r, tget t.lnk p = some r → r.st = 0) ∧ t.eng.reqs = [] ∧ t.mg.sources = [] ∧ t.hp.link = false ∧ t.mem = s.mem ∧
    t.counter = s.counter

/-- Nothing of a source or of the port buffer stands before a request (R89, R104, R106). -/
abbrev Alone (s : State) (f : Req) : Prop := s.ing.buf = [] ∧ (srcOf s f.src).fence = none ∧ (srcOf s f.src).rels = []

/-- The policer of its port lets a request pass (R573, R575). -/
abbrev NotPoliced (s : State) (p : Port) (f : Req) : Prop := police s p f = .go true ∨ police s p f = .go false

/-- The ingress device takes a request, and neither the tables, nor the source's order, nor the policer of its port hold it (R77 to
R91, R191, R456, R468, R573). -/
abbrev Passes (s : State) (p : Port) (f : Req) : Prop :=
  ingressBad s p f = false ∧ (compRec s (portCompOf s p)).state ≠ .down ∧ hasRoute s f.dst = true ∧ heldByTables s f = false ∧
    heldOrdered s ⟨f, p, (srcOf s f.src).order, (srcOf s f.src).scope, false⟩ [] = false ∧ NotPoliced s p f

/-- A port over which a completion reaches its source (R59, R687). -/
def delivers (s : State) : Port → Bool
  | .lane q => portCarries (portOf s q)
  | .host => s.hp.link
  | .own => false

/-- Whether a request for an endpoint of this device stays inside it: for the own functions, or a line or atomic request, whose egress
this device is; the rest go out at the endpoint's port as they are (R540). -/
def staysHere (s : State) (f : Req) : Bool :=
  decide (localAt s f.dst = some .own) || ((localAt s f.dst).isSome && (opLine f.opcode || opAtomic f.opcode))

/-- A request as the ingress device forwards it: the fields it writes (R52, R80, R88, R93, R95, R455). -/
def stamped (s : State) (p : Port) (f : Req) : Req :=
  let r := (pairRec s (pairOf f)).getD (newPair s.counter 0)
  let sq := opSequenced f.opcode
  let raw := f.opcode == Op.rdLine && pairSequenced s (pairOf f)
  { f with seq := if sq then r.next else if raw then r.next - 1 else 0, epoch := stampOf s p, chk := true, pgen := 0, rsnd := false,
           seqd := sq, newp := sq && r.newp, raw := raw, hop := 0 }

/-- The outstanding request that the tracker then holds (Table 2.11, R103, R112). -/
def tracked (s : State) (p : Port) (f : Req) (path : List (DevId × PortNo)) : Track :=
  ⟨stamped s p f, p, s.counter, s.counter, (srcOf s f.src).order, (srcOf s f.src).scope, path, portCompOf s p⟩

/-- A pair's counter after a request of it was forwarded over an ingress slot (R88, R93). -/
def pairAfter (s : State) (f : Req) (slot : Nat) : Pair :=
  let r := (pairRec s (pairOf f)).getD (newPair s.counter slot)
  if opSequenced f.opcode then { r with next := r.next + 1, gated := r.newp, newp := false, slot := slot, lastUse := s.counter }
  else { r with slot := slot, lastUse := s.counter }

/-- A request on its way inside the device: to the own functions or to the egress (R540). -/
def handedOn (s : State) (p : Port) (g : Req) : Out := if localAt s g.dst = some .own then .toOwn (portQuad p) g else .toEgress g

/-- A request went on inside the device: the own functions have it, or the egress, for which its residency is kept (R534, R540). -/
def Onward (s t : State) (p : Port) (g : Req) (res : Nat) : Prop :=
  t.out = s.out ++ [handedOn s p g] ∧ t.swc = if localAt s g.dst = some .own then s.swc else (setBegan s g res).swc

/-- The request commands at an ingress port, each with the opcode and SUBOP of its row (Table 2.2). -/
def requestRows (p : Port) (f : Req) : List (Instr × Bool) :=
  [(.rdLine p f, f.opcode == Op.rdLine), (.wrLine p f, f.opcode == Op.wrLine), (.atomAdd p f, f.opcode == Op.atomAdd),
   (.atomLogic p f, f.opcode == Op.atomLogic), (.atomSwap p f, f.opcode == Op.atomSwap), (.atomCas p f, f.opcode == Op.atomCas),
   (.atomMinmax p f, f.opcode == Op.atomMinmax), (.tileXfer (.ingress p) f, f.opcode == Op.tileXfer),
   (.accOpen (.ingress p) f, f.opcode == Op.accOpen), (.accStart (.ingress p) f, f.opcode == Op.accContrib && f.subop == 0),
   (.accClose (.ingress p) f, f.opcode == Op.accClose), (.gatherDirect (.ingress p) f, f.opcode == Op.gather && f.subop == 0),
   (.gatherIndexed (.ingress p) f, f.opcode == Op.gather && f.subop == 1),
   (.scatterDirect (.ingress p) f, f.opcode == Op.scatter && f.subop == 0),
   (.scatterIndexed (.ingress p) f, f.opcode == Op.scatter && f.subop == 1), (.filter (.ingress p) f, f.opcode == Op.filter),
   (.scoreSel (.ingress p) f, f.opcode == Op.scoreSel), (.expand (.ingress p) f, f.opcode == Op.expand),
   (.rdObj (.ingress p) f, f.opcode == Op.rdObj), (.seal (.ingress p) f, f.opcode == Op.sealObj && f.subop == 0),
   (.reseal (.ingress p) f, f.opcode == Op.sealObj && f.subop == 1), (.discard (.ingress p) f, f.opcode == Op.discard),
   (.offer (.ingress p) f, f.opcode == Op.ownOffer && f.subop == 0), (.withdraw (.ingress p) f, f.opcode == Op.ownOffer && f.subop == 1),
   (.confirm (.ingress p) f, f.opcode == Op.ownOffer && f.subop == 2), (.ownAccept (.ingress p) f, f.opcode == Op.ownAccept)]

/-- The fields in which a request that is forwarded, sent again or held may leave its mark: the ingress tables, the ports' credits, the
switch core, the shapers, the counts of R455 and Table 15.2, and what left. -/
def OnlyForwarding (s t : State) : Prop :=
  t = { s with ing := t.ing, lnk := t.lnk, hp := t.hp, swc := t.swc, shp := t.shp, sec := t.sec, lse := t.lse, out := t.out }

/-- The state after a request was forwarded from the port buffer, which then holds `buf`: its place in the tracker, its pair, and
nothing else but the port's charges and credits, the counts of R455 and Table 15.2, and what left. -/
def Forwarded (s t : State) (p : Port) (f : Req) (slot : Nat) (path : List (DevId × PortNo)) : Prop :=
  t.ing.trk = s.ing.trk ++ [tracked s p f path] ∧ (opPaired f.opcode = true → pairRec t (pairOf f) = some (pairAfter s f slot)) ∧
    t.ing.holds = s.ing.holds ∧ t.ing.wins = s.ing.wins ∧
    OnlyForwarding s t

/-- An access to a tier-1 line that the stacks answer without an error event: the line's object, and nothing injected or marked
(R329, R670, R680). -/
abbrev Clean (s : State) (f : Req) (oid : Oid) (o : Obj) : Prop :=
  localAt s f.dst = some .own ∧ objAt s f.addr.toNat = some (oid, o) ∧ s.err.arm = false ∧ s.err.sticky = [] ∧
    isPoisoned s (lineNo s f.addr) = false

/-- A request that the egress runs on tier 1 by itself: not combined, not of a coherent agent, and refused by nothing (R124, R329,
R472, R591). -/
abbrev Plain (s : State) (f : Req) : Prop :=
  combinable s f = false ∧ agentOf s f = none ∧ preCheck s ⟨f, genTag s f.tenant⟩ = none ∧ f.dur = false

/-- Every other line of tier 1 reads as before under every key. -/
def OtherLinesKept (s t : State) (line : Nat) : Prop := ∀ n key, n ≠ line → lineView t n key = lineView s n key

/-- The line as an object's accesses see it. -/
def seen (s : State) (f : Req) (o : Obj) : List Byte := lineView s (lineNo s f.addr) (objKey s o)

/-- A completion of a request's destination on its way to this device's ingress. -/
def replied (f : Req) (st : Status) (data : List Byte) : Out := .toIngress (mkCpl f f.dst st data)

/-- A port whose transmitter has nothing waiting or unacknowledged and sends unciphered, and whose receiver holds no frame. -/
abbrev Ready (s : State) (p : PortNo) (r : PortRec) : Prop :=
  tget s.lnk p = some r ∧ r.rb = [] ∧ r.fresh = [] ∧ r.ended = none ∧ r.tx = none ∧ r.reord = none ∧ r.hold = false ∧ r.tail = [] ∧
    0 < r.width.toNat

/-- A flit as it leaves a port: the record, and what it puts on the port's lanes (R483, R485). -/
def flitOut (t : State) (p : PortNo) (fl : Flit) : Out :=
  .flit p fl (flitLanes (lanesInUse (portOf t p)) (flitBytes fl.payload (flitTrailer fl) fl.crc))

/-- One control message left on a port, in a good CTRL flit (R487, R491). -/
def SentCtrl (s t : State) (p : PortNo) (c : Ctrl) : Prop :=
  ∃ fl, t.out = s.out ++ [flitOut t p fl] ∧ fl.ftype = ftCtrl ∧ flitGood fl = true ∧ fl.payload = ctrlPayload c

/-- A frame of one flit left on a port, in a good DATA flit (R490). -/
def SentFrame (s t : State) (p : PortNo) (fr : Frame) : Prop :=
  ∃ fl, t.out = s.out ++ [flitOut t p fl] ∧ fl.ftype = ftData ∧ flitGood fl = true ∧ fl.payload = padTo 240 (wireFor s p fr)

/-- A port's record after a command, every other port's as before. -/
def PortBecomes (s t : State) (p : PortNo) (Q : PortRec → Prop) : Prop :=
  (∃ r, tget t.lnk p = some r ∧ Q r) ∧ ∀ q, q ≠ p → tget t.lnk q = tget s.lnk q

/-- One error record more, on a log that was empty (R676). -/
def OneRecord (t : State) (source : BitVec 8) (subject : Subject) : Prop :=
  ∃ r, t.err.log = [r] ∧ r.source = source ∧ r.subject = subject

/-- Training has begun again at step 1 (R502, Table 12.7). -/
def Restarted (r r' : PortRec) : Prop :=
  r'.st = 1 ∧ r'.step = 1 ∧ r'.retrains = satInc 16 r.retrains ∧ r'.actWidth = 0 ∧ r'.auth = false ∧ r'.enc = false ∧ r'.joined = false ∧
    r'.rb = [] ∧ r'.nextF = 0 ∧ r'.rxF = none

/-- A port at STATE 0 for a cause: keys and credits gone, the wait of R518 begun (R516, R518). -/
def AtZero (s : State) (r r' : PortRec) (code : BitVec 4) : Prop :=
  r'.st = 0 ∧ r'.step = 0 ∧ r'.actWidth = 0 ∧ r'.lastFault = code ∧ r'.tries = triesNow s r + 1 ∧
    r'.waitUntil = s.counter + retrainWait (triesNow s r) ∧ r'.auth = false ∧ r'.enc = false ∧ r'.tx = none ∧ r'.rx = none ∧
    r'.credits = [] ∧ r'.rb = [] ∧ r'.joined = false

/-- Nothing in the device is on its way through a port or hangs on it. -/
abbrev Bare (s : State) (p : PortNo) (r : PortRec) : Prop :=
  tget s.lnk p = some r ∧ r.fresh = [] ∧ r.ended = none ∧ r.cut = none ∧ r.part = [] ∧ r.tail = [] ∧ s.swc.land = [] ∧ s.swc.queue = [] ∧
    s.egr.dest = [] ∧ s.cmb.ents = [] ∧ (partOf s p).attached = false ∧ s.acc.slots = [] ∧ s.ing.trk = [] ∧ s.err.log = []

/-- This device's path-fault notice of a port was applied here (R111, R549, R550). -/
def Noticed (s t : State) (p : PortNo) : Prop :=
  ∃ n, tget t.swc.notes (devId s, p) = some n ∧ n.restore = false ∧ n.endpoint = isEndpointPort s p ∧
    n.nseq = ((tget s.swc.notes (devId s, p)).map (·.nseq)).getD 0 + 1

/-- A member's start completed with a status and data, on its way to the ingress of this device (R59, R60). -/
def startAnswer (s : State) (a : Accord) (m : MemberRec) (tag : Tag) (st : Status) (data : List Byte) : Out :=
  .toIngress (mkCpl (startReq a m tag (ownEp s)) (ownEp s) st data)

/-- Every other accord slot is as before. -/
def OtherAccords (s t : State) (n : BitVec 12) : Prop := ∀ k, k ≠ n → accOf t k = accOf s k

/-- A round of an accord is over: it is idle, its members are as a new round finds them (R258). -/
def RoundOver (s t : State) (n : BitVec 12) : Prop :=
  (accOf t n).state = .idle ∧ (accOf t n).nextRound = (accOf s n).nextRound + 1 ∧ (accOf t n).stripes = [] ∧
    (accOf t n).members.map (·.ep) = (accOf s n).members.map (·.ep) ∧ (∀ m ∈ (accOf t n).members, m.startTag = none ∧ m.expected = 0) ∧
    (accOf t n).gen = (accOf s n).gen

/-- A freed slot: generation advanced, everything else at reset (R220, R256). -/
def SlotFreed (s t : State) (n : BitVec 12) : Prop :=
  accOf t n = { Accord.blank with gen := if (accOf s n).gen = 16383 then 1 else (accOf s n).gen + 1 }

/-- A source's object command as its block starts it: an operator's, with nothing of the block running (R608, R693). -/
abbrev ObjReady (s : State) (i : BitVec 3) : Prop := Operator s i ∧ BlockFree s blkObj

/-- The eight object commands of a source, by OP (Table 8.3). -/
def objRows (i : BitVec 3) (ten : TenantId) : List Instr :=
  [.create (.session i) ten, .place (.session i) ten, .unplace (.session i) ten, .setAlt (.session i) ten, .delete (.session i) ten,
   .query (.session i) ten, .planOpen (.session i) ten, .planClose (.session i) ten]

/-- A command's data, as its source wrote it. -/
def dataOf (s : State) (i : BitVec 3) : List Byte := objBytes (privOf s (.session i))

/-- An object command answered with a status: CMD_STAT and the response (R691, Table 8.10). -/
def ObjAnswered (s t : State) (i : BitVec 3) (st : Status) : Prop :=
  (privOf t (.session i)).objStat = st ∧ t.out = answered s (.session i) 0x000A0000 st

/-- Every object but one is as before. -/
def OtherObjects (s t : State) (oid : Oid) : Prop := ∀ x, x ≠ oid → tget t.obj.tab x = tget s.obj.tab x

/-- The pages that an object held are given up: new requests no longer find them, engine requests so far still do (R339). -/
def GivenUp (s t : State) (oid : Oid) : Prop :=
  t.obj.pages = s.obj.pages.map fun r => if r.oid = oid ∧ r.gone = none then { r with gone := some s.eng.nextNo } else r

/-- Nothing that still runs uses a run of pages which an object gave up (R339). -/
abbrev Unused (s : State) (oid : Oid) : Prop := ∀ r ∈ s.obj.pages, r.oid = oid → r.gone.isSome = true → runInUse s r = false

/-- The pages an object gave up are free, zeros, and counted no longer; no other page changed (R339, R340). -/
def Scrubbed (s t : State) (oid : Oid) (ten : TenantId) : Prop :=
  (∀ r, r ∈ t.obj.pages ↔ (r ∈ s.obj.pages ∧ ¬ (r.oid = oid ∧ r.gone.isSome = true))) ∧
    quotaUse t ten 1 = quotaUse s ten 1 - ((s.obj.pages.filter fun r => r.oid == oid && r.gone.isSome).map (·.n)).sum ∧
    (∀ r ∈ s.obj.pages, r.oid = oid → r.gone.isSome = true → ∀ k, k < 4096 * r.n → cellRead t.mem.cells (4096 * r.first + k) = 0) ∧
    ∀ k, (∀ r ∈ s.obj.pages, r.oid = oid → r.gone.isSome = true → ¬ (4096 * r.first ≤ k ∧ k < 4096 * (r.first + r.n))) →
      cellRead t.mem.cells k = cellRead s.mem.cells k

/-- A tile that no part of an object's replica lies on keeps its record. -/
def OtherTiles (s t : State) (o : Obj) : Prop := ∀ x, (∀ p ∈ o.t0tiles, p.tile ≠ x) → tileOf t x = tileOf s x

/-- An object without a replica. -/
def noReplica (o : Obj) : Obj := { o with t0rep := false, fillsT0 := false, t0tiles := [] }

/-- The device's own functions expand nothing for an object (R311). -/
abbrev NoOwnExpand (s : State) (oid : Oid) : Prop := ∀ r ∈ s.eng.reqs, r.own ≠ some oid

/-- A fetch of each of some units of an object is outstanding, and its page has been asked for (R358). -/
def Fetching (s t : State) (oid : Oid) (o : Obj) (us : List Nat) : Prop :=
  ∀ u ∈ us, ∃ x ∈ t.obj.fetches, x.oid = oid ∧ x.unit = u ∧ x.at_ = s.counter ∧
    ∀ a, unitEnt s o u = .mapped a → x.page = some a ∧ Out.nandRead a u ∈ t.out

/-- Nothing awaits a unit of flash. -/
abbrev NoFetches (s : State) : Prop := s.obj.fetches = [] ∧ s.obj.reads = [] ∧ s.obj.plans = [] ∧ s.obj.fills = []

/-- A read of an object as its request begins it, with no deadline. -/
def readOf (s : State) (f : Req) : ObjRead := ⟨f, genTag s f.tenant, none, false, rdOid f, [], [], none, false, none, [], s.counter⟩

/-- A read record: how many bytes, and the tier they came from (R349, Table 8.6). -/
def recordOf (n tier : Nat) : List Byte := leBytes n 8 ++ [BitVec.ofNat 8 (4 * tier)] ++ List.replicate 7 0

/-- A request at the object's device that its checks let begin, from a requester of this device (R335, R348, R351). -/
abbrev ReadStarts (s : State) (f : Req) (o : Obj) (src : ReadSrc) : Prop :=
  isUp s = true ∧ f.opcode = Op.rdObj ∧ objNamed s (rdOid f) f.tenant = some o ∧ rdStatus s o f = none ∧ f.dlx = false ∧
    readSrc s (rdOid f) o f = src ∧ (localAt s f.src).isSome = true

/-- Blocks listed once each, as every table of the device is. -/
abbrev BlocksOnce (s : State) : Prop := (s.ftl.blocks.map (·.1)).Nodup

/-- The tier is online, with no drydown, and the journal's first record is due (R386). -/
abbrev CommitDue (s : State) (j : JRec) (rest : List JRec) : Prop :=
  isUp s = true ∧ Quiet s ∧ dryingDown s = false ∧ s.ftl.state = .online ∧ s.ftl.journal = j :: rest ∧ j.ready = true ∧ j.needs = [] ∧
    s.ftl.jBytes + jSize j.body ≤ ringBytes ∧ (∀ x ∈ rest, x.jseq ≠ j.jseq)

/-- A durable record: programmed, last in the committed list, its request answered OK. -/
def Durable (s t : State) (j : JRec) (f : Req) : Prop :=
  t.ftl.media.committed = s.ftl.media.committed ++ [(j.jseq, j.body)] ∧
    t.out = s.out ++ [.journal (recordBytes s j.jseq j.body) (commitEntry s j.jseq j.body), replied f .ok []] ∧
    t = { s with obj := t.obj, ftl := t.ftl, dry := t.dry, err := t.err, eng := { s.eng with tiles := t.eng.tiles }, out := t.out }

/-- No read of the same source and tag is in progress. -/
abbrev FreshRead (s : State) (f : Req) : Prop := ∀ r ∈ s.obj.reads, ¬ (r.f.src = f.src ∧ r.f.tag = f.tag)

/-- The byte of an object's tier-1 range or copy. -/
def at1 (s : State) (o : Obj) (i : Nat) : Byte := t1View s (o.addr + i)

/-- A read of tier 1 that meets no error there: nothing injected, and its runs pass (R329, R591, R671, R680). -/
abbrev Passes1 (s : State) (f : Req) (o : Obj) : Prop :=
  s.err.arm = false ∧ s.err.sticky = [] ∧
    runsCheck s (rdReq s (readOf s f)) false ((rdRuns (at1 s o) o f (streamed o .tier1)).map fun x => (o.addr + x.1, x.2)) = none

/-- The Blotter is not armed and no drydown image is being made: a flash report is the flash's own (R432, R680). -/
abbrev Unarmed (s : State) : Prop := isUp s = true ∧ s.err.arm = false ∧ s.dry.image = none

/-- The commands that act on a device that holds itself in reset or is off: its supply, its clock, its dies' heat, and power-up. -/
def supplyCommand : Instr → Bool
  | .powerUp _ | .thermalRead _ | .vinRise | .vinLow | .vinFall | .pwrEnFall | .refclkReturn => true
  | _ => false

/-- Commands of one source that read or set its own registers, or set registers of the device that hold no data. -/
def sourceRows (w : Who) (ten : TenantId) (c : CompId) (cls : Cls) (p : Port) (off : BitVec 7) (v : Word) : List Instr :=
  [.create w ten, .setAlt w ten, .query w ten, .planOpen w ten, .planClose w ten, .activate w ten, .quote w, .queryLease w c,
   .pwrCapWrite w v, .pwrPhaseWrite w v, .flRead w, .flProgram w, .flErase w, .bltArm w, .bltDisarm w, .swcClsCfgWrite w cls v,
   .shaperConfigWrite w p off v, .ftlGcCfgWrite w v]

/-- A command turned away or not, every source but its own is as it was. -/
def OtherSources (s t : State) (w : Who) : Prop := ∀ x, x ≠ w → sourceOf t x = sourceOf s x

/-- A tile's expand unit stands at block `i` of a stretch `x` of its running portion, its stream's header and index are in order, and the move
unit reads on to `y` without a fault; no Blotter and no sticky granule is at work (R316, R318). -/
abbrev Expands (s : State) (tl : TileNo) (r : EngReq) (k : Nat) (p : Portion) (z : ZskRun) (x : Nat × Nat) (i : Nat) (y : Nat × List Byte) : Prop :=
  isUp s = true ∧ s.err.arm = false ∧ s.err.sticky = [] ∧ running_ s tl = some (r, k, p) ∧ expanding r = true ∧
    replicaOn s tl (portionRuns s r p) = none ∧ (tileOf s tl).zsk = some z ∧ z.reread = .none ∧
    zskLocate (portionStretches s r p) z.blocks = some (x, i) ∧ controlReady s r = true ∧
    runsCheck s r false (zskHeadRuns (readTensor r)) = none ∧ (z.blocks = 0 → zskHeadFails (engByte s r) (readTensor r) = none) ∧
    readAhead (runReady s r) (engByte s r) (zskData (readTensor r) + (zskSpan (engByte s r) (readTensor r) x).1)
      ((zskSpan (engByte s r) (readTensor r) x).2 - (zskSpan (engByte s r) (readTensor r) x).1) 1024 (z.filled, (tileOf s tl).smooth) = y ∧
    runReadCheck s r false (zskData (readTensor r) + (zskSpan (engByte s r) (readTensor r) x).1 + z.filled, y.1 - z.filled) = none

/-- What the check of the block at the front of the smoothing queue comes to (Table 7.5). -/
def blockCheck (s : State) (r : EngReq) (x : Nat × Nat) (i : Nat) (y : Nat × List Byte) : BlockCheck :=
  checkBlock (engByte s r) (readTensor r) (x.1 + i) (zskSpan (engByte s r) (readTensor r) x).1 y.1
    (decide ((zskSpan (engByte s r) (readTensor r) x).2 - (zskSpan (engByte s r) (readTensor r) x).1 ≤ y.1)) y.2

/-- A tile re-reads an item of its stream, from tier 1, and what the new bytes make of the request's view. -/
abbrev Rereads (s : State) (tl : TileNo) (r : EngReq) (k : Nat) (p : Portion) (e : ZskItem) : Prop :=
  isUp s = true ∧ running_ s tl = some (r, k, p) ∧ rereadOf (tileOf s tl) = .asked e ∧ replicaOn s tl (portionRuns s r p) = none
def withItem (s : State) (r : EngReq) (e : ZskItem) (bytes : List Byte) : EngReq :=
  stageBytes r (zskItemRun (engByte s r) (readTensor r) e).1 (bytes.take (zskItemRun (engByte s r) (readTensor r) e).2)

/-- A child accord whose parent has not answered, and its ACC_OPEN, which waits (R251). -/
abbrev Opening (s : State) (n : BitVec 12) (r : EngReq) : Prop :=
  (accOf s n).state ≠ .free ∧ (accOf s n).bound = false ∧ r.own = none ∧ (localAt s r.f.src).isSome = true ∧
    s.eng.reqs.find? (fun x => x.f.src == (accOf s n).opener && x.f.tag == (accOf s n).openTag && x.f.opcode == Op.accOpen && x.started) = some r

end Sys2Proof.Claims

open Sys2Proof Sys2Proof.Machine Sys2Proof.Claims

/-- A step takes the command at the front of the queue and runs it with the queue's rest. On an empty queue 1 µs of the interval
counter passes (R11): that an idle step is a microsecond is the model's choice (log entry 2). -/
def Obligations.StepRunsTheFrontCommand : Prop :=
  (∀ (s : State) (c : Instr), step { s with pending := c :: s.pending } = exec c s) ∧
  (∀ (s : State) (c : Instr) (rest : List Instr), s.pending = c :: rest → step s = exec c { s with pending := rest }) ∧
  (∀ s : State, s.pending = [] → step s = .next (tick s)) ∧
  (∀ s : State, isUp s = false → s.pending = [] → step s = .next { s with counter := s.counter + 1 })

/-- What reset leaves in registers whose value the spec gives. Rests on R11, R220 and the register tables of chapters 03, 04, 08, 09,
11, 16 and 18. -/
def Obligations.ResetLeavesTheSpecsValues : Prop :=
  State.reset.counter = 0 ∧ State.reset.boot.ready = false ∧ State.reset.err.arm = false ∧ State.reset.err.log = [] ∧
  State.reset.err.lost = 0 ∧ State.reset.err.frameLost = 0 ∧ State.reset.err.cellN = 0x10 ∧ State.reset.err.blockN = 0x04 ∧
  State.reset.err.resetN = 0x03 ∧ State.reset.err.alert = 0 ∧ State.reset.err.alertEn = 0x1FF ∧
  State.reset.pwr.cap = 0x05DC ∧ State.reset.pwr.fastPct = 0x0A ∧ State.reset.pwr.hystPm = 0x1E ∧ State.reset.pwr.upInt = 0x08 ∧
  State.reset.pwr.avgInt = 0x10 ∧ State.reset.pwr.phase = 0x55555555 ∧ State.reset.pwr.tThr = 0x64 ∧
  State.reset.cmb.joinUs = 0x10 ∧ State.reset.cmb.readEn = true ∧ State.reset.cmb.atomEn = true ∧ State.reset.cmb.enable = true ∧
  State.reset.eng.maxTiles = 0x200 ∧ State.reset.eng.splitLog2 = 0x14 ∧ State.reset.eng.drainUs = 0x07D0 ∧
  (∀ n, (accOf State.reset n).gen = 1) ∧ State.reset.obj.nextSerial = 1 ∧ State.reset.obj.t3LatUs = 0x064 ∧
  State.reset.obj.t3Rate = 0x028 ∧ State.reset.obj.allowUs = 2 ∧ State.reset.ftl.freeHi = 50 ∧ State.reset.ftl.freeLo = 30 ∧
  State.reset.ftl.freeCrit = 10 ∧ State.reset.lse.lostUs = 0x3E8 ∧ State.reset.mem.poison = [] ∧
  (∀ a, cellRead State.reset.mem.cells a = 0) ∧ State.reset.pending = []

/-- The stacks' memory has its canonical form at reset: places rising, no zero listed. -/
def Obligations.MemoryFormAtReset : Prop :=
 Memory.wf State.reset.mem = true

/-- Every step keeps the canonical form of the stacks' memory, so that equal contents are equal data: over every state, not only those
that a run reaches. -/
def Obligations.MemoryFormKept : Prop :=
  ∀ s t : State, Memory.wf s.mem = true → step s = .next t → Memory.wf t.mem = true

/-- The wire bytes of every well-formed request and completion read back as that frame, every field at every value, and tell their own
length, whatever follows them. Rests on R51, R54, R57, R492, Tables 2.1 and 2.3. -/
def Obligations.FrameBytesReadBack : Prop :=
  (∀ f : Req, f.opcode ≠ Op.cpl → f.opcode ≠ Op.cplData → f.wf = true → frameOfWire (frameWire (.req f)) = .req f) ∧
  (∀ c : Cpl, (c.opcode = Op.cpl ∨ c.opcode = Op.cplData) → c.wf = true → frameOfWire (frameWire (.cpl c)) = .cpl c) ∧
  (∀ (f : Req) (more : List Byte), f.opcode ≠ Op.cpl → f.opcode ≠ Op.cplData → f.wf = true →
    (frameWire (.req f)).length = frameBytes (.req f) ∧ wireLength (frameWire (.req f) ++ more) = frameBytes (.req f)) ∧
  (∀ (c : Cpl) (more : List Byte), (c.opcode = Op.cpl ∨ c.opcode = Op.cplData) → c.wf = true →
    (frameWire (.cpl c)).length = frameBytes (.cpl c) ∧ wireLength (frameWire (.cpl c) ++ more) = frameBytes (.cpl c))

/-- A device that holds itself in reset, or that is off, takes no command but those of its supply, its clock, its heat and power-up,
and any other leaves it as it was. That such a device still takes commands, with no effect, is the model's choice (log entry 3).
Rests on R642, R653, R662, R710. -/
def Obligations.HeldInResetNothingRuns : Prop :=
  ∀ (s : State) (c : Instr), isUp s = false → supplyCommand c = false → exec c s = .next s

/-- A write to SWC_CLS_CFG that would make the MINs of one die total more than its pool, or would set MAX below MIN, completes with
DENIED and changes nothing; any other sets the class's MIN and MAX, in units of 16 cells, and no other class's (R556). States
R531. -/
def Obligations.ClassLimitWrites : Prop :=
  (∀ (s : State) (i : BitVec 3) (c : Cls) (v : Word), Operator s i →
    (v.extractLsb' 16 16 < v.extractLsb' 0 16 ∨ (∃ d ∈ ([0, 1, 2, 3] : List Quad),
      poolCells s d < (allCls.map fun k => if k = c then (v.extractLsb' 0 16).toNat * 16 else minCells s k).sum)) →
    exec (.swcClsCfgWrite (.session i) c v) s = .next (respondOne s (.session i) (mgmtAddr blkSwc (0x20 + 4 * c.toNat)) .denied)) ∧
  (∀ (s : State) (i : BitVec 3) (c : Cls) (v : Word), Operator s i → v.extractLsb' 0 16 ≤ v.extractLsb' 16 16 →
    (∀ d ∈ ([0, 1, 2, 3] : List Quad), (allCls.map fun k => if k = c then (v.extractLsb' 0 16).toNat * 16 else minCells s k).sum ≤ poolCells s d) →
    Completes (.swcClsCfgWrite (.session i) c v) s fun t => maxCells t c = (v.extractLsb' 16 16).toNat * 16 ∧
      minCells t c = (v.extractLsb' 0 16).toNat * 16 ∧ (∀ k, k ≠ c → maxCells t k = maxCells s k ∧ minCells t k = minCells s k) ∧
      t.out = answered s (.session i) (mgmtAddr blkSwc (0x20 + 4 * c.toNat)) .ok ∧
      t = { s with swc := { s.swc with clsMax := t.swc.clsMax, clsMin := t.swc.clsMin }, out := t.out })

/-- A write of PWR_CAP takes effect at the end of the next interval, and neither the write nor that end clears the measurement
history; an interval that ends with no write waiting keeps the cap. States R633. -/
def Obligations.PowerCapTakesEffectAtIntervalEnd : Prop :=
  (∀ (s : State) (i : BitVec 3) (v : Word), Operator s i →
    exec (.pwrCapWrite (.session i) v) s =
      .next (respondOne { s with pwr := { s.pwr with capNext := some (v.extractLsb' 0 16) } } (.session i) 0x00030000 .ok)) ∧
  (∀ (s : State) (w : Nat) (doms : List (Nat × Nat)) (cap : BitVec 16), isUp s = true → s.pwr.capNext = some cap →
    Completes (.intervalEnd w doms) s fun t => t.pwr.cap = cap ∧ t.pwr.capNext = none ∧ t.pwr.history = (w :: s.pwr.history).take 255 ∧
      t.pwr.hist = min 64 (s.pwr.hist + 1)) ∧
  (∀ (s : State) (w : Nat) (doms : List (Nat × Nat)), isUp s = true → s.pwr.capNext = none →
    Completes (.intervalEnd w doms) s fun t => t.pwr.cap = s.pwr.cap ∧ t.pwr.capNext = none)

/-- A free block is drawn from the pool as the good free block of the LUN-plane with the lowest erase count; the destination of a
cycle chosen by the wear rule takes the one with the highest. States R382. -/
def Obligations.FreeBlockDrawnByEraseCount : Prop :=
  (∀ (s : State) (lp b : BlkAddr), drawFree s lp false = some b →
    (blkOf s b).use = .free ∧ sameLunPlane b lp = true ∧
    ∀ k, k < s.ftl.geom.blocks → (blkOf s (blkIn lp k)).use = .free → (blkOf s b).erases ≤ (blkOf s (blkIn lp k)).erases) ∧
  (∀ (s : State) (lp b : BlkAddr), drawFree s lp true = some b →
    (∀ k, k < s.ftl.geom.blocks → (blkOf s (blkIn lp k)).erases ≤ 0xFFFFFFFF) →
    (blkOf s b).use = .free ∧ sameLunPlane b lp = true ∧
    ∀ k, k < s.ftl.geom.blocks → (blkOf s (blkIn lp k)).use = .free → (blkOf s (blkIn lp k)).erases ≤ (blkOf s b).erases) ∧
  (∀ (s : State) (lp : BlkAddr) (worn : Bool) (k : Nat), freeBlocks s ≠ 0 → k < s.ftl.geom.blocks →
    (blkOf s (blkIn lp k)).use = .free → (drawFree s lp worn).isSome = true)

/-- A command of one source leaves every other source's private registers and messages as they were, and leaves the stacks, the pins,
the ports, the counter and the queue alone. Rests on R363, R693. -/
def Obligations.SourcesDoNotMeet : Prop :=
  ∀ (s t : State) (w : Who) (ten : TenantId) (c : CompId) (cls : Cls) (p : Port) (off : BitVec 7) (v : Word),
    ∀ x ∈ sourceRows w ten c cls p off v, exec x s = .next t →
      OtherSources s t w ∧ t.mem = s.mem ∧ t.pins = s.pins ∧ t.lnk = s.lnk ∧ t.counter = s.counter ∧ t.pending = s.pending

/-- A handshake that meets every condition opens the lowest free session with its private registers at their reset values; a ninth, or
one whose certificate or suite fails, ends with an alert and opens none. A session idle for 300 s is closed, and one that the
client closes too: it is then no source, every other source is as before, and with nothing waiting on the management ports the
rest of the device is as before. The management port's link rises once the device is ready and falls again, its sessions kept; a
DHCPv4 lease gives the port its address while the link is up. R694: the answer of another device to a message of the host goes to
the host in an MGMT frame, and the message is no longer awaited. Nothing else of the device changes. Rests on R607, R608, R609,
R693, R689. -/
def Obligations.SessionsAndManagementPort : Prop :=
  (∀ (s : State) (h : Handshake) (i : BitVec 3) (r : Role), isUp s = true → s.mg.link = true → s.sec.update ≠ .switching →
    freeSession s = some i → h.role = some r → h.suiteOk = true → h.chainOk = true →
    exec (.tlsHandshake h) s =
      .next { s with mg := { s.mg with sources := s.mg.sources ++ [⟨.session i, some r, .blank, s.counter, none, []⟩] } }) ∧
  (∀ (s : State) (h : Handshake), isUp s = true → s.mg.link = true → s.sec.update ≠ .switching →
    (freeSession s = none ∨ h.role = none ∨ h.suiteOk = false ∨ h.chainOk = false) →
    exec (.tlsHandshake h) s = .next { s with out := s.out ++ [.tlsAlert] }) ∧
  (∀ (s : State) (i : BitVec 3) (x : Source), isUp s = true → Quiet s → sourceOf s (.session i) = some x →
    x.last + 300000000 ≤ s.counter →
    Completes (.sessionIdleTimeout i) s fun t => sourceOf t (.session i) = none ∧
      (∀ w, w ≠ .session i → sourceOf t w = sourceOf s w) ∧ t = { s with mg := t.mg } ∧ t.mg.link = s.mg.link) ∧
  (∀ (s : State) (i : BitVec 3), isUp s = true → Quiet s →
    Completes (.mgmtSessionClose i) s fun t => sourceOf t (.session i) = none ∧
      (∀ w, w ≠ .session i → sourceOf t w = sourceOf s w) ∧ t = { s with mg := t.mg } ∧ t.mg.link = s.mg.link) ∧
  (∀ s : State, isUp s = true → s.boot.ready = true → exec .mgmtLinkUp s = .next { s with mg := { s.mg with link := true } }) ∧
  (∀ s : State, isUp s = true → exec .mgmtLinkDown s = .next { s with mg := { s.mg with link := false } }) ∧
  (∀ (s : State) (ip : Word), isUp s = true → s.mg.link = true →
    exec (.dhcpv4Lease ip) s = .next { s with mg := { s.mg with v4 := true, ip := ip } }) ∧
  (∀ (s : State) (m : MgmtMsg), isUp s = true → s.hp.active = true → s.hp.link = true → s.hp.rb = [] → m.data.length ≤ 64 →
    (∃ x ∈ s.hp.forwarded, x.device = m.device ∧ x.mtag = m.mtag) →
    Completes (.mgmtForwardAnswer m) s fun t => t.hp.forwarded.length + 1 = s.hp.forwarded.length ∧ t.hp.next = s.hp.next + 1 ∧
      (∃ sh, t.out = s.out ++ [.hostFrame sh (mgmtBytes m) (some m)] ∧ sh.kind = 2 ∧ sh.eseq = s.hp.next) ∧
      t = { s with hp := t.hp, out := t.out })

/-- A whole READ of its own device over a session is answered with the registers it names in ascending order, and changes nothing
else; a WRITE of ERR_ALERT_EN takes bits [8:0] and is answered OK with COUNT 1. A write to a block index that no table names
completes with DENIED and changes nothing; one to a read-only register (BOOT_DEVID) or to an offset that no field map names
completes with OK and changes nothing; one to ERR_ALERT_EN takes bits [8:0]. Rests on R690, R691, R730, R697, R698. -/
def Obligations.ManagementAccess : Prop :=
  (∀ (s : State) (i : BitVec 3) (m : MgmtMsg), isUp s = true → Quiet s → s.boot.shutdown = false →
    (sourceOf s (.session i)).isSome = true → m.mop = 1 → m.len = 16 → 1 ≤ m.count.toNat → m.count.toNat ≤ 64 →
    m.addr.extractLsb' 0 2 = 0 → m.device = devId s →
    (∀ k, k < m.count.toNat → (readAccess s (.session i) (m.addr + BitVec.ofNat 32 (4 * k))).2 = .ok) →
    Completes (.mgmtRead (.session i) m) s fun t =>
      t.out = s.out ++ [.response (.session i)
        (response m m.count.toNat .ok ((List.range m.count.toNat).map fun k => (readAccess s (.session i) (m.addr + BitVec.ofNat 32 (4 * k))).1))] ∧
      t = { s with mg := t.mg, out := t.out }) ∧
  (∀ (s : State) (i : BitVec 3) (m : MgmtMsg), Operator s i → Quiet s → s.boot.shutdown = false → m.len = 20 → m.count = 1 →
    m.addr = 0x00010014 → m.device = devId s →
    Completes (.mgmtWrite (.session i) m) s fun t => t.err = { s.err with alertEn := (m.data.getD 0 0).setWidth 9 } ∧
      t.out = s.out ++ [.response (.session i) (response { m with mop := 2 } 1 .ok [])] ∧
      t = { s with mg := t.mg, err := t.err, out := t.out }) ∧
  (∀ (s : State) (i : BitVec 3) (a v : Word), Operator s i → s.boot.shutdown = false → blockKnown s (blkOfAddr a) = false →
    exec (.registerWrite (.session i) a v) s = .next (respondOne s (.session i) a .denied)) ∧
  (∀ (s : State) (i : BitVec 3) (v : Word), Operator s i → s.boot.shutdown = false →
    exec (.registerWrite (.session i) 0x00000000 v) s = .next (respondOne s (.session i) 0x00000000 .ok)) ∧
  (∀ (s : State) (i : BitVec 3) (v : Word), Operator s i → s.boot.shutdown = false →
    exec (.registerWrite (.session i) 0x00010020 v) s = .next (respondOne s (.session i) 0x00010020 .ok)) ∧
  (∀ (s : State) (i : BitVec 3) (v : Word), Operator s i → s.boot.shutdown = false →
    exec (.registerWrite (.session i) 0x00010014 v) s =
      .next (respondOne { s with err := { s.err with alertEn := v.setWidth 9 } } (.session i) 0x00010014 .ok))

/-- ACTIVATE puts the key, its mode and its fingerprint in the lowest free slot under the next generation; DEACTIVATE zeroizes and
frees the slot under the next generation; ACTIVATE of a tenant that is REMOVING or holds a slot is DENIED. Each answers its
source, zeroizes its key registers, and leaves other slots, other tenants and the rest of the device as they were. QUOTE takes its
nonce and runs, a fifth is RETRY; the oldest is then written to its source's SEC_QUOTE_BUF as a quote of the nonce or as the AK
certificate, and answered OK. Rests on R583, R597, R598, R611, R612. -/
def Obligations.KeySlotAndQuoteCommands : Prop :=
  (∀ (s : State) (i : BitVec 3) (ten : TenantId) (n : BitVec 10) (mode : BitVec 2), Operator s i → BlockFree s blkSec →
    isRemoving s ten = false → activeSlot s ten = none →
    (tgetD (privOf s (.session i)).secData 0 0).extractLsb' 0 2 = mode → mode.toNat ≤ 1 →
    keyFull (privOf s (.session i)) mode = true → freeSlotNo s = some n →
    Completes (.activate (.session i) ten) s fun t =>
      slotOf t n = ⟨true, mode, ten, nextGen (slotOf s n).gen, keyData (privOf s (.session i)) (keyBytes mode),
        Config.fingerprint (keyData (privOf s (.session i)) (keyBytes mode))⟩ ∧
      (∀ m, m ≠ n → slotOf t m = slotOf s m) ∧ activeSlot t ten = some n ∧ (∀ u, u ≠ ten → tenantOf t u = tenantOf s u) ∧
      (privOf t (.session i)).secSlot = n ∧ (privOf t (.session i)).secStat = .ok ∧ (privOf t (.session i)).secKey = [] ∧
      t.out = answered s (.session i) 0x00040000 .ok ∧ t = { s with sec := t.sec, mg := t.mg, out := t.out }) ∧
  (∀ (s : State) (i : BitVec 3) (ten : TenantId) (n : BitVec 10), Operator s i → BlockFree s blkSec →
    isRemoving s ten = false → activeSlot s ten = some n →
    Completes (.deactivate (.session i) ten) s fun t =>
      slotOf t n = { KeySlot.blank with gen := nextGen (slotOf s n).gen } ∧ (∀ m, m ≠ n → slotOf t m = slotOf s m) ∧
      activeSlot t ten = none ∧ (∀ u, u ≠ ten → tenantOf t u = tenantOf s u) ∧ (privOf t (.session i)).secStat = .ok ∧
      (privOf t (.session i)).secKey = [] ∧ t.out = answered s (.session i) 0x00040000 .ok ∧
      t = { s with sec := t.sec, mg := t.mg, out := t.out }) ∧
  (∀ (s : State) (i : BitVec 3) (ten : TenantId), Operator s i → BlockFree s blkSec →
    (isRemoving s ten = true ∨ (activeSlot s ten).isSome = true) →
    Completes (.activate (.session i) ten) s fun t => (privOf t (.session i)).secStat = .denied ∧
      (privOf t (.session i)).secKey = [] ∧ t.out = answered s (.session i) 0x00040000 .denied ∧
      t = { s with mg := t.mg, out := t.out }) ∧
  (∀ (s : State) (i : BitVec 3), Operator s i → BlockFree s blkSec → s.sec.update ≠ .switching → s.sec.quotes.length < 4 →
    Completes (.quote (.session i)) s fun t =>
      t.sec.quotes = s.sec.quotes ++ [⟨.session i, secDataBytes (privOf s (.session i)) 0 8,
        (tgetD (privOf s (.session i)).secData 8 0).getLsbD 0⟩] ∧
      t.mg.blocks = s.mg.blocks ++ [running i blkSec (cmdWord 4 0)] ∧ t.out = s.out ∧
      t = { s with sec := { s.sec with quotes := t.sec.quotes }, mg := t.mg }) ∧
  (∀ (s : State) (i : BitVec 3), Operator s i → s.sec.update ≠ .switching → 4 ≤ s.sec.quotes.length →
    Completes (.quote (.session i)) s fun t => (privOf t (.session i)).secStat = .retry ∧
      t.out = answered s (.session i) 0x00040000 .retry ∧ t = { s with mg := t.mg, out := t.out }) ∧
  (∀ (s : State) (q : QuoteRun) (rest : List QuoteRun), isUp s = true → s.sec.quotes = q :: rest → RunsAlone s q.w blkSec 0 →
    Completes .quoteDone s fun t => t.sec.quotes = rest ∧
      (privOf t q.w).quote = (if q.cert then akCertificate s else quoteBytes s q.nonce) ∧ (privOf t q.w).secStat = .ok ∧
      t.mg.blocks = [] ∧ t.out = answered s q.w 0x00040000 .ok ∧
      t = { s with sec := { s.sec with quotes := rest }, mg := t.mg, out := t.out })

/-- REMOVE sends its notice to every device of the domain and runs on; a second one is BUSY_RETRY; MARKED is noted; the last DRAINED
sends SCRUB to every device; an unanswered notice goes out again after 200 µs, to the devices that have not answered alone. Rests
on R599, R602, Table 15.2 steps 1, 2 and 7 at the coordinator. -/
def Obligations.RemovalCoordinated : Prop :=
  (∀ (s : State) (i : BitVec 3) (ten : TenantId), Operator s i → BlockFree s blkSec → tget s.sec.removals ten = none →
    isRemoving s ten = false →
    Completes (.remove (.session i) ten) s fun t =>
      tget t.sec.removals ten = some ⟨.session i, s.counter, s.counter, false, [], [], []⟩ ∧
      t.mg.blocks = s.mg.blocks ++ [running i blkSec (cmdWord 3 ten.toNat)] ∧
      t.out = s.out ++ (domainDevs s).map (fun d => .notice d (.remove ten)) ∧
      t = { s with sec := { s.sec with removals := t.sec.removals }, mg := t.mg, out := t.out }) ∧
  (∀ (s : State) (i : BitVec 3) (ten : TenantId), Operator s i → (tget s.sec.removals ten).isSome = true →
    Completes (.remove (.session i) ten) s fun t => (privOf t (.session i)).secStat = .busyRetry ∧
      t.out = answered s (.session i) 0x00040000 .busyRetry ∧ t = { s with mg := t.mg, out := t.out }) ∧
  (∀ (s : State) (d : DevId) (ten : TenantId) (r : Removal), isUp s = true → tget s.sec.removals ten = some r →
    Completes (.removeMarked d ten) s fun t => tget t.sec.removals ten = some { r with marked := addDev r.marked d } ∧
      (∀ u, u ≠ ten → tget t.sec.removals u = tget s.sec.removals u) ∧
      t = { s with sec := { s.sec with removals := t.sec.removals } }) ∧
  (∀ (s : State) (d : DevId) (ten : TenantId) (r : Removal), isUp s = true → tget s.sec.removals ten = some r →
    r.scrubbing = false → (∀ x ∈ domainDevs s, x = d ∨ x ∈ r.drained) →
    Completes (.removeDrained d ten) s fun t =>
      tget t.sec.removals ten = some { r with drained := addDev r.drained d, scrubbing := true, firstAt := s.counter, sentAt := s.counter } ∧
      t.out = s.out ++ (domainDevs s).map (fun x => .notice x (.scrub ten)) ∧
      t = { s with sec := { s.sec with removals := t.sec.removals }, out := t.out }) ∧
  (∀ (s : State) (ten : TenantId) (r : Removal), isUp s = true → tget s.sec.removals ten = some r → r.scrubbing = true →
    r.sentAt + 200 ≤ s.counter →
    Completes (.removeResend ten) s fun t => tget t.sec.removals ten = some { r with sentAt := s.counter } ∧
      t.out = s.out ++ ((domainDevs s).filter (fun x => !r.scrubbed.contains x)).map (fun x => .notice x (.scrub ten)) ∧
      t = { s with sec := { s.sec with removals := t.sec.removals }, out := t.out })

/-- The last SCRUBBED ends REMOVE with OK at the coordinator, which holds the tenant NORMAL with no quota in any tier; another device
ends the removal when its coordinator tells it; a device unanswered for 800 µs ends REMOVE with PATH_LOST and the tenant stays as
it is. A device that holds the tenant REMOVING without running the removal asks the recorded coordinator; that device answers
whether the removal runs; the answer ends REMOVE with BUSY_RETRY, or makes the asker the coordinator from step 1. Rests on R599
step 8 and R602, R602. -/
def Obligations.RemovalEndsOrMoves : Prop :=
  (∀ (s : State) (d : DevId) (ten : TenantId) (r : Removal), isUp s = true → tget s.sec.removals ten = some r →
    RunsAlone s r.who blkSec 0 → (∀ x ∈ domainDevs s, x = d ∨ x ∈ r.scrubbed) →
    Completes (.scrubbed d ten) s fun t => (tget t.sec.removals ten = none) ∧ isRemoving t ten = false ∧
      (∀ tier, tget t.obj.quotaLim (ten, tier) = none ∧ tget t.obj.quotaUse (ten, tier) = none) ∧ t.mg.blocks = [] ∧
      t.out = answered s r.who 0x00040000 .ok ++
        ((domainDevs s).filter (fun x => x != devId s)).map (fun x => .notice x (.scrubbed ten)) ∧ t.mem = s.mem) ∧
  (∀ (s : State) (d : DevId) (ten : TenantId) (r : RemStep), isUp s = true → Quiet s → tget s.sec.removals ten = none →
    tget s.sec.runs ten = some r → r.coord = d → d ≠ devId s → r.scrubDone = true →
    Completes (.scrubbed d ten) s fun t => tget t.sec.runs ten = none ∧ isRemoving t ten = false ∧
      (∀ tier, tget t.obj.quotaLim (ten, tier) = none ∧ tget t.obj.quotaUse (ten, tier) = none) ∧ t.out = s.out ∧ t.mem = s.mem) ∧
  (∀ (s : State) (d : DevId) (ten : TenantId) (r : Removal), isUp s = true → tget s.sec.removals ten = some r →
    RunsAlone s r.who blkSec 0 → r.firstAt + 800 ≤ s.counter → r.scrubbing = true → d ∈ domainDevs s → d ∉ r.scrubbed →
    Completes (.removeTimeout ten) s fun t => tget t.sec.removals ten = none ∧ t.mg.blocks = [] ∧
      t.out = answered s r.who 0x00040000 .pathLost ∧ (∀ u, tenantOf t u = tenantOf s u) ∧
      t = { s with sec := { s.sec with removals := t.sec.removals }, mg := t.mg, out := t.out }) ∧
  (∀ (s : State) (i : BitVec 3) (ten : TenantId) (c : DevId), Operator s i → BlockFree s blkSec → tget s.sec.removals ten = none →
    isRemoving s ten = true → (tenantOf s ten).coord = some c → c ≠ devId s →
    Completes (.coordinatorQuery (.session i) ten) s fun t => t.sec.queries = s.sec.queries ++ [(ten, .session i, s.counter)] ∧
      t.out = s.out ++ [.notice c (.coordQuery ten)] ∧ t.mg.blocks = s.mg.blocks ++ [running i blkSec (cmdWord 3 ten.toNat)] ∧
      t = { s with sec := { s.sec with queries := t.sec.queries }, mg := t.mg, out := t.out }) ∧
  (∀ (s : State) (d : DevId) (ten : TenantId), isUp s = true →
    exec (.coordinatorQueryReceive d ten) s =
      .next { s with out := s.out ++ [.notice d (.coordAnswer ten (tget s.sec.removals ten).isSome)] }) ∧
  (∀ (s : State) (d : DevId) (ten : TenantId) (w : Who) (at_ : Nat), isUp s = true → (tenantOf s ten).coord = some d →
    s.sec.queries = [(ten, w, at_)] → RunsAlone s w blkSec 0 →
    Completes (.coordinatorAnswer d ten (some true)) s fun t => t.sec.queries = [] ∧ t.mg.blocks = [] ∧
      t.out = answered s w 0x00040000 .busyRetry ∧ t = { s with sec := { s.sec with queries := [] }, mg := t.mg, out := t.out }) ∧
  (∀ (s : State) (d : DevId) (ten : TenantId) (w : Who) (at_ : Nat), isUp s = true → (tenantOf s ten).coord = some d →
    s.sec.queries = [(ten, w, at_)] → RunsAlone s w blkSec 0 →
    Completes (.coordinatorAnswer d ten (some false)) s fun t => t.sec.queries = [] ∧
      tget t.sec.removals ten = some ⟨w, s.counter, s.counter, false, [], [], []⟩ ∧
      t.out = s.out ++ (domainDevs s).map (fun x => .notice x (.remove ten)) ∧ t.mem = s.mem)

/-- The notice makes the tenant REMOVING, frees and zeroizes its slot under the next generation, records the coordinator and answers
MARKED; DRAINED follows once nothing of the tenant is outstanding and 330 µs have passed since its last frame, and not before;
SCRUB drops its windows and completion log entries; SCRUBBED follows once no object of it is left. Rests on R599, R600, Table 15.2
steps 2, 6 and 7 at a device. -/
def Obligations.RemovalAtADevice : Prop :=
  (∀ (s : State) (c : DevId) (ten : TenantId) (n : BitVec 10), isUp s = true → tget s.sec.runs ten = none →
    activeSlot s ten = some n → (∀ r ∈ s.eng.reqs, r.f.tenant ≠ ten) → (∀ x ∈ s.acc.slots, x.2.tenant ≠ ten) →
    (∀ r ∈ s.ftl.seals, r.f.tenant ≠ ten) →
    Completes (.removeNotice c ten) s fun t => isRemoving t ten = true ∧ (tenantOf t ten).coord = some c ∧
      slotOf t n = { KeySlot.blank with gen := nextGen (slotOf s n).gen } ∧ (∀ m, m ≠ n → slotOf t m = slotOf s m) ∧
      tget t.sec.runs ten = some ⟨c, s.counter, s.counter, false, false, false⟩ ∧ t.out = s.out ++ [.notice c (.marked ten)] ∧
      t = { s with sec := t.sec, out := t.out }) ∧
  (∀ (s : State) (ten : TenantId) (r : RemStep), isUp s = true → tget s.sec.runs ten = some r → r.drained = false →
    tenantBusy s ten = false → r.lastFrame + 330 ≤ s.counter →
    Completes (.tenantDmaDrain ten) s fun t => tget t.sec.runs ten = some { r with drained := true } ∧
      t.out = s.out ++ [.notice r.coord (.drainedTenant ten)] ∧ t = { s with sec := { s.sec with runs := t.sec.runs }, out := t.out }) ∧
  (∀ (s : State) (ten : TenantId) (r : RemStep), isUp s = true → tget s.sec.runs ten = some r →
    (tenantBusy s ten = true ∨ s.counter < r.lastFrame + 330) → exec (.tenantDmaDrain ten) s = .next s) ∧
  (∀ (s : State) (c : DevId) (ten : TenantId) (r : RemStep), isUp s = true → tget s.sec.runs ten = some r → r.drained = true →
    r.scrubAsked = false → r.scrubDone = false → (∀ x ∈ s.obj.tab, x.2.tenant ≠ ten) → (∀ x ∈ s.obj.plans, x.2.tenant ≠ ten) →
    Completes (.scrub c ten) s fun t => (∀ k w, tget t.ing.wins k = some w → winTenant w = ten → winValid w = false) ∧
      (∀ x ∈ t.egr.log, x.tenant ≠ ten) ∧ tget t.sec.runs ten = some { r with coord := c, scrubAsked := true } ∧ t.mem = s.mem) ∧
  (∀ (s : State) (ten : TenantId) (r : RemStep), isUp s = true → tget s.sec.runs ten = some r → r.scrubAsked = true →
    r.scrubDone = false → (∀ x ∈ s.obj.tab, x.2.tenant ≠ ten) →
    Completes (.tenantScrubDone ten) s fun t => tget t.sec.runs ten = some { r with scrubDone := true } ∧
      t.out = s.out ++ [.notice r.coord (.scrubbed ten)] ∧ t = { s with sec := { s.sec with runs := t.sec.runs }, out := t.out })

/-- FW_STAGE from an ADMIN session makes UPDATE PENDING and is DENIED from another; the verification makes it STAGED with a header
that names the other bank with TRY = 1, extends MR5 and answers OK, or makes it NONE, raises an error record and answers DENIED.
FW_SWITCH of a staged bank begins the switch-over; its end makes UPDATE STAGED again with MR0 of the boot ROM and the staged
firmware, the management measurements kept; FW_COMMIT raises the SVN floor to the running SVN, extends MR5, and is DENIED when the
running SVN is not above the floor. Rests on R608, R613, R614, R616. -/
def Obligations.FirmwareUpdate : Prop :=
  (∀ (s : State) (i : BitVec 3), Admin s i → BlockFree s blkSec → s.sec.update ≠ .switching →
    Completes (.fwStage (.session i)) s fun t => t.sec = { s.sec with update := .pending, stager := some (.session i) } ∧
      t.mg.blocks = s.mg.blocks ++ [running i blkSec (cmdWord 5 0)] ∧ t = { s with sec := t.sec, mg := t.mg }) ∧
  (∀ (s : State) (i : BitVec 3), Operator s i → BlockFree s blkSec → s.sec.update ≠ .switching → isAdmin s (.session i) = false →
    Completes (.fwStage (.session i)) s fun t => (privOf t (.session i)).secStat = .denied ∧
      t.out = answered s (.session i) 0x00040000 .denied ∧ t = { s with mg := t.mg, out := t.out }) ∧
  (∀ (s : State) (w : Who) (svn : Word) (digest : List Byte), isUp s = true → s.sec.update = .pending → s.sec.stager = some w →
    RunsAlone s w blkSec 0 → s.sec.mrs.length = 8 → s.sec.svnFloor ≤ svn.toNat →
    Completes (.fwVerifyDone true svn digest) s fun t => t.sec.update = .staged ∧ t.sec.stagedDigest = digest ∧
      t.sec.stagedSvn = svn.toNat ∧ t.sec.mrs.getD 5 [] = Config.sm3 (s.sec.mrs.getD 5 [] ++ digest) ∧
      (∃ h, t.boot.hdrs.getLast? = some h ∧ h.bankB = !s.boot.bankB ∧ h.tryIt = true ∧ ∀ x ∈ s.boot.hdrs, x.hseq < h.hseq) ∧
      t.mg.blocks = [] ∧ t.out = answered s w 0x00040000 .ok ∧ t.mem = s.mem) ∧
  (∀ (s : State) (w : Who) (ok : Bool) (svn : Word) (digest : List Byte), isUp s = true → s.sec.update = .pending →
    s.sec.stager = some w → RunsAlone s w blkSec 0 → (ok = false ∨ svn.toNat < s.sec.svnFloor) →
    Completes (.fwVerifyDone ok svn digest) s fun t => t.sec.update = .none ∧ t.sec.stagedDigest = [] ∧
      t.err = (raise s (report 13 .none locCtl)).err ∧ t.mg.blocks = [] ∧ t.out = answered s w 0x00040000 .denied ∧ t.mem = s.mem) ∧
  (∀ (s : State) (i : BitVec 3), Admin s i → BlockFree s blkSec → s.sec.update = .staged →
    Completes (.fwSwitch (.session i)) s fun t => t.sec = { s.sec with update := .switching, stager := some (.session i) } ∧
      t.mg.blocks = s.mg.blocks ++ [running i blkSec (cmdWord 6 0)] ∧ t = { s with sec := t.sec, mg := t.mg }) ∧
  (∀ (s : State) (w : Who) (rom : List Byte) (rest : List Meas), isUp s = true → s.sec.update = .switching → s.sec.stager = some w →
    RunsAlone s w blkSec 0 → s.sec.log = ⟨0, rom⟩ :: rest →
    Completes (.rotSwitchDone true) s fun t => t.sec.update = .staged ∧ t.sec.stager = none ∧
      t.sec.mrs.getD 0 [] = Config.sm3 (Config.sm3 (List.replicate 32 0 ++ rom) ++ s.sec.stagedRot) ∧
      (∀ k, 1 ≤ k → k < 8 → t.sec.mrs.getD k [] = replayLog s.sec.log (BitVec.ofNat 3 k)) ∧ t.mg.blocks = [] ∧
      t.out = answered s w 0x00040000 .ok ∧ t = { s with sec := t.sec, mg := t.mg, out := t.out }) ∧
  (∀ (s : State) (i : BitVec 3), Admin s i → BlockFree s blkSec → s.sec.update ≠ .switching → s.sec.svnFloor < s.sec.svn →
    s.sec.mrs.length = 8 →
    Completes (.fwCommit (.session i)) s fun t => t.sec.svnFloor = s.sec.svn ∧
      t.sec.mrs.getD 5 [] = Config.sm3 (s.sec.mrs.getD 5 [] ++ Config.sm3 (leBytes s.sec.svn 4)) ∧
      (privOf t (.session i)).secStat = .ok ∧ t.out = answered s (.session i) 0x00040000 .ok ∧
      t = { s with sec := t.sec, mg := t.mg, out := t.out }) ∧
  (∀ (s : State) (i : BitVec 3), Admin s i → BlockFree s blkSec → s.sec.update ≠ .switching → s.sec.svn ≤ s.sec.svnFloor →
    Completes (.fwCommit (.session i)) s fun t => (privOf t (.session i)).secStat = .denied ∧
      t.out = answered s (.session i) 0x00040000 .denied ∧ t = { s with mg := t.mg, out := t.out })

/-- POWER_UP with a bank that verifies at or above the fused floor, one good image copy, and every unit passing reaches step 9 with
READY = 1, the image's windows, quotas, pool and routes, and every trunk link failed until restored; with no bank that verifies it
stops at step 2 with FAILED = 1 and BOOT set in ERR_ALERT; where power-up cannot begin nothing changes. Rests on R646, R651, R653,
R656. -/
def Obligations.PowerUpSequence : Prop :=
  (∀ (s : State) (b : BootInputs) (h : BootHdr) (f : FwBank) (i : Image), mayBoot s = true → bootHdr b = some h →
    (if h.bankB then b.bankB else b.bankA) = f → f.verifies = true → max b.svnFloor s.sec.svnFloor ≤ f.svn →
    ((b.imgA = some i ∧ b.imgB = none) ∨ (b.imgA = none ∧ b.imgB = some i)) → imageOk i = true → b.mgmtOk = true → b.stacksOk = true →
    Completes (.powerUp b) s fun t => t.boot.step = 9 ∧ t.boot.ready = true ∧
      t.ing.wins = i.windows.map (fun x => ((x.1, x.2.1), x.2.2)) ∧ t.lse.pool = i.pool ∧ t.swc.routes = i.routes ∧
      t.swc.failed = List.range i.links.length ∧ t.obj.quotaLim = i.quotas.map (fun x => ((x.1, x.2.1), x.2.2))) ∧
  (∀ (s : State) (b : BootInputs), mayBoot s = true →
    (bootHdr b = none ∨ ((b.bankA.verifies = false ∨ b.bankA.svn < b.svnFloor) ∧ (b.bankB.verifies = false ∨ b.bankB.svn < b.svnFloor))) →
    Completes (.powerUp b) s fun t => t.boot.step = 2 ∧ t.boot.failed = true ∧ t.boot.ready = false ∧ t.boot.held = .failed ∧
      t.err.alert.getLsbD 8 = true ∧ t.lnk = [] ∧ t.mg.link = false ∧ t.mem.cells = []) ∧
  (∀ (s : State) (b : BootInputs), mayBoot s = false → exec (.powerUp b) s = .next s)

/-- READ shows 256 bytes of the configuration flash in BOOT_FL_DATA; PROGRAM writes them in the bank not running or the image copy not
in use; ERASE erases 64 KiB there; other bytes stay. A PROGRAM or ERASE elsewhere, or from a session that is not ADMIN, is DENIED
and changes nothing. Rests on R645 to R647, Table 17.12. -/
def Obligations.ConfigurationFlash : Prop :=
  (∀ (s : State) (i : BitVec 3), Operator s i → (privOf s (.session i)).flAddr.toNat % 256 = 0 →
    Completes (.flRead (.session i)) s fun t =>
      (∀ k, k < 64 → tgetD (privOf t (.session i)).flData (BitVec.ofNat 6 k) 0 = BitVec.ofNat 32
        (leAt ((List.range 4).map fun j => cflashRead s ((privOf s (.session i)).flAddr.toNat + 4 * k + j)) 0 4)) ∧
      t.out = answered s (.session i) 0x00000014 .ok ∧ t = { s with mg := t.mg, out := t.out }) ∧
  (∀ (s : State) (i : BitVec 3) (a : Nat), Admin s i → (privOf s (.session i)).flAddr.toNat = a → a % 256 = 0 → cflashOpen s a = true →
    Completes (.flProgram (.session i)) s fun t =>
      (∀ k, k < 256 → cflashBlank s (a + k) = true → cflashRead t (a + k) = (flBytes (privOf s (.session i))).getD k 0) ∧
      (∀ x, (x < a ∨ a + 256 ≤ x) → cflashRead t x = cflashRead s x) ∧
      t.out = answered s (.session i) 0x00000014 .ok ∧ t = { s with boot := { s.boot with cflash := t.boot.cflash }, out := t.out }) ∧
  (∀ (s : State) (i : BitVec 3) (a : Nat), Admin s i → (privOf s (.session i)).flAddr.toNat = a → a % 65536 = 0 →
    cflashOpen s a = true →
    Completes (.flErase (.session i)) s fun t => (∀ k, k < 65536 → cflashRead t (a + k) = Config.cflashErased) ∧
      (∀ x, (x < a ∨ a + 65536 ≤ x) → cflashRead t x = cflashRead s x) ∧
      t.out = answered s (.session i) 0x00000014 .ok ∧
      t = { s with boot := { s.boot with cflash := t.boot.cflash, cfErased := t.boot.cfErased }, out := t.out }) ∧
  (∀ (s : State) (i : BitVec 3), Operator s i →
    (isAdmin s (.session i) = false ∨ cflashOpen s (privOf s (.session i)).flAddr.toNat = false) →
    exec (.flProgram (.session i)) s = .next (respondOne s (.session i) 0x00000014 .denied) ∧
    exec (.flErase (.session i)) s = .next (respondOne s (.session i) 0x00000014 .denied))

/-- VIN above 30 V brings the always-on rail up with the counter at 0; below 30 V every rail is off, whatever ran; VIN below its
operating range while READY = 1 begins drydown, and ends a hold that drydown left; PWR_EN falling while READY = 1 begins drydown,
and turns the rails off of a device that failed to start. Over-voltage sets SUPPLY in ERR_ALERT and raises an error record, and at
its trip point begins drydown; the loss of REFCLK begins holdover with the same alert; drydown follows at its end; the clock's
return changes nothing else. Rests on R706, R707, R710, R708, R716. -/
def Obligations.SupplyAndClock : Prop :=
  (∀ s : State, s.pins.vin = .off → exec .vinRise s =
    .next { s with counter := 0, pins := { s.pins with vin := .low }, dry := { s.dry with armed := false },
                   boot := { s.boot with held := .off, ready := false, failed := false, shutdown := false } }) ∧
  (∀ s : State, exec .vinFall s =
    .next { s with pins := { s.pins with vin := .off }, dry := { s.dry with armed := false },
                   boot := { s.boot with held := .off, ready := false, failed := false, shutdown := false } }) ∧
  (∀ s : State, isUp s = true → s.boot.ready = true → s.pins.pfailN = true → s.pins.vin = .operating → dryingDown s = false →
    Completes .vinLow s fun t => DryBegun s t .drydown ∧ t.pins = { s.pins with vin := .low }) ∧
  (∀ s : State, (s.boot.held = .drydown ∨ s.boot.held = .shutdown) → s.pins.vin = .operating → exec .vinLow s =
    .next { s with pins := { s.pins with vin := .low }, dry := { s.dry with armed := false },
                   boot := { s.boot with held := .off, ready := false, failed := false, shutdown := false } }) ∧
  (∀ s : State, isUp s = true → s.boot.ready = true → s.boot.shutdown = false → s.pins.pwrEn = true → dryingDown s = false →
    Completes .pwrEnFall s fun t => DryBegun s t .drydown ∧ t.pins = { s.pins with pwrEn := false }) ∧
  (∀ s : State, s.boot.held = .failed → s.pins.pwrEn = true → dryingDown s = false → exec .pwrEnFall s =
    .next { s with pins := { s.pins with pwrEn := false }, dry := { s.dry with armed := false },
                   boot := { s.boot with held := .off, ready := false, failed := false, shutdown := false } }) ∧
  (∀ s : State, isUp s = true → Completes .vinOvervoltage s fun t => t.pins = { s.pins with vin := .over } ∧
    t.err = (setAlert (raise s (report 12 .none locCtl)) alertSupply).err ∧ t.err.alert.getLsbD 7 = true ∧
    t = { s with pins := t.pins, err := t.err }) ∧
  (∀ s : State, isUp s = true → dryingDown s = false → Completes .vinOvervoltageTrip s fun t =>
    DryBegun s t .overVoltage ∧ t.pins = { s.pins with vin := .over }) ∧
  (∀ s : State, isUp s = true → s.pins.refclk = true → Completes .refclkLoss s fun t =>
    t.pins = { s.pins with refclk := false, holdoverAt := some s.counter } ∧ t.err.alert.getLsbD 7 = true ∧
    t.err = (setAlert (raise s (report 12 .none locCtl)) alertSupply).err ∧ t = { s with pins := t.pins, err := t.err }) ∧
  (∀ s : State, isUp s = true → s.pins.holdoverAt.isSome = true → dryingDown s = false → Completes .holdoverEnd s fun t =>
    DryBegun s t .refclk ∧ t.pins = { s.pins with holdoverAt := none }) ∧
  (∀ s : State, exec .refclkReturn s = .next { s with pins := { s.pins with refclk := true } })

/-- PFAIL_N begins drydown when READY = 1 and holds the device in reset before; once the image is written, with its CRC and its
duration in its commit page, the device holds itself in reset for the cause that began it. R423: compaction keeps the live records
of the drydown buffer in order. A measurement sets c, e_meas and the durable limit, with HU_LOW and an error record below 14 J; a
bank that did not settle in 10 s leaves e_meas and DRY_LIMIT 0; a later voltage can only lower DRY_LIMIT from its start value.
SHUTDOWN of an ADMIN session while READY = 1 begins to drain a port in service, and with no port in service drydown begins at
once, for a shutdown; from another role, or before READY = 1, it is DENIED and changes nothing. Rests on R432, R434, R714, R427 to
R431, R655, R662, Table 17.10. -/
def Obligations.DrydownAndHoldUp : Prop :=
  (∀ s : State, isUp s = true → s.boot.ready = true → dryingDown s = false → Completes .pfailAssert s fun t =>
    DryBegun s t .drydown ∧ t.pins = { s.pins with pfailN := false }) ∧
  (∀ s : State, isUp s = true → s.boot.ready = false → s.dry.drying = false → exec .pfailAssert s =
    .next { s with pins := { s.pins with pfailN := false }, boot := { s.boot with held := .drydown } }) ∧
  (∀ (s : State) (i : DryImg), isUp s = true → s.dry.drying = true → s.dry.image = some i → i.chosen = true → i.committed = false →
    let j : DryImg := { i with committed := true, durationUs := s.counter - i.startAt, crc := crc32c (imgHeader s i ++ imgData s i) }
    exec .drydownImageCommit s =
      .next { s with dry := { s.dry with image := some j }, boot := { s.boot with held := s.boot.heldNext },
                     out := s.out ++ [.image (imgHeader s i ++ imgData s i)
                       (padTo 16384 (leBytes i.seq 8 ++ leBytes j.crc.toNat 4 ++ leBytes j.durationUs 4))] }) ∧
  (∀ s : State, isUp s = true → exec .dryCompact s = .next { s with dry := { s.dry with buf := s.dry.buf.filter (·.live) } }) ∧
  (∀ (s : State) (m : HoldMeas), isUp s = true → s.boot.huTimer = true →
    Completes (.holdupMeasureDone m) s fun t => t.dry.huC = huCap s m ∧ t.dry.huE = bankEnergy (huCap s m) m.vHuMv / 1000 ∧
      t.dry.limit = limitFor s (bankEnergy (huCap s m) m.vHuMv) ∧ t.dry.limitStart = t.dry.limit ∧ t.dry.limitSet = true ∧
      (t.dry.huLow = true ↔ bankEnergy (huCap s m) m.vHuMv < 14000000) ∧
      (t.dry.huLow = true → t.err.alert.getLsbD 1 = true) ∧ t.boot.huTimer = false ∧ t.mem = s.mem) ∧
  (∀ s : State, isUp s = true → s.boot.huTimer = true → 10000000 ≤ s.counter →
    Completes .holdupTimeout s fun t => t.dry.huE = 0 ∧ t.dry.huLow = true ∧ t.dry.limit = 0 ∧ t.dry.limitSet = true ∧
      t.err.alert.getLsbD 1 = true ∧ t.boot.huTimer = false ∧ t.mem = s.mem) ∧
  (∀ (s : State) (mv : Nat), isUp s = true → s.dry.limitSet = true →
    Completes (.holdupRecompute mv) s fun t => t.dry.limit = min s.dry.limitStart (limitFor s (bankEnergy s.dry.huC mv)) ∧
      t.dry.limitStart = s.dry.limitStart ∧ t.dry.buf = s.dry.buf ∧ t.mem = s.mem) ∧
  (∀ (s : State) (i : BitVec 3), Admin s i → s.boot.ready = true → dryingDown s = false → (∀ x ∈ s.lnk, x.2.st = 0) →
    Completes (.shutdown (.session i)) s fun t => t.boot.shutdown = true ∧ DryBegun s t .shutdown ∧
      ∃ more, t.out = answered s (.session i) 0x0000000C .ok ++ more) ∧
  (∀ (s : State) (i : BitVec 3) (p : PortNo) (r : PortRec), Admin s i → s.boot.ready = true → dryingDown s = false → s.lnk = [(p, r)] →
    r.st = 3 → Bare s p r →
    Completes (.shutdown (.session i)) s fun t => t.boot.shutdown = true ∧ t.boot.ready = true ∧ t.dry = s.dry ∧
      (∃ r', tget t.lnk p = some r' ∧ r'.st = 4 ∧ r'.drain = true ∧ r'.drainAt = s.counter) ∧ t.mem = s.mem) ∧
  (∀ (s : State) (i : BitVec 3), Operator s i → s.boot.shutdown = false → (isAdmin s (.session i) = false ∨ s.boot.ready = false) →
    exec (.shutdown (.session i)) s = .next (respondOne s (.session i) 0x0000000C .denied))

/-- An event is merged into the record of its SOURCE, LOC, ACTION and INJ that began within 1 ms; otherwise it takes the next RSEQ at
the end of the log, the oldest record leaving a full log, which LOST and LOGLOST count; an ACTION of 2 or more sets RECORD. An
ADMIN session arms the Blotter and any operator disarms it, each extending MR5 with the digest of the entry table; arming from
another role is DENIED and changes nothing. Rests on R676, Table 18.10, R679, R608. -/
def Obligations.ErrorRecordsAndBlotter : Prop :=
  (∀ (s : State) (e : Event), s.err.log.any (recMatches s.counter e) = true →
    (raise s e).err.log = modWhere s.err.log (recMatches s.counter e) (fun r => { r with repeats := satInc 16 r.repeats }) ∧
    (raise s e).err.nextSeq = s.err.nextSeq ∧ (raise s e).err.lost = s.err.lost) ∧
  (∀ (s : State) (e : Event), s.err.log.any (recMatches s.counter e) = false → s.err.log.length < 4096 →
    (∃ r, (raise s e).err.log = s.err.log ++ [r] ∧ r.rseq = s.err.nextSeq ∧ r.counter = s.counter ∧ r.source = e.source ∧
      r.action = e.action ∧ r.loc = e.loc ∧ r.inj = e.inj ∧ r.status = e.status ∧ r.subject = e.subject ∧ r.repeats = 0 ∧
      r.level = e.level ∧ r.extended = s.boot.contain) ∧
    (raise s e).err.nextSeq = (if s.err.nextSeq = 0xFFFFFFFF then 1 else s.err.nextSeq + 1) ∧ (raise s e).err.lost = s.err.lost) ∧
  (∀ (s : State) (e : Event), s.err.log.any (recMatches s.counter e) = false → s.err.log.length = 4096 →
    (raise s e).err.log.length = 4096 ∧ (raise s e).err.log.take 4095 = s.err.log.drop 1 ∧
    (raise s e).err.lost = satInc 16 s.err.lost ∧ (raise s e).err.alert.getLsbD 5 = true) ∧
  (∀ (s : State) (e : Event), 2 ≤ e.action.toNat → (raise s e).err.alert.getLsbD 0 = true) ∧
  (∀ (s : State) (e : Event), raise s e = { s with err := (raise s e).err }) ∧
  (∀ (s : State) (i : BitVec 3), Admin s i → s.sec.mrs.length = 8 →
    Completes (.bltArm (.session i)) s fun t => t.err.arm = true ∧
      t.sec.mrs.getD 5 [] = Config.sm3 (s.sec.mrs.getD 5 [] ++ Config.sm3 (bltTable s)) ∧
      t.out = answered s (.session i) 0x00020000 .ok ∧ t = { s with sec := t.sec, err := t.err, out := t.out }) ∧
  (∀ (s : State) (i : BitVec 3), Operator s i → s.sec.mrs.length = 8 →
    Completes (.bltDisarm (.session i)) s fun t => t.err = { s.err with arm := false } ∧
      t.sec.mrs.getD 5 [] = Config.sm3 (s.sec.mrs.getD 5 [] ++ Config.sm3 (bltTable s)) ∧
      t.out = answered s (.session i) 0x00020000 .ok ∧ t = { s with sec := t.sec, err := t.err, out := t.out }) ∧
  (∀ (s : State) (i : BitVec 3), Operator s i → isAdmin s (.session i) = false →
    exec (.bltArm (.session i)) s = .next (respondOne s (.session i) 0x00020000 .denied))

/-- A granule that fails its code is read again, once; a re-read that passes leaves data alone and is recorded with ACTION 1; one that
fails on a line of a writable object poisons the line, recorded with ACTION 2; a completion log entry that fails counts as
evicted. No second event of the block stands in these cases, so the block is not isolated. A frame with bad parity leaves the
buffer and is counted; a tile whose re-read serves goes on, and one whose does not is FAILED and isolated; under-voltage of an
engine die's rail raises a record and resets its region; a partial reset that completes in time clears its bit. Rests on R667,
R669, R667, R173, R675, R632. -/
def Obligations.ErrorsByPlace : Prop :=
  (∀ (s : State) (q : Quad) (g : Nat), isUp s = true →
    exec (.stackCodeError q g .tier1) s = .next { s with err := { s.err with rereads := s.err.rereads ++ [(q, g, false)] } }) ∧
  (∀ (s : State) (q : Quad) (g : Nat) (src dst : Ep) (cls : Cls) (seq : Seq) (e : LogEnt), isUp s = true → s.err.cells = [] →
    logFind s (src, dst, cls) seq = some e →
    Completes (.stackCodeError q g (.cplLog src dst cls seq)) s fun t => logFind t (src, dst, cls) seq = none ∧
      t.err.log = (raise s (stackEvent s q g 1 .ok .none false)).err.log ∧ t.mem = s.mem) ∧
  (∀ (s : State) (q : Quad) (g : Nat), isUp s = true → s.err.cells = [] → s.err.rereads = [(q, g, false)] →
    s.err.sticky.contains (q, g) = false → granuleAddr s q g = none →
    Completes (.rereadResult q g .tier1 true) s fun t => t.err.rereads = [] ∧
      t.err.log = (raise s (stackEvent s q g 1 .ok .none false)).err.log ∧ t = { s with err := t.err }) ∧
  (∀ (s : State) (q : Quad) (g a : Nat) (oid : Oid) (o : Obj), isUp s = true → s.err.cells = [] → s.err.rereads = [(q, g, false)] →
    granuleAddr s q g = some a → objIn s a = some (oid, o) → o.t1 = .none →
    Completes (.rereadResult q g .tier1 false) s fun t => isPoisoned t (lineOf s a) = true ∧ t.err.rereads = [] ∧
      t.err.log = (raise s (stackEvent s q g 2 .poison (.addr (BitVec.ofNat 58 a)) false)).err.log ∧ t.mem.cells = s.mem.cells) ∧
  (∀ (s : State) (x : QFrame) (blk : BitVec 12), isUp s = true → s.err.cells = [] → s.swc.land = [x] → s.swc.queue = [] →
    Completes (.bufferParityError (some x.id) blk) s fun t => t.swc.land = [] ∧ t.swc.queue = [] ∧
      t.err.frameLost = satInc 32 s.err.frameLost ∧ t.mem = s.mem) ∧
  (∀ (s : State) (t : TileNo), isUp s = true → s.err.cells = [] → (tileOf s t).failed = false →
    Completes (.tileParityError t true) s fun u => u.err.log = (raise s ⟨3, 1, 0, .ok, .none, locTile s t, false⟩).err.log ∧
      u = { s with err := u.err }) ∧
  (∀ (s : State) (t : TileNo), isUp s = true → s.err.blocks = [] → (tileOf s t).failed = false → (tileOf s t).queue = [] →
    s.acc.slots = [] → (∀ x ∈ s.eng.tiles, rereadOf x.2 = .none) →
    Completes (.tileParityError t false) s fun u => (tileOf u t).failed = true ∧ (∀ v, v ≠ t → tileOf u v = tileOf s v) ∧
      u.err.alert.getLsbD 0 = true ∧ u.mem = s.mem) ∧
  (∀ (s : State) (dom : BitVec 5), isUp s = true → dom.toNat < 8 → s.err.resets = [] → s.err.resetting = 0 → s.eng.tiles = [] →
    Completes (.undervoltage dom) s fun t => t.err.resetting.getLsbD (14 + dom.toNat) = true ∧ t.err.alert.getLsbD 6 = true ∧
      t.mem = s.mem) ∧
  (∀ (s : State) (e : EscEvent) (r : BitVec 5), isUp s = true → isResetting s r = true → 14 ≤ r.toNat → r.toNat < 22 →
    s.err.resets = [e] → e.die = regionDie r → s.counter ≤ e.at_ + 5000 →
    exec (.partialResetComplete r true) s =
      .next { s with err := { s.err with resetting := s.err.resetting &&& ~~~(BitVec.ofNat 26 (2 ^ r.toNat)) } })

/-- The end of an interval reads the input power and the domains and puts a written cap in force; input power past the cap by more
than FAST_PCT moves the capping loop one position down; at the floor it sets CAP_UNMET and CAP in ERR_ALERT. PWR_PHASE takes a
value with no code 3, and a value with one is DENIED and changes nothing. Rests on R622, R633, R634, R637, Table 16.10. -/
def Obligations.CappingLoop : Prop :=
  (∀ (s : State) (w : Nat) (doms : List (Nat × Nat)), isUp s = true →
    Completes (.intervalEnd w doms) s fun t => t.pwr.inW = w ∧ t.pwr.cap = s.pwr.capNext.getD s.pwr.cap ∧ t.pwr.capNext = none ∧
      t.pwr.history = (w :: s.pwr.history).take 255 ∧ t.pwr.hist = min 64 (s.pwr.hist + 1) ∧ t.mem = s.mem) ∧
  (∀ (s : State) (w : Nat) (doms : List (Nat × Nat)), isUp s = true → s.pwr.capNext = none → s.pwr.capPos < 18 → s.pwr.capPos ≠ 10 →
    capW s < w → capW s * (100 + s.pwr.fastPct.toNat) < w * 100 →
    Completes (.intervalEnd w doms) s fun t => t.pwr.capPos = s.pwr.capPos + 1 ∧ t.pwr.upCount = 0) ∧
  (∀ (s : State) (w : Nat) (doms : List (Nat × Nat)), isUp s = true → s.pwr.capNext = none → s.pwr.capPos = 18 → capW s < w →
    Completes (.intervalEnd w doms) s fun t => t.pwr.capPos = 18 ∧ t.pwr.capUnmet = true ∧ t.pwr.unmetSeen = true ∧
      t.err.alert.getLsbD 3 = true) ∧
  (∀ (s : State) (i : BitVec 3) (v : Word), Operator s i → (∀ k, k < 16 → bitsOf v.toNat (2 * k) 2 ≠ 3) →
    Completes (.pwrPhaseWrite (.session i) v) s fun t => t.pwr.phase = v ∧ t.out = answered s (.session i) 0x00030010 .ok ∧
      t = { s with pwr := { s.pwr with phase := v, dies := t.pwr.dies }, out := t.out }) ∧
  (∀ (s : State) (i : BitVec 3) (v : Word) (k : Nat), Operator s i → k < 16 → bitsOf v.toNat (2 * k) 2 = 3 →
    exec (.pwrPhaseWrite (.session i) v) s = .next (respondOne s (.session i) 0x00030010 .denied))

/-- A note not asked for 1 ms leaves a die's request; a ramp ends in its target; a droop holds the ramp of its die's rail; recovery
resumes a ramp towards a slower note and aborts one towards a faster note after a third droop, which bars such ramps for 1 ms; no
recovery in 100 µs aborts it with an error record; at the bar's end a note granted faster starts its ramp. Only the power
controller's state (and the error log) changes. Rests on R626, R629, R631, Table 16.3. -/
def Obligations.NotesAndDroops : Prop :=
  (∀ (s : State) (e : BitVec 3), isUp s = true →
    Completes (.noteRequestDecay e) s fun t => (∀ a ∈ (dieOf t e).asks, s.counter < a.2 + 1000) ∧
      (∀ d, d ≠ e → dieOf t d = dieOf s d) ∧ t = { s with pwr := { s.pwr with dies := t.pwr.dies } }) ∧
  (∀ (s : State) (e : BitVec 3) (r : Ramp), isUp s = true → (dieOf s e).ramp = some r → r.heldAt = none →
    Completes (.noteRampEnd e) s fun t => (dieOf t e).note = (if r.back then r.start else r.target) ∧
      (∀ d, d ≠ e → dieOf t d = dieOf s d) ∧ t = { s with pwr := { s.pwr with dies := t.pwr.dies } }) ∧
  (∀ (s : State) (dom : BitVec 5) (r : Ramp), isUp s = true → dom.toNat < 8 → (dieOf s (dom.setWidth 3)).ramp = some r →
    Completes (.droopDetect dom) s fun t => t.pwr.droopSeen = true ∧
      (dieOf t (dom.setWidth 3)).ramp = some { r with droops := r.droops + 1, heldAt := some s.counter } ∧
      (∀ d, d ≠ dom.setWidth 3 → dieOf t d = dieOf s d) ∧ t = { s with pwr := t.pwr }) ∧
  (∀ (s : State) (dom : BitVec 5) (r : Ramp), isUp s = true → dom.toNat < 8 → (dieOf s (dom.setWidth 3)).ramp = some r →
    r.heldAt.isSome = true → noteCode r.start < noteCode r.target →
    Completes (.droopRecover dom) s fun t => (dieOf t (dom.setWidth 3)).ramp = some { r with heldAt := none } ∧
      t = { s with pwr := t.pwr }) ∧
  (∀ (s : State) (dom : BitVec 5) (r : Ramp), isUp s = true → dom.toNat < 8 → (dieOf s (dom.setWidth 3)).ramp = some r →
    r.heldAt.isSome = true → r.back = false → 3 ≤ r.droops → noteCode r.target < noteCode r.start →
    Completes (.droopRecover dom) s fun t => (dieOf t (dom.setWidth 3)).ramp = some { r with heldAt := none, back := true } ∧
      (dieOf t (dom.setWidth 3)).barUntil = s.counter + 1000 ∧ t = { s with pwr := t.pwr }) ∧
  (∀ (s : State) (dom : BitVec 5) (r : Ramp) (at_ : Nat), isUp s = true → dom.toNat < 8 → (dieOf s (dom.setWidth 3)).ramp = some r →
    r.heldAt = some at_ → at_ + 100 ≤ s.counter →
    Completes (.droopRecoverTimeout dom) s fun t => (dieOf t (dom.setWidth 3)).ramp = some { r with heldAt := none, back := true } ∧
      (dieOf t (dom.setWidth 3)).barUntil = s.counter + 1000 ∧ t.err = (raise s (report 12 .none (locDomain dom))).err ∧
      t = { s with pwr := t.pwr, err := t.err }) ∧
  (∀ (s : State) (e : BitVec 3), isUp s = true → (dieOf s e).ramp = none → (dieOf s e).barUntil ≤ s.counter →
    noteCode (grantedNote s e) < noteCode (dieOf s e).note →
    Completes (.fastRampBarEnd e) s fun t => (dieOf t e).ramp = some ⟨(dieOf s e).note, grantedNote s e, 0, none, false⟩ ∧
      (∀ d, d ≠ e → dieOf t d = dieOf s d) ∧ t = { s with pwr := { s.pwr with dies := t.pwr.dies } })

/-- A marked tile with an empty queue and no incomplete stripe is gated, one with a stripe is not; a tile being ungated becomes
available, and no tile is marked while the count is within the allowance; a reading keeps the dies' temperatures; a die over CRIT
puts the thermal loop at the floor and, when CRIT_ACTIVE was clear, sets THERM; a die over SHUT for 100 µs begins drydown. Rests
on R242, R635, R639 to R642. -/
def Obligations.TilesAndHeat : Prop :=
  (∀ (s : State) (t : TileNo), isUp s = true → (tileOf s t).marked = true → (tileOf s t).gated = false → (tileOf s t).queue = [] →
    hasStripe s t = false → Completes (.tileGate t) s fun u => tileOf u t = { tileOf s t with gated := true, marked := false } ∧
      (∀ v, v ≠ t → tileOf u v = tileOf s v) ∧ u = { s with eng := { s.eng with tiles := u.eng.tiles } }) ∧
  (∀ (s : State) (t : TileNo), isUp s = true → hasStripe s t = true → exec (.tileGate t) s = .next s) ∧
  (∀ (s : State) (t : TileNo), isUp s = true → (tileOf s t).ungating = true → ungatedCount s ≤ allowance s →
    Completes (.tileUngateComplete t) s fun u => tileOf u t = { tileOf s t with gated := false, ungating := false } ∧
      (∀ v, v ≠ t → tileOf u v = tileOf s v) ∧ u = { s with eng := { s.eng with tiles := u.eng.tiles } }) ∧
  (∀ (s : State) (temps : List Int), isUp s = true → (∀ j y, temps[j]? = some y → y ≤ shutOf j) →
    Completes (.thermalRead temps) s fun t => (∀ k x, temps[k]? = some x → tget t.pwr.temps k = some x) ∧
      t.counter = s.counter ∧ t.boot = s.boot ∧ t.mem = s.mem) ∧
  (∀ (s : State) (temps : List Int) (k : Nat) (x : Int), isUp s = true → temps[k]? = some x → critOf k < x →
    (∀ j y, temps[j]? = some y → y ≤ shutOf j) →
    Completes (.thermalRead temps) s fun t => t.pwr.critActive = true ∧ t.pwr.thermPos = 18 ∧
      (s.pwr.critActive = false → t.err.alert.getLsbD 4 = true)) ∧
  (∀ (s : State) (temps : List Int) (k : Nat) (x : Int) (at_ : Nat), isUp s = true → dryingDown s = false → temps[k]? = some x →
    shutOf k < x → tget s.pwr.overShut k = some at_ → at_ + 100 ≤ s.counter →
    Completes (.thermalRead temps) s fun t => t.dry.drying = true ∧ t.boot.heldNext = .thermal ∧ t.boot.ready = false)

/-- GRANT of a free range of a pool member makes a RESERVED lease of the next generation that expires 1,000 counts per millisecond of
its term later, and is DENIED over a range that another lease holds; RENEW moves the expiry; RELEASE begins the scrub of the
range, or frees a LOST lease; QUERY_LEASE returns the entry's 32 bytes. Rests on R446 to R449, R451, R452, Table 11.1. -/
def Obligations.LeaseCommands : Prop :=
  (∀ (s : State) (i : BitVec 3) (c k : CompId) (e : Ep) (n : BitVec 16) (d : List Byte) (x : PoolEntry), Operator s i →
    BlockFree s blkLse → (s.lse.synced = true ∨ isRegistrar s = true) → lseBytes (privOf s (.session i)) = d →
    zerosAt d 0 4 = true → zerosAt d 24 2 = true → zerosAt d 28 4 = true → leAt d 4 2 = k.toNat → leAt d 6 2 = e.toNat →
    leAt d 8 8 % 4096 = 0 → leAt d 16 8 % 4096 = 0 → leAt d 8 8 ≤ leAt d 16 8 → leAt d 26 2 ≠ 0 → (compRec s k).state = .up →
    x ∈ s.lse.pool → x.ep = e → x.base.toNat ≤ leAt d 8 8 → leAt d 16 8 + 4095 ≤ x.limit.toNat →
    (∀ y ∈ s.lse.leases, leaseMeets e (leAt d 8 8) (leAt d 16 8) y.2 = false) → freeLease s = some n →
    Completes (.grant (.session i) c) s fun t =>
      leaseOf t n = ⟨if (leaseOf s n).gen = 1023 then 1 else (leaseOf s n).gen + 1, k, e, leAt d 8 8, leAt d 16 8, .reserved, false, false,
        false, false, leAt d 26 2, s.counter + 1000 * leAt d 26 2, none⟩ ∧ (∀ m, m ≠ n → leaseOf t m = leaseOf s m) ∧
      tgetD (privOf t (.session i)).lseData 0 0 = leaseId t n ∧ t.out = answered s (.session i) 0x000D0000 .ok ∧
      t = { s with lse := { s.lse with leases := t.lse.leases }, mg := t.mg, out := t.out }) ∧
  (∀ (s : State) (i : BitVec 3) (c : CompId) (e : Ep) (d : List Byte) (y : BitVec 16 × Lease), Operator s i → BlockFree s blkLse →
    (s.lse.synced = true ∨ isRegistrar s = true) → lseBytes (privOf s (.session i)) = d → leAt d 6 2 = e.toNat → y ∈ s.lse.leases →
    leaseMeets e (leAt d 8 8) (leAt d 16 8) y.2 = true → y.2.state ≠ .scrubbing →
    Completes (.grant (.session i) c) s fun t => t.lse = s.lse ∧ (privOf t (.session i)).lseStat = .denied ∧
      t.out = answered s (.session i) 0x000D0000 .denied) ∧
  (∀ (s : State) (i : BitVec 3) (c : CompId) (n : BitVec 16) (term : Nat), Operator s i → BlockFree s blkLse →
    cmdLease s (.session i) = some n → leAt (lseBytes (privOf s (.session i))) 26 2 = term →
    (leaseOf s n).state ≠ .expired → (leaseOf s n).state ≠ .scrubbing → s.counter < (leaseOf s n).expiry →
    Completes (.renew (.session i) c) s fun t =>
      leaseOf t n = { leaseOf s n with
        termMs := if term = 0 then (leaseOf s n).termMs else term
        expiry := s.counter + 1000 * (if term = 0 then (leaseOf s n).termMs else term) } ∧
      (∀ m, m ≠ n → leaseOf t m = leaseOf s m) ∧ t.out = answered s (.session i) 0x000D0000 .ok ∧
      t = { s with lse := { s.lse with leases := t.lse.leases }, mg := t.mg, out := t.out }) ∧
  (∀ (s : State) (i : BitVec 3) (c : CompId) (n : BitVec 16), Operator s i → BlockFree s blkLse → cmdLease s (.session i) = some n →
    ((leaseOf s n).state = .reserved ∨ (leaseOf s n).state = .expired) → (leaseOf s n).inPrev = false →
    offerLease s (leaseOf s n) = false →
    Completes (.release (.session i) c) s fun t => (leaseOf t n).state = .scrubbing ∧ (leaseOf t n).gen = (leaseOf s n).gen ∧
      (∀ m, m ≠ n → leaseOf t m = leaseOf s m) ∧
      t.out = answered (emit s (.zeroRange (leaseOf s n).target (BitVec.ofNat 58 (leaseOf s n).base)
        (((leaseOf s n).limit - (leaseOf s n).base) / 4096 + 1))) (.session i) 0x000D0000 .ok ∧
      t = { s with lse := { s.lse with leases := t.lse.leases }, mg := t.mg, out := t.out }) ∧
  (∀ (s : State) (i : BitVec 3) (c : CompId) (n : BitVec 16), Operator s i → BlockFree s blkLse → cmdLease s (.session i) = some n →
    (leaseOf s n).state = .lost → (leaseOf s n).inPrev = false →
    Completes (.release (.session i) c) s fun t => leaseOf t n = { Lease.blank with gen := (leaseOf s n).gen } ∧
      (∀ m, m ≠ n → leaseOf t m = leaseOf s m) ∧ t.out = answered s (.session i) 0x000D0000 .ok ∧
      t = { s with lse := { s.lse with leases := t.lse.leases }, mg := t.mg, out := t.out }) ∧
  (∀ (s : State) (i : BitVec 3) (c : CompId) (n : BitVec 16), Operator s i → BlockFree s blkLse → cmdLease s (.session i) = some n →
    Completes (.queryLease (.session i) c) s fun t =>
      (∀ k, k < 8 → tgetD (privOf t (.session i)).lseData (BitVec.ofNat 3 k) 0 = BitVec.ofNat 32 (leAt (leaseBytes s n) (4 * k) 4)) ∧
      t.out = answered s (.session i) 0x000D0000 .ok ∧ t = { s with mg := t.mg, out := t.out })

/-- A lease past its expiry is EXPIRED with both bits clear, its home told and an error record raised, and one before it is as it was;
a scrubbed lease is free and keeps its generation; a pool member without a route for LOST_US loses its leases, those being
scrubbed apart (log entry 44); a device without one for LOST_US, and one that restarted, is declared lost by the registrar; a loss
notice takes its composition DOWN. Rests on R450, R452, R466 to R468, R659. -/
def Obligations.LeaseAndDeviceLoss : Prop :=
  (∀ (s : State) (n : BitVec 16), isUp s = true → ((leaseOf s n).state = .reserved ∨ (leaseOf s n).state = .active) →
    offerLease s (leaseOf s n) = false → (leaseOf s n).expiry ≤ s.counter →
    Completes (.leaseExpire n) s fun t => leaseOf t n = { leaseOf s n with state := .expired, inPrev := false, inCur := false } ∧
      (∀ m, m ≠ n → leaseOf t m = leaseOf s m) ∧ t.err = (raise s (report 11 (.addr (BitVec.ofNat 58 (leaseOf s n).base)) locNone)).err ∧
      t.out = s.out ++ [.notice (compRec s (leaseOf s n).comp).home (.leaseExpired (leaseOf s n).comp (leaseId s n))] ∧
      t = { s with lse := { s.lse with leases := t.lse.leases }, err := t.err, out := t.out }) ∧
  (∀ (s : State) (n : BitVec 16), isUp s = true → s.counter < (leaseOf s n).expiry → exec (.leaseExpire n) s = .next s) ∧
  (∀ (s : State) (n : BitVec 16), isUp s = true → (leaseOf s n).state = .scrubbing →
    Completes (.leaseScrubDone n) s fun t => leaseOf t n = { Lease.blank with gen := (leaseOf s n).gen } ∧
      (∀ m, m ≠ n → leaseOf t m = leaseOf s m) ∧ t = { s with lse := { s.lse with leases := t.lse.leases } }) ∧
  (∀ (s : State) (e : Ep) (at_ : Nat) (x : PoolEntry), isUp s = true → Quiet s → tget s.lse.noRouteEp e = some at_ →
    s.lse.lostMembers.contains e = false → x ∈ s.lse.pool → x.ep = e → at_ + lostBound s ≤ s.counter →
    Completes (.poolMemberLost e) s fun t => e ∈ t.lse.lostMembers ∧
      (∀ n, (leaseOf s n).target = e → (leaseOf s n).state ≠ .free → (leaseOf s n).state ≠ .scrubbing → offerLease s (leaseOf s n) = false →
        (leaseOf t n).state = .lost ∧ (leaseOf t n).gen = (leaseOf s n).gen) ∧
      (∀ n, (leaseOf s n).target ≠ e ∨ (leaseOf s n).state = .scrubbing → leaseOf t n = leaseOf s n) ∧ t.mem = s.mem) ∧
  (∀ (s : State) (d : DevId) (at_ : Nat), isUp s = true → Quiet s → isRegistrar s = true → d ≠ devId s → tget s.lse.noRouteDev d = some at_ →
    at_ + lostBound s ≤ s.counter → s.lse.lostDevs.contains d = false → s.lse.comps = [] → s.lse.changes = [] → s.acc.slots = [] →
    Completes (.deviceLost d) s fun t => t.lse.lostDevs = s.lse.lostDevs ++ [d] ∧
      t.out = s.out ++ ((domainDevs s).filter (fun x => x != devId s)).map (fun x => .notice x (.loss (.device d))) ∧
      t.err = (raise s (report 11 (.dev d) locNone)).err ∧ t.mem = s.mem) ∧
  (∀ (s : State) (d : DevId), isUp s = true → Quiet s → isRegistrar s = true → d ≠ devId s → s.lse.lostDevs.contains d = false →
    s.lse.comps = [] → s.lse.changes = [] → s.acc.slots = [] →
    Completes (.incarnationNotice d) s fun t => t.lse.lostDevs = s.lse.lostDevs ++ [d] ∧
      t.out = s.out ++ ((domainDevs s).filter (fun x => x != devId s)).map (fun x => .notice x (.loss (.device d))) ∧ t.mem = s.mem) ∧
  (∀ (s : State) (c : CompId), isUp s = true → Quiet s → (compRec s c).state ≠ .free →
    Completes (.lossNotice (.lease c)) s fun t => (compRec t c).state = .down ∧ (∀ k, k ≠ c → compRec t k = compRec s k) ∧
      t.lse.leases = s.lse.leases ∧ t.mem = s.mem)

/-- STAGE_WIN stages the values of a window of a port that is bound to the composition or staged to be, STAGE_PORT the binding or
unbinding of an endpoint-facing port, STAGE_LEASE a leave of a lease of the composition; the entry takes the place of an earlier
one for the same window, port or lease, and leaves every other entry. STAGE_CLEAR drops the composition's entries, and the leaves
that no change has taken yet. Each of the first three is DENIED in the cases of R459, and changes nothing. Nothing staged takes
effect: windows, bindings and lease states are as before. Rests on R458, R459, Table 11.8. -/
def Obligations.StagingCommands : Prop :=
  (∀ (s : State) (i : BitVec 3) (c : CompId) (d : List Byte) (v : Win), Operator s i → BlockFree s blkLse →
    (s.lse.synced = true ∨ isRegistrar s = true) → lseBytes (privOf s (.session i)) = d → c ≠ 0 → isEndpointPort s (byteAt d 0) = true →
    (portCompOf s (.lane (byteAt d 0)) = c ∨ .port c (byteAt d 0) true ∈ s.lse.staged) → s.lse.staged.length < 4096 →
    v = ⟨BitVec.ofNat 32 (leAt d 4 4) &&& 0xFFFFF000, BitVec.ofNat 32 (leAt d 8 4) &&& 0x03FFFFFF,
      BitVec.ofNat 32 (leAt d 12 4) &&& 0xFFFFF000, BitVec.ofNat 32 (leAt d 16 4) &&& 0x03FFFFFF,
      BitVec.ofNat 32 (leAt d 20 4) &&& 0xBFFFFFFF⟩ →
    Completes (.stageWin (.session i) c) s fun t =>
      (∀ x, x ∈ t.lse.staged ↔ x = .win c (byteAt d 0) (byteAt d 1) v ∨
        (x ∈ s.lse.staged ∧ ∀ c' v', x ≠ .win c' (byteAt d 0) (byteAt d 1) v')) ∧
      t.lse.staged.getLast? = some (.win c (byteAt d 0) (byteAt d 1) v) ∧
      t.out = answered s (.session i) 0x000D0000 .ok ∧ t = { s with lse := { s.lse with staged := t.lse.staged }, mg := t.mg, out := t.out }) ∧
  (∀ (s : State) (i : BitVec 3) (c : CompId) (d : List Byte), Operator s i → BlockFree s blkLse →
    (s.lse.synced = true ∨ isRegistrar s = true) → lseBytes (privOf s (.session i)) = d →
    (c = 0 ∨ isEndpointPort s (byteAt d 0) = false ∨
      (portCompOf s (.lane (byteAt d 0)) ≠ c ∧ .port c (byteAt d 0) true ∉ s.lse.staged)) →
    Completes (.stageWin (.session i) c) s fun t =>
      t.out = answered s (.session i) 0x000D0000 .denied ∧ t = { s with mg := t.mg, out := t.out }) ∧
  (∀ (s : State) (i : BitVec 3) (c : CompId) (d : List Byte), Operator s i → BlockFree s blkLse →
    (s.lse.synced = true ∨ isRegistrar s = true) → lseBytes (privOf s (.session i)) = d → c ≠ 0 → isEndpointPort s (byteAt d 0) = true →
    (compRec s c).state ≠ .free →
    ((byteAt d 1).getLsbD 0 = false ∨ portCompOf s (.lane (byteAt d 0)) = 0 ∨ portCompOf s (.lane (byteAt d 0)) = c) →
    s.lse.staged.length < 4096 →
    Completes (.stagePort (.session i) c) s fun t =>
      (∀ x, x ∈ t.lse.staged ↔ x = .port c (byteAt d 0) ((byteAt d 1).getLsbD 0) ∨
        (x ∈ s.lse.staged ∧ ∀ c' b', x ≠ .port c' (byteAt d 0) b')) ∧
      t.lse.staged.getLast? = some (.port c (byteAt d 0) ((byteAt d 1).getLsbD 0)) ∧ t.out = answered s (.session i) 0x000D0000 .ok ∧
      t = { s with lse := { s.lse with staged := t.lse.staged }, mg := t.mg, out := t.out }) ∧
  (∀ (s : State) (i : BitVec 3) (c : CompId) (d : List Byte), Operator s i → BlockFree s blkLse →
    (s.lse.synced = true ∨ isRegistrar s = true) → lseBytes (privOf s (.session i)) = d → (byteAt d 1).getLsbD 0 = true →
    portCompOf s (.lane (byteAt d 0)) ≠ 0 → portCompOf s (.lane (byteAt d 0)) ≠ c →
    Completes (.stagePort (.session i) c) s fun t =>
      t.out = answered s (.session i) 0x000D0000 .denied ∧ t = { s with mg := t.mg, out := t.out }) ∧
  (∀ (s : State) (i : BitVec 3) (c : CompId) (n : BitVec 16), Operator s i → BlockFree s blkLse →
    (s.lse.synced = true ∨ isRegistrar s = true) → cmdLease s (.session i) = some n → (leaseOf s n).comp = c →
    (leaseOf s n).state ≠ .scrubbing → offerLease s (leaseOf s n) = false → s.lse.staged.length < 4096 →
    Completes (.stageLease (.session i) c) s fun t =>
      (∀ x, x ∈ t.lse.staged ↔ x = .lease c n ((byteAt (lseBytes (privOf s (.session i))) 4).getLsbD 0) ∨
        (x ∈ s.lse.staged ∧ ∀ c' k', x ≠ .lease c' n k')) ∧
      t.lse.staged.getLast? = some (.lease c n ((byteAt (lseBytes (privOf s (.session i))) 4).getLsbD 0)) ∧
      leaseOf t n = { leaseOf s n with leave := true, cut := (byteAt (lseBytes (privOf s (.session i))) 4).getLsbD 0 } ∧
      (∀ m, m ≠ n → leaseOf t m = leaseOf s m) ∧ t.out = answered s (.session i) 0x000D0000 .ok ∧
      t = { s with lse := { s.lse with staged := t.lse.staged, leases := t.lse.leases }, mg := t.mg, out := t.out }) ∧
  (∀ (s : State) (i : BitVec 3) (c : CompId) (n : BitVec 16), Operator s i → BlockFree s blkLse →
    (s.lse.synced = true ∨ isRegistrar s = true) → cmdLease s (.session i) = some n → (leaseOf s n).comp ≠ c →
    Completes (.stageLease (.session i) c) s fun t =>
      t.out = answered s (.session i) 0x000D0000 .denied ∧ t = { s with mg := t.mg, out := t.out }) ∧
  (∀ (s : State) (i : BitVec 3) (c : CompId), Operator s i → BlockFree s blkLse → (s.lse.synced = true ∨ isRegistrar s = true) →
    Completes (.stageClear (.session i) c) s fun t => (∀ x, x ∈ t.lse.staged ↔ x ∈ s.lse.staged ∧ stagedComp x ≠ c) ∧
      (∀ n, leaseOf t n = if (leaseOf s n).comp = c ∧ (leaseOf s n).state ≠ .free ∧ (leaseOf s n).state ≠ .scrubbing ∧
        offerLease s (leaseOf s n) = false ∧ (leaseOf s n).saved = none then { leaseOf s n with leave := false, cut := false }
        else leaseOf s n) ∧ t.out = answered s (.session i) 0x000D0000 .ok ∧
      t = { s with lse := { s.lse with staged := t.lse.staged, leases := t.lse.leases }, mg := t.mg, out := t.out })

/-- COMP_CREATE asks the registrar, or is PATH_LOST when it is not reachable; the registrar assigns the lowest free ID to the home, UP
at epoch 0 with REACH 0, and tells every other device, or answers that none is free; the home then ends COMP_CREATE with OK and
the ID in DATA0, or with NO_SLOT. A COMMIT of the next epoch that names devices, and COMP_DESTROY, make the composition CHANGING
and send PREPARE to the devices named, or to every device not lost; a COMMIT that names none takes effect at once (log entry 44);
COMMIT of the epoch in force is OK, and of any other epoch DENIED, without a change; with a change running both are BUSY_RETRY; at
a device that is not the home both are DENIED. Rests on R453, R454, R460, R469, R479. -/
def Obligations.CompositionCommands : Prop :=
  (∀ (s : State) (i : BitVec 3), Operator s i → BlockFree s blkLse → registrarReachable s = true →
    Completes (.compCreate (.session i)) s fun t => t.lse.creating = s.lse.creating ++ [.session i] ∧
      t.mg.blocks = s.mg.blocks ++ [running i blkLse (cmdWord 1 0)] ∧ t.out = s.out ++ [.notice (registrarOf s) .compIdAsk] ∧
      t = { s with lse := { s.lse with creating := t.lse.creating }, mg := t.mg, out := t.out }) ∧
  (∀ (s : State) (i : BitVec 3), Operator s i → BlockFree s blkLse → registrarReachable s = false →
    Completes (.compCreate (.session i)) s fun t => t.out = answered s (.session i) 0x000D0000 .pathLost ∧
      t = { s with mg := t.mg, out := t.out }) ∧
  (∀ (s : State) (home : DevId) (c : CompId), isUp s = true → Quiet s → isRegistrar s = true → home ≠ devId s → c ≠ 0 →
    (compRec s c).state = .free → (∀ k, k ≠ 0 → k < c → (compRec s k).state ≠ .free) →
    Completes (.compIdAssign home none) s fun t => compRec t c = { CompRec.blank with state := .up, home := home } ∧
      (∀ k, k ≠ c → compRec t k = compRec s k) ∧
      t.out = s.out ++ ((domainDevs s).filter fun d => d != devId s).map (fun d =>
        .notice d (.tables ⟨false, [⟨c, 1, home, 0, 0⟩], [], s.hp.hostDev⟩)) ++ [.notice home (.compIdGrant (some c))] ∧
      t = { s with lse := { s.lse with comps := t.lse.comps }, out := t.out }) ∧
  (∀ (s : State) (home : DevId), isUp s = true → Quiet s → isRegistrar s = true → home ≠ devId s →
    (∀ k, k ≠ 0 → (compRec s k).state ≠ .free) →
    exec (.compIdAssign home none) s = .next { s with out := s.out ++ [.notice home (.compIdGrant none)] }) ∧
  (∀ (s : State) (w : Who) (c : CompId), isUp s = true → isRegistrar s = false → s.lse.creating = [w] → RunsAlone s w blkLse 0 →
    Completes (.compIdAssign (devId s) (some c)) s fun t => compRec t c = { CompRec.blank with state := .up, home := devId s } ∧
      (∀ k, k ≠ c → compRec t k = compRec s k) ∧
      tgetD (privOf t w).lseData 0 0 = c.setWidth 32 ∧ t.lse.creating = [] ∧ t.mg.blocks = [] ∧
      t.out = answered s w 0x000D0000 .ok ∧
      t = { s with lse := { s.lse with comps := t.lse.comps, creating := [] }, mg := t.mg, out := t.out }) ∧
  (∀ (s : State) (w : Who), isUp s = true → isRegistrar s = false → s.lse.creating = [w] → RunsAlone s w blkLse 0 →
    Completes (.compIdAssign (devId s) none) s fun t => t.mg.blocks = [] ∧ t.out = answered s w 0x000D0000 .noSlot ∧
      t = { s with lse := { s.lse with creating := [] }, mg := t.mg, out := t.out }) ∧
  (∀ (s : State) (i : BitVec 3) (c : CompId) (d : List Byte) (e : Epoch) (devs reach : BitVec 64), Operator s i → BlockFree s blkLse →
    (s.lse.synced = true ∨ isRegistrar s = true) → isHome s c = true → changeOf s c = none → lseBytes (privOf s (.session i)) = d →
    byteAt d 0 = e → e = (compRec s c).epoch + 1 → BitVec.ofNat 64 (leAt d 8 8) = devs → BitVec.ofNat 64 (leAt d 16 8) = reach → devs ≠ 0 →
    Completes (.commit (.session i) c) s fun t => compRec t c = { compRec s c with state := .changing } ∧
      (∀ k, k ≠ c → compRec t k = compRec s k) ∧
      changeOf t c = some ⟨.session i, devs, reach, e, (compRec s c).state, false, 2, s.counter, 0, 0, 0, 0, [], false, 0⟩ ∧
      (∀ k, k ≠ c → changeOf t k = changeOf s k) ∧
      t.out = s.out ++ ((List.range 64).filter fun k => devs.getLsbD k).map (fun k => .notice (BitVec.ofNat 6 k) (.prepare c e false)) ∧
      t.mg.blocks = s.mg.blocks ++ [running i blkLse (cmdWord 10 c.toNat)] ∧
      t = { s with lse := { s.lse with comps := t.lse.comps, changes := t.lse.changes }, mg := t.mg, out := t.out }) ∧
  (∀ (s : State) (i : BitVec 3) (c : CompId) (d : List Byte) (e : Epoch) (reach : BitVec 64), Operator s i → BlockFree s blkLse →
    (s.lse.synced = true ∨ isRegistrar s = true) → isHome s c = true → changeOf s c = none → lseBytes (privOf s (.session i)) = d →
    byteAt d 0 = e → e = (compRec s c).epoch + 1 → leAt d 8 8 = 0 → BitVec.ofNat 64 (leAt d 16 8) = reach → s.lse.lostDevs = [] →
    Completes (.commit (.session i) c) s fun t => compRec t c = { compRec s c with state := .up, epoch := e, stamp := e, reach := reach } ∧
      (∀ k, k ≠ c → compRec t k = compRec s k) ∧
      t.out = answered (emits s (((domainDevs s).filter fun k => k != devId s).map fun k => .notice k (.tables
        ⟨false, [⟨c, 1, devId s, e, reach⟩], [], s.hp.hostDev⟩))) (.session i) 0x000D0000 .ok ∧
      t = { s with lse := { s.lse with comps := t.lse.comps }, mg := t.mg, out := t.out }) ∧
  (∀ (s : State) (i : BitVec 3) (c : CompId) (d : List Byte), Operator s i → BlockFree s blkLse →
    (s.lse.synced = true ∨ isRegistrar s = true) → isHome s c = true → changeOf s c = none → lseBytes (privOf s (.session i)) = d →
    byteAt d 0 ≠ (compRec s c).epoch + 1 →
    Completes (.commit (.session i) c) s fun t =>
      t.out = answered s (.session i) 0x000D0000 (if byteAt d 0 = (compRec s c).epoch then .ok else .denied) ∧
      t = { s with mg := t.mg, out := t.out }) ∧
  (∀ (s : State) (i : BitVec 3) (c : CompId), Operator s i → BlockFree s blkLse → (s.lse.synced = true ∨ isRegistrar s = true) →
    isHome s c = true → changeOf s c = none →
    Completes (.compDestroy (.session i) c) s fun t => compRec t c = { compRec s c with state := .changing } ∧
      (∀ k, k ≠ c → compRec t k = compRec s k) ∧
      (∃ x, changeOf t c = some x ∧ x.w = .session i ∧ x.destroy = true ∧ x.epoch = (compRec s c).epoch + 1 ∧ x.step = 2 ∧ x.reach = 0 ∧
        x.prior = (compRec s c).state ∧ (∀ k : DevId, x.devices.getLsbD k.toNat = true ↔ k ∈ domainDevs s ∧ k ∉ s.lse.lostDevs) ∧
        t.out = s.out ++ ((List.range 64).filter fun k => x.devices.getLsbD k).map (fun k =>
          .notice (BitVec.ofNat 6 k) (.prepare c x.epoch true))) ∧
      t.mg.blocks = s.mg.blocks ++ [running i blkLse (cmdWord 2 c.toNat)] ∧
      t = { s with lse := { s.lse with comps := t.lse.comps, changes := t.lse.changes }, mg := t.mg, out := t.out }) ∧
  (∀ (s : State) (i : BitVec 3) (c : CompId) (d : List Byte), Operator s i → BlockFree s blkLse →
    (s.lse.synced = true ∨ isRegistrar s = true) → isHome s c = true → (changeOf s c).isSome = true →
    lseBytes (privOf s (.session i)) = d → byteAt d 0 ≠ homeEpoch s c →
    Completes (.commit (.session i) c) s fun t => t.out = answered s (.session i) 0x000D0000 .busyRetry ∧
      t = { s with mg := t.mg, out := t.out }) ∧
  (∀ (s : State) (i : BitVec 3) (c : CompId), Operator s i → BlockFree s blkLse → (s.lse.synced = true ∨ isRegistrar s = true) →
    isHome s c = true → (changeOf s c).isSome = true →
    Completes (.compDestroy (.session i) c) s fun t => t.out = answered s (.session i) 0x000D0000 .busyRetry ∧
      t = { s with mg := t.mg, out := t.out }) ∧
  (∀ (s : State) (i : BitVec 3) (c : CompId), Operator s i → BlockFree s blkLse → (s.lse.synced = true ∨ isRegistrar s = true) →
    isHome s c = false →
    Completes (.commit (.session i) c) s fun t => t.out = answered s (.session i) 0x000D0000 .denied ∧
      t = { s with mg := t.mg, out := t.out }) ∧
  (∀ (s : State) (i : BitVec 3) (c : CompId), Operator s i → BlockFree s blkLse → (s.lse.synced = true ∨ isRegistrar s = true) →
    isHome s c = false →
    Completes (.compDestroy (.session i) c) s fun t => t.out = answered s (.session i) 0x000D0000 .denied ∧
      t = { s with mg := t.mg, out := t.out })

/-- A READY or SWITCHED that is not the last is kept and sends nothing; the last READY sends SWITCH to every device named; the last
SWITCHED puts the new epoch and REACH in force, UP or, with a LOST lease, DOWN, tells the other devices and ends COMMIT with OK;
the last DRAINED ends the change with CLOSE, and frees a destroyed composition's ID; 800 µs without a READY abort it with
PATH_LOST, the state as before it; SWITCH goes again after 200 µs to those that have not answered. Rests on R461, R462, R468,
R469, Table 11.3 at the home. -/
def Obligations.EpochChangeAtHome : Prop :=
  (∀ (s : State) (d : DevId) (c : CompId) (r : ReadyNote) (x y : Change), isUp s = true → Quiet s → changeOf s c = some x → x.step = 2 →
    x.ready &&& devBit d = 0 →
    y = { x with ready := x.ready ||| devBit d, binds := x.binds ++ r.binds, lost := x.lost || r.lost,
                 holders := if r.holds then x.holders ||| devBit d else x.holders } →
    Completes (.epochReady d c r) s fun t => (∀ k, k ≠ c → changeOf t k = changeOf s k) ∧
      (if x.devices &&& ~~~(x.ready ||| devBit d) = 0 then
        changeOf t c = some { y with step := 4, at_ := s.counter, firstSwitch := s.counter } ∧
        t.out = s.out ++ ((List.range 64).filter fun k => x.devices.getLsbD k).map (fun k =>
          .notice (BitVec.ofNat 6 k) (.switch c x.epoch x.reach (x.binds ++ r.binds)))
      else changeOf t c = some y ∧ t.out = s.out) ∧
      t = { s with lse := { s.lse with changes := t.lse.changes }, out := t.out }) ∧
  (∀ (s : State) (d : DevId) (c : CompId) (x : Change), isUp s = true → changeOf s c = some x → x.step = 4 → RunsAlone s x.w blkLse 0 →
    s.lse.lostDevs = [] → x.devices &&& ~~~(x.switched ||| devBit d) = 0 →
    Completes (.epochSwitched d c) s fun t =>
      compRec t c = { compRec s c with
        state := if x.lost then .down else .up
        epoch := x.epoch
        stamp := x.epoch
        reach := x.reach
        leaseDevs := x.holders } ∧
      (∀ k, k ≠ c → compRec t k = compRec s k) ∧ changeOf t c = some { x with switched := x.switched ||| devBit d, step := 6 } ∧
      (∀ k, k ≠ c → changeOf t k = changeOf s k) ∧ t.mg.blocks = [] ∧
      t.out = answered (emits s (((domainDevs s).filter fun k => k != devId s).map fun k => .notice k (.tables
        ⟨false, [⟨c, if x.lost then 3 else 1, (compRec s c).home, x.epoch, x.reach⟩], x.binds, s.hp.hostDev⟩))) x.w 0x000D0000 .ok ∧
      t.lse.epMap = x.binds.foldl (fun m b => tset m b.1 b.2) s.lse.epMap ∧
      t = { s with lse := { s.lse with comps := t.lse.comps, changes := t.lse.changes, epMap := t.lse.epMap }, mg := t.mg, out := t.out }) ∧
  (∀ (s : State) (d : DevId) (c : CompId) (x : Change), isUp s = true → Quiet s → changeOf s c = some x → x.step = 4 →
    s.lse.lostDevs = [] → x.devices &&& ~~~(x.switched ||| devBit d) ≠ 0 →
    Completes (.epochSwitched d c) s fun t => changeOf t c = some { x with switched := x.switched ||| devBit d } ∧
      (∀ k, k ≠ c → changeOf t k = changeOf s k) ∧ t = { s with lse := { s.lse with changes := t.lse.changes } }) ∧
  (∀ (s : State) (d : DevId) (c : CompId) (x : Change), isUp s = true → Quiet s → changeOf s c = some x → x.step = 6 →
    s.lse.lostDevs = [] → x.devices &&& ~~~(x.drained ||| devBit d) = 0 →
    Completes (.epochDrained d c) s fun t => changeOf t c = none ∧ (∀ k, k ≠ c → changeOf t k = changeOf s k) ∧
      compRec t c = (if x.destroy then CompRec.blank else compRec s c) ∧ (∀ k, k ≠ c → compRec t k = compRec s k) ∧
      t.out = s.out ++ ((List.range 64).filter fun k => x.devices.getLsbD k).map (fun k => .notice (BitVec.ofNat 6 k) (.close c)) ++
        (if x.destroy then ((domainDevs s).filter fun k => k != devId s).map fun k => .notice k (.tables
          ⟨false, [⟨c, 0, 0, 0, 0⟩], [], s.hp.hostDev⟩) else []) ∧
      t = { s with lse := { s.lse with comps := t.lse.comps, changes := t.lse.changes }, out := t.out }) ∧
  (∀ (s : State) (c : CompId) (x : Change), isUp s = true → changeOf s c = some x → x.step = 2 → x.at_ + 800 ≤ s.counter →
    RunsAlone s x.w blkLse 0 → (compRec s c).state = .changing →
    Completes (.epochReadyTimeout c) s fun t => changeOf t c = none ∧ (∀ k, k ≠ c → changeOf t k = changeOf s k) ∧
      compRec t c = { compRec s c with state := x.prior } ∧ (∀ k, k ≠ c → compRec t k = compRec s k) ∧ t.mg.blocks = [] ∧
      t.out = answered (emits s (((List.range 64).filter fun k => x.devices.getLsbD k).map fun k =>
        .notice (BitVec.ofNat 6 k) (.abort c))) x.w 0x000D0000 .pathLost ∧
      t = { s with lse := { s.lse with comps := t.lse.comps, changes := t.lse.changes }, mg := t.mg, out := t.out }) ∧
  (∀ (s : State) (c : CompId) (x : Change), isUp s = true → Quiet s → changeOf s c = some x → x.step = 4 → s.lse.lostDevs = [] →
    s.counter < x.firstSwitch + 800 → x.at_ + 200 ≤ s.counter →
    Completes (.epochSwitchResend c) s fun t => changeOf t c = some { x with at_ := s.counter } ∧
      (∀ k, k ≠ c → changeOf t k = changeOf s k) ∧
      t.out = s.out ++ ((List.range 64).filter fun k => (x.devices &&& ~~~x.switched).getLsbD k).map (fun k =>
        .notice (BitVec.ofNat 6 k) (.switch c x.epoch x.reach x.binds)) ∧
      t = { s with lse := { s.lse with changes := t.lse.changes }, out := t.out })

/-- PREPARE opens sillage under the new epoch and answers READY, a RESERVED lease becoming ACTIVE in it; ABORT restores the lease bits
and the epoch; SWITCH applies the staged windows and bindings, stamps the new epoch and answers SWITCHED; with nothing of the old
epoch outstanding for 330 µs the device answers DRAINED; CLOSE ends sillage and clears IN_PREV; the registrar's whole tables end
the wait of a joining device. Rests on R461 to R463, R660, Table 11.3 at a device. -/
def Obligations.EpochChangeAtDevice : Prop :=
  (∀ (s : State) (home : DevId) (c : CompId) (e : Epoch), isUp s = true → (compRec s c).sillage = false → (compRec s c).state = .up →
    Completes (.epochPrepare home c e false) s fun t => (compRec t c).state = .changing ∧ (compRec t c).epoch = e ∧
      (compRec t c).stamp = e - 1 ∧ (compRec t c).sillage = true ∧
      (∀ n, (leaseOf s n).comp = c → (leaseOf s n).state = .reserved → (leaseOf s n).leave = false → offerLease s (leaseOf s n) = false →
        (leaseOf t n).state = .active ∧ (leaseOf t n).inCur = true ∧ (leaseOf t n).inPrev = false) ∧
      (∃ note, t.out = s.out ++ [.notice home (.ready c note)]) ∧
      t = { s with lse := { s.lse with comps := t.lse.comps, leases := t.lse.leases }, out := t.out }) ∧
  (∀ (s : State) (c : CompId), isUp s = true → (compRec s c).sillage = true → (compRec s c).stamp ≠ (compRec s c).epoch →
    (compRec s c).destroying = false →
    Completes (.epochAbort c) s fun t => (compRec t c).epoch = (compRec s c).stamp ∧ (compRec t c).sillage = false ∧
      (∀ n st p k, (leaseOf s n).comp = c → (leaseOf s n).state = .active → offerLease s (leaseOf s n) = false →
        (leaseOf s n).saved = some (st, p, k) → (leaseOf t n).state = st ∧ (leaseOf t n).inPrev = p ∧ (leaseOf t n).inCur = k) ∧
      t.lse.staged = s.lse.staged ∧ t = { s with lse := { s.lse with comps := t.lse.comps, leases := t.lse.leases } }) ∧
  (∀ (s : State) (c : CompId) (e : Epoch) (reach : BitVec 64) (binds : List (Ep × CompId)) (p : PortNo) (w : BitVec 8) (v : Win),
    isUp s = true → (compRec s c).sillage = true → (compRec s c).epoch = e → (compRec s c).stamp ≠ e → (compRec s c).destroying = false →
    s.lse.staged = [.win c p w v, .port c p true] →
    Completes (.epochSwitch c e reach binds) s fun t => tget t.ing.wins (.lane p, w) = some v ∧ portCompOf t (.lane p) = c ∧
      (compRec t c).stamp = e ∧ (compRec t c).reach = reach ∧ t.lse.staged = [] ∧
      t.out = s.out ++ [.notice (compRec s c).home (.switched c)] ∧ t = { s with ing := t.ing, lse := t.lse, out := t.out }) ∧
  (∀ (s : State) (c : CompId), isUp s = true → (compRec s c).sillage = true → (compRec s c).stamp = (compRec s c).epoch →
    (compRec s c).drained = false → oldOut s c = 0 → (∀ at_, (compRec s c).oldAt = some at_ → at_ + 330 ≤ s.counter) →
    Completes (.sillageDrain c) s fun t => (compRec t c).drained = true ∧
      t.out = s.out ++ [.notice (compRec s c).home (.drained c)] ∧ t = { s with lse := { s.lse with comps := t.lse.comps }, out := t.out }) ∧
  (∀ (s : State) (c : CompId), isUp s = true → (compRec s c).state ≠ .free → (∀ x ∈ s.lse.leases, x.2.leave = false) →
    Completes (.epochClose c) s fun t => (compRec t c).sillage = false ∧
      (∀ n, (leaseOf s n).comp = c → (leaseOf s n).state = .active → offerLease s (leaseOf s n) = false → (leaseOf t n).inPrev = false ∧
        (leaseOf t n).inCur = (leaseOf s n).inCur) ∧ t = { s with lse := { s.lse with comps := t.lse.comps, leases := t.lse.leases } }) ∧
  (∀ (s : State) (t : SyncTable), isUp s = true → t.full = true → isRegistrar s = false → s.hp.moving = false → s.lse.comps = [] →
    (t.comps.map (·.comp)).Nodup →
    Completes (.registrarTableSync t) s fun u => u.lse.synced = true ∧ u.hp.hostDev = t.holder ∧
      (∀ x ∈ t.comps, x.state ≠ 0 → (compRec u x.comp).home = x.home ∧ (compRec u x.comp).epoch = x.epoch ∧ (compRec u x.comp).reach = x.reach) ∧
      u.mem = s.mem)

/-- OWN_REGISTER makes an OWNED record and OWN_DROP ends one, each with the record's line made durable and its gate sent to the
object's device; the source is answered once the gate is acknowledged, and a registration of an object that its device does not
have is DENIED and leaves no record; a transition of a request completes with OK at that point. The object's device takes a gate,
or drops it, and acknowledges; an offer whose lease has ended returns its record to OWNED by its owner, one transition later.
Rests on R470, R471, R476, R600, R472, R475, R476. -/
def Obligations.OwnershipRecordsAndGates : Prop :=
  (∀ (s : State) (i : BitVec 3) (c k : CompId) (oid : Oid) (d : List Byte) (n : Nat), Operator s i → BlockFree s blkLse →
    isRegistrar s = true → lseBytes (privOf s (.session i)) = d → leAt d 0 5 = oid.toNat → zerosAt d 5 3 = true → leAt d 8 2 = k.toNat →
    ownOf s oid = none → (oidDev oid = devId s → (objOf s oid).isSome = true) → reaches s k oid = true → freeOwn s = some n →
    ownDurable s n = none →
    Completes (.ownRegister (.session i) c) s fun t =>
      ownOf t oid = some ⟨k, 0, false, 0, 0, n, .cmd (.session i), [], true, false⟩ ∧
      (∀ o, o ≠ oid → ownOf t o = ownOf s o) ∧ t.out = s.out ++ [.notice (oidDev oid) (.gate oid (some k))] ∧
      t.mg.blocks = s.mg.blocks ++ [running i blkLse (cmdWord 12 c.toNat)] ∧
      (∃ r ∈ t.dry.buf, r.live = true ∧ r.oid = 0 ∧ r.line = n / 4 ∧ r.desc = none) ∧ t.mem = s.mem) ∧
  (∀ (s : State) (i : BitVec 3) (c : CompId) (oid : Oid) (d : List Byte) (r : OwnRec), Operator s i → BlockFree s blkLse →
    isRegistrar s = true → lseBytes (privOf s (.session i)) = d → leAt d 0 5 = oid.toNat → zerosAt d 5 3 = true → ownOf s oid = some r →
    r.offered = false → r.waiting = .none → ownDurable s r.line = none →
    Completes (.ownDrop (.session i) c) s fun t => ownOf t oid = some { r with dropping := true, waiting := .cmd (.session i) } ∧
      (∀ o, o ≠ oid → ownOf t o = ownOf s o) ∧ t.out = s.out ++ [.notice (oidDev oid) (.gate oid none)] ∧
      t.mg.blocks = s.mg.blocks ++ [running i blkLse (cmdWord 13 c.toNat)] ∧ t.mem = s.mem) ∧
  (∀ (s : State) (oid : Oid) (r : OwnRec) (w : Who), isUp s = true → ownOf s oid = some r → r.waiting = .cmd w → r.dropping = false →
    r.queue = [] → RunsAlone s w blkLse 0 →
    Completes (.gateAck oid true) s fun t => ownOf t oid = some { r with waiting := .none, adding := false } ∧ t.mg.blocks = [] ∧
      t.out = answered s w 0x000D0000 .ok ∧ t = { s with lse := { s.lse with own := t.lse.own }, mg := t.mg, out := t.out }) ∧
  (∀ (s : State) (oid : Oid) (r : OwnRec) (f : Req), isUp s = true → Quiet s → ownOf s oid = some r → r.waiting = .cpl f →
    r.dropping = false → r.queue = [] → (localAt s f.src).isSome = true →
    Completes (.gateAck oid true) s fun t => ownOf t oid = some { r with waiting := .none, adding := false } ∧
      t.out = s.out ++ [.toIngress (mkCpl f f.dst .ok [])] ∧ t = { s with lse := { s.lse with own := t.lse.own }, out := t.out }) ∧
  (∀ (s : State) (oid : Oid) (r : OwnRec) (w : Who), isUp s = true → ownOf s oid = some r → r.waiting = .cmd w → r.dropping = false →
    r.adding = true → r.queue = [] → RunsAlone s w blkLse 0 → (s.lse.own.filter (fun x => x.1 = oid)).length = 1 →
    Completes (.gateAck oid false) s fun t => ownOf t oid = none ∧ t.mg.blocks = [] ∧ t.out = answered s w 0x000D0000 .denied ∧
      t.mem = s.mem) ∧
  (∀ (s : State) (oid : Oid) (c : CompId), isUp s = true → (objOf s oid).isSome = true →
    Completes (.gateUpdate oid (some c)) s fun t => tget t.lse.gates oid = some c ∧
      (∀ o, o ≠ oid → tget t.lse.gates o = tget s.lse.gates o) ∧ t.out = s.out ++ [.notice (registrarOf s) (.gateAck oid true)] ∧
      t = { s with lse := { s.lse with gates := t.lse.gates }, out := t.out }) ∧
  (∀ (s : State) (oid : Oid), isUp s = true →
    Completes (.gateUpdate oid none) s fun t => tget t.lse.gates oid = none ∧
      (∀ o, o ≠ oid → tget t.lse.gates o = tget s.lse.gates o) ∧
      t.out = s.out ++ [.notice (registrarOf s) (.gateAck oid (objOf s oid).isSome)] ∧
      t = { s with lse := { s.lse with gates := t.lse.gates }, out := t.out }) ∧
  (∀ (s : State) (n m : BitVec 16) (oid : Oid) (r : OwnRec), isUp s = true → s.lse.own = [(oid, r)] → r.offered = true →
    r.offerLease.extractLsb' 0 16 = n → leaseNamed s r.offerLease = some m → offerLease s (leaseOf s m) = true →
    (leaseOf s m).expiry ≤ s.counter → r.waiting = .none → ownDurable s r.line = none →
    Completes (.offerLeaseExpire n) s fun t =>
      ownOf t oid = some { r with offerTo := 0, offered := false, offerLease := 0, rseq := r.rseq + 1, waiting := .silent } ∧
      leaseOf t m = { Lease.blank with gen := (leaseOf s m).gen } ∧
      t.out = s.out ++ [.notice (oidDev oid) (.gate oid (some r.owner))] ∧ t.mem = s.mem)

/-- The owner's OFFER to an UP composition that reaches the object's device grants an offer lease and makes the record OFFERED; its
WITHDRAW, and the offeree's ACCEPT before the lease ends, free the lease and make it OWNED, by the owner or the offeree; CONFIRM
answers OK to the owner and NOT_OWNER to any other composition. Every transition advances RSEQ and sends the gate of the record's
owner to the object's device. Rests on R474 to R477, Table 11.6 at the registrar, for a record in no transition. -/
def Obligations.OwnershipTransitions : Prop :=
  (∀ (s : State) (q : Quad) (f : Req) (oid : Oid) (r : OwnRec) (k : CompId) (n : BitVec 16), isUp s = true →
    ownBad s { f with opcode := Op.ownOffer, subop := 0 } = false → leAt f.payload 0 5 = oid.toNat → ownOf s oid = some r →
    r.waiting = .none → r.offered = false → compOf s f.src = r.owner → r.owner ≠ 0 → leAt f.payload 8 2 = k.toNat →
    leAt f.payload 10 2 ≠ 0 → (compRec s k).state = .up → reaches s r.owner oid = true → reaches s k oid = true → freeLease s = some n →
    ownDurable s r.line = none →
    Completes (.offer (.device q) f) s fun t =>
      ownOf t oid = some { r with
        offerTo := k
        offered := true
        offerLease := leaseId t n
        rseq := r.rseq + 1
        waiting := .cpl { f with opcode := Op.ownOffer, subop := 0 } } ∧
      (leaseOf t n).state = .active ∧ (leaseOf t n).expiry = s.counter + 1000 * leAt f.payload 10 2 ∧ (leaseOf t n).comp = k ∧
      t.out = s.out ++ [.notice (oidDev oid) (.gate oid (some r.owner))] ∧ t.mem = s.mem) ∧
  (∀ (s : State) (q : Quad) (f : Req) (oid : Oid) (r : OwnRec) (m : BitVec 16), isUp s = true →
    ownBad s { f with opcode := Op.ownOffer, subop := 1 } = false → leAt f.payload 0 5 = oid.toNat → ownOf s oid = some r →
    r.waiting = .none → r.offered = true → compOf s f.src = r.owner → r.owner ≠ 0 → leaseNamed s r.offerLease = some m →
    offerLease s (leaseOf s m) = true → ownDurable s r.line = none →
    Completes (.withdraw (.device q) f) s fun t =>
      ownOf t oid = some { r with
        offerTo := 0
        offered := false
        offerLease := 0
        rseq := r.rseq + 1
        waiting := .cpl { f with opcode := Op.ownOffer, subop := 1 } } ∧
      leaseOf t m = { Lease.blank with gen := (leaseOf s m).gen } ∧
      t.out = s.out ++ [.notice (oidDev oid) (.gate oid (some r.owner))] ∧ t.mem = s.mem) ∧
  (∀ (s : State) (q : Quad) (f : Req) (oid : Oid) (r : OwnRec) (m : BitVec 16), isUp s = true →
    ownBad s { f with opcode := Op.ownAccept } = false → leAt f.payload 0 5 = oid.toNat → ownOf s oid = some r → r.waiting = .none →
    r.offered = true → compOf s f.src = r.offerTo → leaseNamed s r.offerLease = some m → offerLease s (leaseOf s m) = true →
    s.counter < (leaseOf s m).expiry → ownDurable s r.line = none →
    Completes (.ownAccept (.device q) f) s fun t =>
      ownOf t oid = some { r with
        owner := r.offerTo
        offerTo := 0
        offered := false
        offerLease := 0
        rseq := r.rseq + 1
        waiting := .cpl { f with opcode := Op.ownAccept } } ∧
      leaseOf t m = { Lease.blank with gen := (leaseOf s m).gen } ∧
      t.out = s.out ++ [.notice (oidDev oid) (.gate oid (some r.offerTo))] ∧ t.mem = s.mem) ∧
  (∀ (s : State) (q : Quad) (f : Req) (oid : Oid) (r : OwnRec), isUp s = true →
    ownBad s { f with opcode := Op.ownOffer, subop := 2 } = false → f.subop = 2 → leAt f.payload 0 5 = oid.toNat →
    ownOf s oid = some r → r.waiting = .none → compOf s f.src = r.owner → r.owner ≠ 0 → s.dry.armed = true →
    (localAt s f.src).isSome = true →
    exec (.confirm (.device q) f) s = .next (emit s (.toIngress (mkCpl { f with opcode := Op.ownOffer } f.dst .ok [])))) ∧
  (∀ (s : State) (q : Quad) (f : Req) (oid : Oid) (r : OwnRec), isUp s = true →
    ownBad s { f with opcode := Op.ownOffer, subop := 2 } = false → f.subop = 2 → leAt f.payload 0 5 = oid.toNat →
    ownOf s oid = some r → r.waiting = .none → compOf s f.src ≠ r.owner → (localAt s f.src).isSome = true →
    exec (.confirm (.device q) f) s = .next (emit s (.toIngress (mkCpl { f with opcode := Op.ownOffer } f.dst .notOwner []))))

/-- On a host link that is up, a DATA or MGMT frame with the ESEQ due next is accepted and acknowledged and the credits it returns are
counted, the acknowledgement going to the address it came from; a DMT request in it goes to the ingress checks of the host
interface, and a message for another device goes on in class 7; an ACK frame takes the frames it covers out of the replay buffer.
A frame of a wrong EtherType, or one whose FCS fails, is counted and has no other effect. On the device whose host port is enabled
the PHY's link sends PARAM with ESEQ 0, and again after 1 ms while LINK is 0; the host's PARAM at ESEQ 0 is accepted and its
credits taken; unacknowledged frames are replayed after 20 µs; PHY loss takes the link, the replay buffer and the credits down.
Rests on R684 to R686, R694, R683, R686. -/
def Obligations.HostLink : Prop :=
  (∀ (s : State) (h : Shim) (body : List Byte) (f : Req), isUp s = true → s.hp.phy = true → macKeeps s h = true → h.ver = 1 →
    h.kind = 0 → s.hp.link = true → h.ackv = false → h.nak = false → h.eseq = hostNext s → h.crcnt = 0 → s.hp.part = [] →
    0 < wireLength body → wireLength body = body.length → frameOfWire body = .req f → opRequest f.opcode = true → byteAt body 0 ≠ 0 →
    Completes (.hpData h body) s fun t => t.hp.rx = some h.eseq ∧ t.hp.gap = false ∧
      (∃ a, t.out = s.out ++ [.toIngressPort .host f, .hostFrame a [] none] ∧ a.kind = 1 ∧ a.ackv = true ∧ a.ackseq = h.eseq ∧
        a.mac = h.mac) ∧
      t = { s with hp := t.hp, out := t.out }) ∧
  (∀ (s : State) (h : Shim) (body : List Byte), isUp s = true → s.hp.phy = true → (h.fcsOk = false ∨ h.etype ≠ s.hp.etype) →
    exec (.hpData h body) s = .next { s with hp := { s.hp with fcs := satInc 16 s.hp.fcs } }) ∧
  (∀ (s : State) (h : Shim) (x : HpFrame), isUp s = true → Quiet s → s.hp.phy = true → s.hp.link = true → macKeeps s h = true → h.ver = 1 →
    h.kind = 1 → h.ackv = true → h.nak = false → h.crcnt = 0 → s.hp.rb = [x] → x.sent = true → h.ackseq = x.eseq →
    Completes (.hpAck h) s fun t => t.hp.rb = [] ∧ t.hp.ackAt = s.counter ∧ t.out = s.out ∧ t = { s with hp := t.hp }) ∧
  (∀ (s : State) (h : Shim) (m : MgmtMsg) (r : Decided), isUp s = true → Quiet s → s.hp.phy = true → s.hp.active = true → s.hp.link = true →
    macKeeps s h = true → h.ver = 1 → h.kind = 2 → h.ackv = false → h.nak = false → h.eseq = hostNext s → h.crcnt = 0 →
    unansweredOf s .hostPath = 0 → m.device ≠ devId s → s.lse.lostDevs.contains m.device = false → effRoute s m.device = some r →
    Completes (.hpMgmt h m) s fun t => t.hp.rx = some h.eseq ∧ t.hp.forwarded = [m] ∧
      (∃ a, t.out = s.out ++ [.notice m.device (.mgmt m), .hostFrame a [] none] ∧ a.kind = 1 ∧ a.ackseq = h.eseq ∧ a.mac = h.mac) ∧ t.mem = s.mem) ∧
  (∀ s : State, isUp s = true → hostEnabled s = true → s.hp.phy = false →
    Completes .hostPhyLinkUp s fun t => t.hp.phy = true ∧ t.hp.link = false ∧ t.hp.next = 1 ∧ t.hp.sentParam = true ∧
      (∃ a body, t.out.getLast? = some (.hostFrame a body none) ∧ a.kind = 3 ∧ a.eseq = 0) ∧ t.mem = s.mem) ∧
  (∀ s : State, isUp s = true → s.hp.phy = true → s.hp.link = false → s.hp.paramAt + 1000 ≤ s.counter →
    Completes .hpParamRetry s fun t => t.hp.paramAt = s.counter ∧ t.hp.next = 1 ∧
      (∃ a body, t.out = s.out ++ [.hostFrame a body none] ∧ a.kind = 3 ∧ a.eseq = 0) ∧ t = { s with hp := t.hp, out := t.out }) ∧
  (∀ (s : State) (h : Shim) (classes : BitVec 8) (credits : List Nat), isUp s = true → Quiet s → hostEnabled s = true → s.hp.phy = true →
    s.hp.link = false → s.hp.active = true → macKeeps s h = true → h.ver = 1 → h.kind = 3 → h.eseq = 0 → s.hp.rx = none → h.ackv = false →
    h.nak = false → h.crcnt = 0 → s.hp.gotParam = false → credits.length = 8 →
    Completes (.hpParam h classes credits) s fun t => t.hp.rx = some 0 ∧ t.hp.gotParam = true ∧ t.hp.classes = classes ∧
      t.hp.credits = credits ∧ (t.hp.link = true ↔ paramsDone t = true) ∧ t.mem = s.mem) ∧
  (∀ (s : State) (x : HpFrame), isUp s = true → s.hp.phy = true → s.hp.rb = [x] → x.sent = true → x.replays < 7 →
    s.hp.ackAt + 20 ≤ s.counter → s.hp.replayAt + 20 ≤ s.counter →
    Completes .hpReplayTimeout s fun t => t.hp.rb = [{ x with replays := x.replays + 1 }] ∧
      (∃ a, t.out = s.out ++ [.hostFrame a x.bytes x.mgmt] ∧ a.eseq = x.eseq ∧ a.kind = x.kind) ∧ t = { s with hp := t.hp, out := t.out }) ∧
  (∀ s : State, isUp s = true → s.hp.phy = true → s.hp.rb = [] →
    Completes .hpLinkDown s fun t => t.hp.phy = false ∧ t.hp.link = false ∧ t.hp.rb = [] ∧ t.hp.credits = [] ∧ t.hp.rx = none ∧
      t.mem = s.mem)

/-- MOVE_HERE on an ADMIN session asks the registrar, and is DENIED at the holder; the registrar commits the new holder as a durable
line and tells the old one, or answers RETRY while it is not armed; the old holder hands its windows over and gives the interface
up; the new one loads them; a newer endpoint update points the host endpoint at the holder; RETRY undoes step 1. Rests on R688,
Table 19.2. -/
def Obligations.HostInterfaceMove : Prop :=
  (∀ (s : State) (i : BitVec 3), Admin s i → s.hp.active = false → s.hp.moving = false → s.hp.move = none →
    Completes (.moveHere (.session i)) s fun t => t.hp = { s.hp with moving := true, mover := some (.session i) } ∧
      t.out = s.out ++ [.notice (registrarOf s) (.moveAsk (devId s))] ∧
      t.mg.blocks = s.mg.blocks ++ [⟨blkSwc, 0x204, .session i, 1, true, false, false⟩] ∧ t = { s with hp := t.hp, mg := t.mg, out := t.out }) ∧
  (∀ (s : State) (i : BitVec 3), Operator s i → (s.hp.active = true ∨ isAdmin s (.session i) = false) →
    Completes (.moveHere (.session i)) s fun t => t.out = answered s (.session i) 0x00050204 .denied ∧
      t = { s with mg := t.mg, out := t.out }) ∧
  (∀ (s : State) (new : DevId), isUp s = true → isRegistrar s = true → s.dry.armed = true → dryRoom s 0 hostLine = true → s.hp.move = none →
    Completes (.hostMoveNotice new) s fun t => t.hp.record = some new ∧ t.hp.move = some ⟨new, s.hp.record.getD s.hp.hostDev⟩ ∧
      t.out = s.out ++ [.notice (s.hp.record.getD s.hp.hostDev) (.moveOld new)] ∧
      (∃ r ∈ t.dry.buf, r.live = true ∧ r.oid = 0 ∧ r.line = hostLine ∧ r.data = hostLineBytes new) ∧ t.mem = s.mem) ∧
  (∀ (s : State) (new : DevId), isUp s = true → isRegistrar s = true → s.dry.armed = false →
    exec (.hostMoveNotice new) s = .next { s with out := s.out ++ [.notice new .moveRetry] }) ∧
  (∀ (s : State) (new : DevId), isUp s = true → s.hp.active = true → new ≠ devId s →
    Completes (.hostMoveOld new) s fun t => t.hp.active = false ∧ t.hp.link = false ∧ t.hp.phy = false ∧ t.hp.hostDev = new ∧
      (∃ set, .notice new (.moveState (hostWins s) set) ∈ t.out) ∧
      (∀ e ∈ t.swc.eps, e.at_ = .host → e.dev = new) ∧ t.mem = s.mem) ∧
  (∀ (s : State) (h : HostHandover), isUp s = true → Quiet s → s.hp.moving = true → h.handed = true → h.shp = [] → s.hp.gotParam = false →
    Completes (.hostMoveLoad h) s fun t => t.hp.hostDev = devId s ∧
      (∀ n w, (n, w) ∈ h.wins → ((.host, n), w) ∈ t.ing.wins) ∧ (∀ x ∈ t.ing.wins, x.1.1 = .host → (x.1.2, x.2) ∈ h.wins) ∧
      t.mem = s.mem) ∧
  (∀ (s : State) (holder origin : DevId) (nseq : Word), isUp s = true → s.hp.active = false → s.hp.moving = false →
    (∀ k, tget s.hp.nseqs origin = some k → k < nseq) →
    Completes (.hostEndpointUpdate holder origin nseq) s fun t => t.hp.hostDev = holder ∧ tget t.hp.nseqs origin = some nseq ∧
      (∀ e ∈ t.swc.eps, e.at_ = .host → e.dev = holder) ∧ t.mem = s.mem) ∧
  (∀ (s : State) (w : Who), isUp s = true → s.hp.moving = true → s.hp.hostDev ≠ devId s → s.hp.mover = some w →
    RunsAlone s w blkSwc 0x204 → s.hp.part = [] → s.cmb.ents = [] → s.egr.dest = [] → s.acc.slots = [] → s.swc.land = [] →
    s.swc.queue = [] →
    Completes .hostMoveRetry s fun t => t.hp.moving = false ∧ t.hp.mover = none ∧ t.hp.phy = false ∧ t.mg.blocks = [] ∧
      t.out = answered s w 0x00050204 .retry ∧ t.mem = s.mem)

/-- A request that nothing holds leaves its ingress port with the fields the ingress device writes, and is outstanding from then on.
For an endpoint of this device it goes on to the own functions or the egress; for another's it is queued for the port of its slot.
A segment frame within its start's window goes on likewise, and is not tracked (R233, R235). Rests on R52, R77 to R95, R455, R540,
R546. -/
def Obligations.RequestsForwarded : Prop :=
  (∀ (s : State) (p : Port) (f : Req), ∀ x ∈ requestRows p f, x.2 = true → isUp s = true → Alone s f → Passes s p f →
    (localAt s f.dst).isSome = true →
    Completes x.1 s fun t => Forwarded s t p f 0 [] ∧ Onward s t p (stamped s p f) s.counter ∧ t.ing.buf = [] ∧
      (srcOf t f.src).order = (srcOf s f.src).order + 1 ∧ (srcOf t f.src).scope = (srcOf s f.src).scope) ∧
  (∀ (s : State) (p : Port) (f : Req) (d : DevId) (sl : Nat) (q : PortNo), ∀ x ∈ requestRows p f, x.2 = true → isUp s = true → Alone s f →
    Passes s p f → localAt s f.dst = none → epDev s f.dst = some d →
    (if opPaired f.opcode then pairPort s d f else staticSlot s d f.src f.dst f.cls) = some (sl, q) → outputUp s (.lane q) = true →
    Completes x.1 s fun t => Forwarded s t p f sl (pathFrom s d 8 (devId s) q) ∧ t.out = s.out ∧ t.ing.buf = [] ∧
      t.swc = (landFrame s p (.lane q) (.req (stamped s p f)) s.counter).swc) ∧
  (∀ (s : State) (p : Port) (f : Req) (k : Track), isUp s = true → Alone s f → f.opcode = Op.accContrib → f.subop = 1 →
    formBad s p f = false → trackOf s f.src f.tag = some k → k.f.opcode = Op.accContrib → k.f.subop = 0 →
    f.addr.toNat / 65536 < (winOf s f.src f.tag).1 + (winOf s f.src f.tag).2 → NotPoliced s p f →
    Completes (.accSegmentIngress p f) s fun t => t.ing.trk = s.ing.trk ∧ t.ing.buf = [] ∧
      (let g : Req := { f with seq := 0, epoch := stampOf s p, chk := true, pgen := 0, rsnd := false, seqd := false,
                               newp := false, raw := false, hop := 0 }
       t.out = (sendReq s p g s.counter).out ∧ t.swc = (sendReq s p g s.counter).swc ∧
        (localAt s f.dst = some .own → t.out = s.out ++ [.toOwn (portQuad p) g] ∧ t.swc = s.swc)) ∧
      t = { s with ing := t.ing, lnk := t.lnk, hp := t.hp, swc := t.swc, shp := t.shp, out := t.out })

/-- A WR_LINE_REL with nothing of its source outstanding goes on at once, or completes with ABORTED when a request of its scope
failed; either way the next scope begins. A FENCE with nothing before it completes at once, with PATH_LOST, ABORTED or OK as its
scope ended; with a request outstanding it waits. A waiting WR_LINE_REL or FENCE goes on the same way once it is released, and so
does a request at the head of the port buffer once nothing holds it. Rests on R104, R106, R107, R456. -/
def Obligations.ReleaseStoresAndFences : Prop :=
  (∀ (s : State) (p : Port) (f : Req), isUp s = true → f.opcode = Op.wrLineRel → Alone s f → Passes s p f →
    (localAt s f.dst).isSome = true → (∀ k ∈ s.ing.trk, k.f.src ≠ f.src) → (scopeEnd s f.src (srcOf s f.src).scope).notOk = false →
    Completes (.wrLineRel p f) s fun t => Forwarded s t p f 0 [] ∧ Onward s t p (stamped s p f) s.counter ∧ t.ing.buf = [] ∧
      (srcOf t f.src).rels = [] ∧ (srcOf t f.src).scope = (srcOf s f.src).scope + 1) ∧
  (∀ (s : State) (p : Port) (f : Req), isUp s = true → f.opcode = Op.wrLineRel → Alone s f → ingressBad s p f = false →
    delivers s p = true → (∀ k ∈ s.ing.trk, k.f.src ≠ f.src) → (scopeEnd s f.src (srcOf s f.src).scope).notOk = true →
    Completes (.wrLineRel p f) s fun t => t.ing.trk = s.ing.trk ∧ (srcOf t f.src).rels = [] ∧
      t.swc = (landFrame s .own p (.cpl (mkCpl f (ownEp s) .aborted [])) s.counter).swc ∧
      t = { s with ing := t.ing, lnk := t.lnk, hp := t.hp, swc := t.swc }) ∧
  (∀ (s : State) (p : Port) (f : Req), isUp s = true → f.opcode = Op.fence → Alone s f → fenceBad s p f = false →
    delivers s p = true → (∀ k ∈ s.ing.trk, k.f.src ≠ f.src) →
    Completes (.fence p f) s fun t => t.ing.trk = s.ing.trk ∧ (srcOf t f.src).fence = none ∧
      (srcOf t f.src).scope = (srcOf s f.src).scope + 1 ∧
      (let e := scopeEnd s f.src (srcOf s f.src).scope
       t.swc = (landFrame s .own p (.cpl (mkCpl f (ownEp s) (if e.lost then .pathLost else if e.failed then .aborted else .ok) []))
        s.counter).swc) ∧
      t = { s with ing := t.ing, lnk := t.lnk, hp := t.hp, swc := t.swc }) ∧
  (∀ (s : State) (p : Port) (f : Req) (k : Track), isUp s = true → f.opcode = Op.fence → Alone s f → fenceBad s p f = false →
    k ∈ s.ing.trk → k.f.src = f.src → k.order < (srcOf s f.src).order →
    Completes (.fence p f) s fun t => (srcOf t f.src).fence = some ⟨f, p, (srcOf s f.src).order, (srcOf s f.src).scope, false⟩ ∧
      t.ing.buf = [] ∧ t.ing.trk = s.ing.trk ∧ t = { s with ing := t.ing }) ∧
  (∀ (s : State) (h : Held), isUp s = true → delivers s h.port = true → (srcOf s h.f.src).fence = some h →
    earlierOpen s h (fun _ => true) = false →
    Completes (.fenceComplete h.f.src) s fun t => (srcOf t h.f.src).fence = none ∧
      (let e := scopeEnd s h.f.src h.scope
       t.swc = (landFrame s .own h.port (.cpl (mkCpl h.f (ownEp s) (if e.lost then .pathLost else if e.failed then .aborted else .ok) []))
        s.counter).swc) ∧
      t = { s with ing := t.ing, lnk := t.lnk, hp := t.hp, swc := t.swc }) ∧
  (∀ (s : State) (h : Held), isUp s = true → h.f.opcode = Op.wrLineRel → (srcOf s h.f.src).rels = [h] → relReady s h = true →
    (scopeEnd s h.f.src h.scope).notOk = false → ingressBad (takeRel s h) h.port h.f = false → heldByTables s h.f = false →
    (compRec s (portCompOf s h.port)).state ≠ .down → hasRoute s h.f.dst = true → NotPoliced s h.port h.f →
    (localAt s h.f.dst).isSome = true →
    Completes (.wrLineRelRelease h.f.src) s fun t => (srcOf t h.f.src).rels = [] ∧
      t.ing.trk = s.ing.trk ++ [{ tracked s h.port h.f [] with order := h.order, scope := h.scope }] ∧
      pairRec t (pairOf h.f) = some (pairAfter s h.f 0) ∧ Onward s t h.port (stamped s h.port h.f) s.counter ∧ OnlyForwarding s t) ∧
  (∀ (s : State) (h : Held) (rest : List Held), isUp s = true → s.ing.buf = h :: rest → opScoped h.f.opcode = true →
    h.f.opcode ≠ Op.wrLineRel → (srcOf s h.f.src).fence = none → (srcOf s h.f.src).rels = [] → Passes s h.port h.f →
    (localAt s h.f.dst).isSome = true →
    Completes (.portBufferRelease h.port) s fun t => t.ing.buf = rest ∧
      t.ing.trk = s.ing.trk ++ [{ tracked s h.port h.f [] with order := h.order, scope := h.scope }] ∧
      pairRec t (pairOf h.f) = some (pairAfter s h.f 0) ∧ Onward s t h.port (stamped s h.port h.f) s.counter ∧ OnlyForwarding s t)

/-- The first completion that matches an outstanding request is delivered at its port and ends it; any other is discarded. R112 to
R114, R119: a request unacknowledged for 200 µs, or whose route crossed a failed link, is sent once more, with RSND set and PGEN
one higher, and its pair settles for 2 ms. R115, R117: 800 µs after its first forwarding it and every other of its pair end with
PATH_LOST, their tags are kept for 4 ms, and the pair restarts. R194: a progress notice restarts the 800 µs. Rests on R59, R87,
R93, R94, R118. -/
def Obligations.OutstandingRequests : Prop :=
  (∀ (s : State) (c : Cpl), isUp s = true → c.dst ≠ ownEp s → trackOf s c.dst c.tag = none → exec (.completionArrive c) s = .next s) ∧
  (∀ (s : State) (c : Cpl) (k : Track), isUp s = true → c.dst ≠ ownEp s → trackOf s c.dst c.tag = some k →
    opSequenced k.f.opcode = true → (c.seq ≠ k.f.seq ∨ c.cls ≠ k.f.cls ∨ fromDest s k.f c = false) →
    exec (.completionArrive c) s = .next s) ∧
  (∀ (s : State) (c : Cpl) (k : Track), isUp s = true → c.dst ≠ ownEp s → trackOf s c.dst c.tag = some k →
    (opSequenced k.f.opcode = true → c.seq = k.f.seq ∧ c.cls = k.f.cls ∧ c.src = k.f.dst) → delivers s k.port = true →
    statusOf c.status = .pathLost → opPaired k.f.opcode = true → (∀ x ∈ s.ing.trk, delivers s x.port = true) →
    Completes (.completionArrive c) s fun t =>
      (let more := eraseFirst (fun x => decide (x = k)) s.ing.trk
       let gone := more.filter fun x => decide (pairOf x.f = pairOf k.f) && opPaired x.f.opcode
       t.ing.trk = more.filter (fun x => !(decide (pairOf x.f = pairOf k.f) && opPaired x.f.opcode)) ∧
       t.ing.holds = s.ing.holds ++ (k :: gone).map (fun x => (x.f.src, x.f.tag, s.counter + 4000)) ∧
       t.swc.land.map (fun x => (x.outp, x.f)) = s.swc.land.map (fun x => (x.outp, x.f)) ++
        (k.port, Frame.cpl c) :: gone.map fun x => (x.port, .cpl (mkCpl x.f (ownEp s) .pathLost []))) ∧
      (∀ r, pairRec s (pairOf k.f) = some r → ∃ r', pairRec t (pairOf k.f) = some r' ∧ r'.newp = true ∧ r'.gated = false ∧ r'.next = r.next) ∧
      t = { s with ing := t.ing, acc := t.acc, swc := t.swc }) ∧
  (∀ (s : State) (c : Cpl) (k : Track), isUp s = true → c.dst ≠ ownEp s → trackOf s c.dst c.tag = some k →
    (opSequenced k.f.opcode = true → c.seq = k.f.seq ∧ c.cls = k.f.cls ∧ c.src = k.f.dst) → delivers s k.port = true →
    statusOf c.status ≠ .pathLost →
    Completes (.completionArrive c) s fun t => t.ing.trk = eraseFirst (fun x => decide (x = k)) s.ing.trk ∧
      t.swc = (landFrame s .own k.port (.cpl c) s.counter).swc ∧ t.ing.buf = s.ing.buf ∧ t.ing.holds = s.ing.holds ∧
      (∀ r, pairRec s (pairOf k.f) = some r → opSequenced k.f.opcode = true → pairRec t (pairOf k.f) =
        some { r with newp := r.newp || decide (statusOf c.status = .retry) || (k.f.newp && decide (statusOf c.status ≠ .ok)),
                      gated := r.gated && !k.f.newp }) ∧
      t = { s with ing := t.ing, acc := t.acc, swc := t.swc }) ∧
  (∀ (s : State) (i : Instr) (k : Track), isUp s = true →
    (i = .resendTimeout k.f.src k.f.tag ∧ trackOf s k.f.src k.f.tag = some k ∧ k.latest + 200 ≤ s.counter ∨
      ∃ d p, i = .pathFaultNotice d p ∧ s.acc.slots = [] ∧ trackOf s k.f.src k.f.tag = some k ∧
        s.ing.trk.filter (fun x => opPaired x.f.opcode && x.path.contains (d, p)) = [k]) →
    opPaired k.f.opcode = true → k.f.pgen ≠ 3 → hasRoute s k.f.dst = true → (localAt s k.f.dst).isSome = true →
    Completes i s fun t => Onward s t .own { k.f with rsnd := true, pgen := k.f.pgen + 1 } s.counter ∧
      t.ing.trk = modWhere s.ing.trk (fun x => x.f.src == k.f.src && x.f.tag == k.f.tag) (fun x =>
        { x with f := { k.f with rsnd := true, pgen := k.f.pgen + 1 }, latest := s.counter, path := [] }) ∧
      (∀ r, pairRec s (pairOf k.f) = some r → opSequenced k.f.opcode = true →
        ∃ r', pairRec t (pairOf k.f) = some r' ∧ r'.settleUntil = s.counter + 2000 ∧ r'.next = r.next ∧ r'.newp = r.newp ∧
          (r.settleUntil ≤ s.counter → r'.oldestResent = some k.f.seq)) ∧
      t = { s with ing := t.ing, swc := t.swc, sec := t.sec, lse := t.lse, out := t.out }) ∧
  (∀ (s : State) (k : Track) (d : DevId) (sl : Nat) (q : PortNo), isUp s = true → trackOf s k.f.src k.f.tag = some k →
    k.latest + 200 ≤ s.counter → opPaired k.f.opcode = true → k.f.pgen ≠ 3 → hasRoute s k.f.dst = true → localAt s k.f.dst = none →
    epDev s k.f.dst = some d → pairPort s d k.f = some (sl, q) → outputUp s (.lane q) = true →
    Completes (.resendTimeout k.f.src k.f.tag) s fun t =>
      (let g : Req := { k.f with rsnd := true, pgen := k.f.pgen + 1 }
       t.swc = (landFrame s .own (.lane q) (.req g) s.counter).swc ∧
       t.ing.trk = modWhere s.ing.trk (fun x => x.f.src == k.f.src && x.f.tag == k.f.tag) (fun x =>
        { x with f := g, latest := s.counter, path := pathFrom s d 8 (devId s) q })) ∧
      t = { s with ing := t.ing, swc := t.swc, sec := t.sec, lse := t.lse }) ∧
  (∀ (s : State) (k : Track), isUp s = true → trackOf s k.f.src k.f.tag = some k → k.first + 800 ≤ s.counter →
    (∀ x ∈ s.ing.trk, delivers s x.port = true) →
    Completes (.pathLostTimeout k.f.src k.f.tag) s fun t =>
      (let lost : Track → Bool := fun x => if opPaired k.f.opcode then decide (pairOf x.f = pairOf k.f) && opPaired x.f.opcode
                                           else x.f.src == k.f.src && x.f.tag == k.f.tag
       let gone := s.ing.trk.filter lost
       t.ing.trk = s.ing.trk.filter (fun x => !lost x) ∧
       t.ing.holds = s.ing.holds ++ gone.map (fun x => (x.f.src, x.f.tag, s.counter + 4000)) ∧
       t.swc.land.map (fun x => (x.outp, x.f)) = s.swc.land.map (fun x => (x.outp, x.f)) ++
        gone.map fun x => (x.port, .cpl (mkCpl x.f (ownEp s) .pathLost []))) ∧
      (∀ r, pairRec s (pairOf k.f) = some r → opPaired k.f.opcode = true →
        pairRec t (pairOf k.f) = some { r with newp := true, gated := false }) ∧
      t = { s with ing := t.ing, acc := t.acc, swc := t.swc }) ∧
  (∀ (s : State) (src : Ep) (tag : Tag), isUp s = true →
    Completes (.tagHoldExpire src tag) s fun t =>
      (∀ h, h ∈ t.ing.holds ↔ h ∈ s.ing.holds ∧ ¬ (h.1 = src ∧ h.2.1 = tag ∧ h.2.2 ≤ s.counter)) ∧ t = { s with ing := { s.ing with holds := t.ing.holds } }) ∧
  (∀ (s : State) (src dst : Ep) (c : Cls) (r : Pair), isUp s = true → pairRec s (src, dst, c) = some r → r.settleUntil ≤ s.counter →
    Completes (.settlingEnd src dst c) s fun t => pairRec t (src, dst, c) = some { r with settleUntil := 0, oldestResent := none } ∧
      (∀ k, k ≠ (src, dst, c) → pairRec t k = pairRec s k) ∧ t = { s with ing := { s.ing with pairs := t.ing.pairs } }) ∧
  (∀ (s : State) (k : Track), isUp s = true → trackOf s k.f.src k.f.tag = some k → opPaired k.f.opcode = false →
    Completes (.progressNoticeReceive k.f.src k.f.tag) s fun t => trackOf t k.f.src k.f.tag = some { k with first := s.counter } ∧
      t = { s with ing := { s.ing with trk := t.ing.trk } })

/-- A request that arrives checked over an authenticated trunk goes on to its endpoint without another check; one with CHK = 0
completes with DENIED, and an error record of source 10 names the port; over any other port it is discarded. R83, R84, R457: a
write to a window register of a port that no composition holds takes effect at once, its reserved bits zero; while a composition
holds the port it is DENIED. Rests on R85, R86. -/
def Obligations.TrunkArrivalsAndWindows : Prop :=
  (∀ (s : State) (p : PortNo) (f : Req), isUp s = true → isTrunk s p = true → (portOf s p).auth = true → f.chk = true →
    staysHere s f = true →
    Completes (.trunkRequestArrive p f) s fun t => Onward (endBegan s f) t (.lane p) f (residency s f) ∧
      t = { s with lnk := t.lnk, swc := t.swc, out := t.out }) ∧
  (∀ (s : State) (p : PortNo) (f : Req) (o : Port), isUp s = true → isTrunk s p = true → (portOf s p).auth = true → f.chk = true →
    localAt s f.dst = some o → staysHere s f = false → outputUp s o = true →
    Completes (.trunkRequestArrive p f) s fun t =>
      t.swc = (landFrame (endBegan s f) (.lane p) o (.req f) (residency s f)).swc ∧ t = { s with swc := t.swc }) ∧
  (∀ (s : State) (p : PortNo) (f : Req) (d : DevId) (r : Decided), isUp s = true → isTrunk s p = true → (portOf s p).auth = true → f.chk = true →
    localAt s f.dst = none → epDev s f.dst = some d → effRoute s d = some r → outputUp s (.lane r.port) = true →
    Completes (.trunkRequestArrive p f) s fun t =>
      t.swc = (landFrame (endBegan s f) (.lane p) (.lane r.port) (.req f) (residency s f)).swc ∧ t = { s with swc := t.swc }) ∧
  (∀ (s : State) (p : PortNo) (f : Req), isUp s = true → isTrunk s p = true → (portOf s p).auth = true → f.chk = false → s.err.log = [] →
    (localAt s f.src).isSome = true →
    Completes (.trunkRequestArrive p f) s fun t => t.out = s.out ++ [.toIngress (mkCpl f (ownEp s) .denied [])] ∧
      (∃ r, t.err.log = [r] ∧ r.source = 10 ∧ r.subject = .port p ∧ r.status = .denied) ∧ t = { s with lnk := t.lnk, err := t.err, out := t.out }) ∧
  (∀ (s : State) (p : PortNo) (f : Req), isUp s = true → (isTrunk s p = false ∨ (portOf s p).auth = false) →
    Completes (.trunkRequestArrive p f) s fun t => t = { s with lnk := t.lnk }) ∧
  (∀ (s : State) (i : BitVec 3) (q : PortNo) (win : BitVec 8) (reg : BitVec 3) (v : Word), Operator s i → isEndpointPort s q = true →
    blockKnown s (blkOfAddr (windowAddr (.lane q) win reg)) = true → reg.toNat ≤ 4 → portCompOf s (.lane q) = 0 →
    Completes (.windowRegisterWrite (.session i) (.lane q) win reg v) s fun t =>
      tget t.ing.wins (.lane q, win) = some (winWrite (tgetD s.ing.wins (.lane q, win) noWin) reg v) ∧
      (∀ k, k ≠ (.lane q, win) → tget t.ing.wins k = tget s.ing.wins k) ∧
      t.out = answered s (.session i) (windowAddr (.lane q) win reg) .ok ∧
      t = { s with ing := { s.ing with wins := t.ing.wins }, mg := t.mg, out := t.out }) ∧
  (∀ (s : State) (i : BitVec 3) (q : PortNo) (win : BitVec 8) (reg : BitVec 3) (v : Word), Operator s i → isEndpointPort s q = true →
    blockKnown s (blkOfAddr (windowAddr (.lane q) win reg)) = true → reg.toNat ≤ 4 → portCompOf s (.lane q) ≠ 0 →
    exec (.windowRegisterWrite (.session i) (.lane q) win reg v) s =
      .next (respondOne s (.session i) (windowAddr (.lane q) win reg) .denied))

/-- At the egress a read answers with its line, or with POISON and unspecified bytes; a RAW read of a pair that is not known is
answered with RETRY, and one that E has not passed waits. A sequenced request in turn, or the first of its pair, writes its line
and nothing else of memory, E passes it, and its completion is logged; one ahead of its turn is held, one behind it is answered
again with DUPL, one beyond 4,095 is discarded. An answered log entry leaves after 4 ms and raises the log floor unless it stands
above it. Rests on R65, R66, R69 to R75, R96 to R100, R120, R671. -/
def Obligations.EgressOrder : Prop :=
  (∀ (s : State) (f : Req) (oid : Oid) (o : Obj), isUp s = true → f.opcode = Op.rdLine → f.raw = false → Plain s f → Clean s f oid o →
    (localAt s f.src).isSome = true →
    exec (.egressReadArrive f) s = .next { endBegan s f with out := s.out ++ [replied f .ok (seen s f o)] }) ∧
  (∀ (s : State) (f : Req) (oid : Oid) (o : Obj), isUp s = true → f.opcode = Op.rdLine → f.raw = false → Plain s f →
    localAt s f.dst = some .own → objAt s f.addr.toNat = some (oid, o) → s.err.arm = false → s.err.sticky = [] →
    isPoisoned s (lineNo s f.addr) = true → (localAt s f.src).isSome = true →
    exec (.egressReadArrive f) s = .next { endBegan s f with out := s.out ++ [replied f .poison (freeBytes s 128)], free := s.free + 128 }) ∧
  (∀ (s : State) (f : Req), isUp s = true → f.opcode = Op.rdLine → f.raw = true → ordOf s (pairOf f) = none → (localAt s f.src).isSome = true →
    exec (.egressReadArrive f) s = .next { endBegan s f with out := s.out ++ [replied f .retry []] }) ∧
  (∀ (s : State) (f : Req) (r : Ord), isUp s = true → f.opcode = Op.rdLine → f.raw = true → ordOf s (pairOf f) = some r →
    behind r.e f.seq = false →
    Completes (.egressReadArrive f) s fun t => ordOf t (pairOf f) = some { r with raws := r.raws ++ [⟨f, genTag s f.tenant⟩] } ∧
      t = { endBegan s f with egr := t.egr }) ∧
  (∀ (s : State) (f : Req) (oid : Oid) (o : Obj), isUp s = true → (opLineWrite f.opcode = true ∨ opAtomic f.opcode = true) → Plain s f →
    Clean s f oid o → Memory.wf s.mem = true → (localAt s f.src).isSome = true → logFind s (pairOf f) f.seq = none →
    s.egr.log.length < logCapacity →
    ((ordOf s (pairOf f) = none ∧ s.egr.ord.length < ordCapacity) ∨
      ∃ r, ordOf s (pairOf f) = some r ∧ f.newp = false ∧ r.e = f.seq ∧ r.joiner = none ∧ pairWaits s (pairOf f) = false ∧ r.refusing = false ∧ r.held = [] ∧ r.raws = []) →
    Completes (.egressSequencedArrive f) s fun t =>
      (let c := mkCpl f f.dst .ok (if opLineWrite f.opcode then [] else atomAnswer f (atomOld f (seen s f o)))
       (∃ r, ordOf t (pairOf f) = some r ∧ r.e = f.seq + 1) ∧
       logFind t (pairOf f) f.seq = some ⟨pairOf f, f.seq, f.tenant, .done c, s.counter⟩ ∧ t.out = s.out ++ [.toIngress c]) ∧
      lineView t (lineNo s f.addr) (objKey s o) =
        (if opLineWrite f.opcode then lineMerge f (seen s f o) else atomLine f (seen s f o)) ∧
      OtherLinesKept s t (lineNo s f.addr) ∧ t = { endBegan s f with egr := t.egr, cmb := t.cmb, mem := t.mem, out := t.out }) ∧
  (∀ (s : State) (f : Req) (r : Ord), isUp s = true → opSequenced f.opcode = true → ordOf s (pairOf f) = some r → f.newp = false →
    behind r.e f.seq = false → r.refusing = false → 1 ≤ (f.seq - r.e).toNat → (f.seq - r.e).toNat ≤ 4095 →
    (∀ h ∈ r.held, h.f.seq ≠ f.seq) →
    Completes (.egressSequencedArrive f) s fun t =>
      ordOf t (pairOf f) = some { r with lastUse := s.counter, held := r.held ++ [⟨f, genTag s f.tenant⟩] } ∧ t = { endBegan s f with egr := t.egr }) ∧
  (∀ (s : State) (f : Req) (r : Ord) (e : LogEnt) (c : Cpl), isUp s = true → opSequenced f.opcode = true → ordOf s (pairOf f) = some r →
    f.newp = false → behind r.e f.seq = true → logFind s (pairOf f) f.seq = some e → e.state = .done c → (localAt s c.dst).isSome = true →
    Completes (.egressSequencedArrive f) s fun t => t.out = s.out ++ [.toIngress { c with dupl := true, pgen := f.pgen, src := f.dst }] ∧
      ordOf t (pairOf f) = some { r with lastUse := s.counter } ∧ t = { endBegan s f with egr := t.egr, out := t.out }) ∧
  (∀ (s : State) (f : Req) (r : Ord), isUp s = true → opSequenced f.opcode = true → ordOf s (pairOf f) = some r → f.newp = false →
    behind r.e f.seq = false → r.refusing = false → 4095 < (f.seq - r.e).toNat →
    Completes (.egressSequencedArrive f) s fun t => ordOf t (pairOf f) = some { r with lastUse := s.counter } ∧ t = { endBegan s f with egr := t.egr }) ∧
  (∀ (s : State) (src dst : Ep) (cls : Cls) (q : Seq) (e : LogEnt), isUp s = true → logFind s (src, dst, cls) q = some e →
    (∀ l, e.state ≠ .pending l) → e.at_ + 4000 ≤ s.counter →
    Completes (.completionLogEvict src dst cls q) s fun t => logFind t (src, dst, cls) q = none ∧
      (∀ r, ordOf s (src, dst, cls) = some r → ordOf t (src, dst, cls) = some { r with floor := if r.floor.any fun l => decide ((l - q).toNat ≤ 32768) then r.floor else some q }) ∧ t = { s with egr := t.egr })

/-- A combinable read that no entry matches leads one, and a like read joins it while it is open; the window of JOIN_US closes it.
When the lead's data are known, lead and joiners complete with them in merge order and the entry is free. A follow-up atomic gives
every joiner the value that stood before it in merge order. An entry unanswered for 400 µs ends its reads with PATH_LOST in the
device's own name. A destination's answer completes its request. Rests on R126 to R128, R131, R133 to R136, R140, R728. -/
def Obligations.CombinedRequests : Prop :=
  (∀ (s : State) (f : Req) (oid : Oid) (o : Obj), isUp s = true → f.opcode = Op.rdLine → f.raw = false → combinable s f = true →
    agentOf s f = none → preCheck s ⟨f, genTag s f.tenant⟩ = none → Clean s f oid o → s.cmb.ents = [] →
    Completes (.egressReadArrive f) s fun t =>
      t.cmb.ents = [⟨s.cmb.nextId, sliceOf s f, keyOf s f, [⟨f, genTag s f.tenant⟩], true, some (.ok, seen s f o), s.counter, false, s.counter, false⟩] ∧
      t = { endBegan s f with cmb := t.cmb }) ∧
  (∀ (s : State) (f : Req) (x : CEntry), isUp s = true → f.opcode = Op.rdLine → f.raw = false → combinable s f = true →
    localAt s f.dst = some .own → preCheck s ⟨f, genTag s f.tenant⟩ = none → s.cmb.ents = [x] → x.slice = sliceOf s f → x.key = keyOf s f →
    x.isOpen = true →
    Completes (.egressReadArrive f) s fun t =>
      t.cmb.ents = [{ x with members := x.members ++ [⟨f, genTag s f.tenant⟩], isOpen := decide (x.members.length + 1 < entryMembers) }] ∧
      t = { endBegan s f with cmb := { s.cmb with ents := t.cmb.ents } }) ∧
  (∀ (s : State) (k : Nat) (x : CEntry), isUp s = true → entOf s k = some x → x.at_ + max 1 s.cmb.joinUs.toNat ≤ s.counter →
    Completes (.joinWindowExpire k) s fun t => entOf t k = some { x with isOpen := false } ∧
      (∀ j, j ≠ k → entOf t j = entOf s j) ∧ t = { s with cmb := { s.cmb with ents := t.cmb.ents } }) ∧
  (∀ (s : State) (x : CEntry) (st : Status) (d data : List Byte), isUp s = true → s.cmb.ents = [x] → x.followup = false →
    x.filling = false → s.coh.txns = [] → x.res = some (.ok, d) → x.key.opcode = Op.rdLine → x.key.coherent = false → x.members ≠ [] → (∀ e ∈ s.egr.dest, e.entry = none) →
    (∀ e ∈ x.members, e.f.opcode = Op.rdLine ∧ (localAt s e.f.src).isSome = true) →
    Completes (.combineLeadComplete x.id st data) s fun t => t.cmb.ents = [] ∧ t.out = s.out ++ x.members.map (fun e => replied e.f .ok d) ∧
      (x.members.length = 1 → t.swc = s.swc) ∧
      (1 < x.members.length → ∀ e ∈ x.members, tget t.swc.shares (e.f.src, e.f.tag) = some s.swc.nextId) ∧
      t = { s with cmb := t.cmb, swc := { s.swc with shares := t.swc.shares, nextId := t.swc.nextId }, out := t.out }) ∧
  (∀ (s : State) (x : CEntry) (st : Status) (d data : List Byte), isUp s = true → s.cmb.ents = [x] → x.followup = true → s.coh.txns = [] →
    x.res = some (.ok, d) →
    (∀ e ∈ x.members, opAtomic e.f.opcode = true ∧ (localAt s e.f.src).isSome = true ∧
      (∀ r, ordOf s (pairOf e.f) = some r → r.held = [] ∧ r.raws = []) ∧ ∃ l, logFind s (pairOf e.f) e.f.seq = some l ∧ l.state = .pending []) →
    Completes (.combineFollowupComplete x.id st data) s fun t => t.cmb.ents = [] ∧
      t.out = s.out ++ (x.members.zip (joinerOlds x.key (leAt d 0 (oszBytes x.key.osz)) x.members)).map (fun y =>
        replied y.1.f .ok (atomAnswer y.1.f y.2)) ∧
      t = { s with egr := t.egr, cmb := t.cmb, out := t.out }) ∧
  (∀ (s : State) (x : CEntry), isUp s = true → s.cmb.ents = [x] → x.res = none → x.sentAt + 400 ≤ s.counter → s.coh.txns = [] →
    (∀ e ∈ x.members, e.f.opcode = Op.rdLine ∧ (localAt s e.f.src).isSome = true) →
    Completes (.combineDestTimeout x.id) s fun t => t.cmb.ents = [] ∧
      t.out = s.out ++ x.members.map (fun e => .toIngress (mkCpl e.f (ownEp s) .pathLost [])) ∧
      t = { s with egr := t.egr, cmb := t.cmb, out := t.out }) ∧
  (∀ (s : State) (d : DestReq) (c : Cpl), isUp s = true → s.egr.dest = [d] → d.entry = none → d.f.opcode = Op.rdLine → c.dst = d.f.src →
    c.tag = d.f.tag → c.src = d.f.dst → (localAt s d.f.src).isSome = true →
    exec (.destAnswerReturn c) s = 
      .next { s with egr := { s.egr with dest := [] }, out := s.out ++ [.toIngress { c with seq := d.f.seq, cls := d.f.cls, pgen := d.f.pgen, hop := 0 }] })

/-- With no other holder and room in its set, READ_SHARED takes the line SHARED and READ_OWN takes it OWNED, each with the line's
data; CLAIM takes it OWNED and makes it zero. Another holder is snooped first, and the line is granted once it has answered, with
the data it returned. A snoop unanswered for 200 µs fails the agent: its owned lines are poisoned and an error record of source 11
names the port. Attaching and detaching take effect as Table 3.5 states. Rests on R148 to R163, Tables 3.3 to 3.5, R670. -/
def Obligations.CoherentLines : Prop :=
  (∀ (s : State) (f : Req) (p : PortNo) (oid : Oid) (o : Obj), ∀ x ∈ [(Instr.readShared f, (0 : BitVec 4), CohState.shared), (.readOwn f, 1, .owned)],
    isUp s = true → f.opcode = Op.rdLine → f.subop = x.2.1 → f.raw = false → f.dur = false → combinable s f = false → agentOf s f = some p →
    preCheck s ⟨f, genTag s f.tenant⟩ = none → Clean s f oid o → (partOf s p).attached = true → (partOf s p).detaching = false → s.coh.txns = [] →
    holds (partOf s p) (lineNo s f.addr) = none → otherHolders s p (lineNo s f.addr) = [] → setFull s p (lineNo s f.addr) = false →
    (localAt s f.src).isSome = true →
    Completes x.1 s fun t => holds (partOf t p) (lineNo s f.addr) = some ⟨lineNo s f.addr, x.2.2, s.coh.fillNo⟩ ∧
      (∀ q, q ≠ p → partOf t q = partOf s q) ∧ t.out = s.out ++ [replied f .ok (seen s f o)] ∧
      t = { endBegan s f with coh := t.coh, cmb := t.cmb, out := t.out }) ∧
  (∀ (s : State) (f : Req) (p : PortNo) (oid : Oid) (o : Obj), isUp s = true → f.opcode = Op.rdLine → f.subop = 2 → f.raw = false →
    f.dur = false → agentOf s f = some p → preCheck s ⟨f, genTag s f.tenant⟩ = none → Clean s f oid o → Memory.wf s.mem = true →
    (partOf s p).attached = true → (partOf s p).detaching = false → s.coh.txns = [] → holds (partOf s p) (lineNo s f.addr) = none → otherHolders s p (lineNo s f.addr) = [] →
    setFull s p (lineNo s f.addr) = false → (localAt s f.src).isSome = true →
    Completes (.claim f) s fun t => holds (partOf t p) (lineNo s f.addr) = some ⟨lineNo s f.addr, .owned, s.coh.fillNo⟩ ∧
      lineView t (lineNo s f.addr) (objKey s o) = List.replicate 128 0 ∧ OtherLinesKept s t (lineNo s f.addr) ∧
      t.out = s.out ++ [replied f .ok (List.replicate 128 0)] ∧ t = { endBegan s f with coh := t.coh, cmb := t.cmb, mem := t.mem, out := t.out }) ∧
  (∀ (s : State) (f : Req) (p q : PortNo) (oid : Oid) (o : Obj), isUp s = true → f.opcode = Op.rdLine → f.subop = 1 → f.raw = false →
    agentOf s f = some p → preCheck s ⟨f, genTag s f.tenant⟩ = none → Clean s f oid o → s.coh.txns = [] → s.coh.snoops = [] →
    otherHolders s p (lineNo s f.addr) = [q] → setFull s p (lineNo s f.addr) = false →
    (let n : Snoop := ⟨q, BitVec.ofNat 16 s.coh.nextTag, lineNo s f.addr, true, s.coh.nextTxn, true, s.counter⟩
     Completes (.readOwn f) s fun t => t.coh.snoops = [n] ∧ t.coh.parts = s.coh.parts ∧
      t.swc = (landFrame (endBegan s f) .own (.lane q) (.req (snoopFrame s n)) s.counter).swc ∧ t = { s with coh := t.coh, cmb := t.cmb, swc := t.swc })) ∧
  (∀ (s : State) (n : Snoop) (x : Txn) (oid : Oid) (o : Obj) (data : Option (List Byte)), isUp s = true → s.coh.snoops = [n] →
    s.coh.txns = [x] → n.sent = true → n.inval = true → n.txn = x.id → n.line = x.line → n.port ≠ x.port → x.begun = true → x.back = none →
    x.wait = [n.tag] → x.kind = .readOwn → x.lost = false → x.entry = none → x.f.f.opcode = Op.rdLine → x.f.f.dur = false →
    x.line = lineNo s x.f.f.addr → Clean s x.f.f oid o → objAt s (t1Base s + n.line * 128) = some (oid, o) →
    t1Check s x.f.f.addr.toNat x.f.f.tenant x.f.f.src x.f.gen false = none → (partOf s x.port).attached = true → (partOf s x.port).detaching = false → s.egr.ord = [] →
    (∀ d, data = some d → d.length = 128) → Memory.wf s.mem = true → (localAt s x.f.f.src).isSome = true →
    Completes (.snoopAnswer n.port n.tag data) s fun t => holds (partOf t n.port) n.line = none ∧
      (holds (partOf t x.port) x.line).map (·.st) = some .owned ∧ t.coh.snoops = [] ∧ t.coh.txns = [] ∧
      lineView t x.line (objKey s o) = data.getD (seen s x.f.f o) ∧ OtherLinesKept s t x.line ∧
      t.out = s.out ++ [replied x.f.f .ok (data.getD (seen s x.f.f o))] ∧
      t = { s with coh := t.coh, cmb := t.cmb, mem := t.mem, out := t.out }) ∧
  (∀ (s : State) (n : Snoop), isUp s = true → n ∈ s.coh.snoops → n.sent = true → n.at_ + 200 ≤ s.counter → s.coh.txns = [] →
    (partOf s n.port).attached = true → s.err.log = [] →
    Completes (.snoopTimeout n.port n.tag) s fun t =>
      partOf t n.port = { partOf s n.port with failed := true, attached := false, detaching := false, lines := [] } ∧
      (∀ q, q ≠ n.port → partOf t q = partOf s q) ∧ (∀ m ∈ t.coh.snoops, m.port ≠ n.port) ∧
      (∀ l, isPoisoned t l = true ↔ isPoisoned s l = true ∨ ∃ c ∈ (partOf s n.port).lines, c.line = l ∧ c.st = .owned) ∧
      (∃ r, t.err.log = [r] ∧ r.source = 11 ∧ r.subject = .port n.port) ∧ t.mem.cells = s.mem.cells ∧
      t = { s with coh := t.coh, mem := t.mem, err := t.err }) ∧
  (∀ (s : State) (i : BitVec 3) (p : PortNo) (ways sets : BitVec 4), Operator s i → isEndpointPort s p = true → (partOf s p).attached = false →
    (partOf s p).detaching = false → ways.toNat + sets.toNat ≤ 15 → ways.toNat ≤ 4 →
    Completes (.cohAttach (.session i) p ways sets) s fun t =>
      partOf t p = { partOf s p with attach := true, cfgWays := ways, cfgSets := sets, ways := ways, sets := sets, attached := true, refused := false, lines := [] } ∧
      (∀ q, q ≠ p → partOf t q = partOf s q) ∧ t.out = answered s (.session i) (mgmtAddr blkCoh (0x1000 + 0x10 * p.toNat)) .ok ∧
      t = { s with coh := t.coh, mg := t.mg, out := t.out }) ∧
  (∀ (s : State) (i : BitVec 3) (p : PortNo) (ways sets : BitVec 4), Operator s i → (partOf s p).attached = true → (partOf s p).detaching = false →
    (partOf s p).lines = [] →
    Completes (.cohDetach (.session i) ⟨p, ways, sets⟩) s fun t =>
      partOf t p = { partOf s p with attach := false, cfgWays := ways, cfgSets := sets, detaching := true } ∧
      (∀ q, q ≠ p → partOf t q = partOf s q) ∧ t.out = answered s (.session i) (mgmtAddr blkCoh (0x1000 + 0x10 * p.toNat)) .ok ∧
      t = { s with coh := t.coh, mg := t.mg, out := t.out }) ∧
  (∀ (s : State) (p : PortNo), isUp s = true → (partOf s p).detaching = true →
    (∀ x ∈ s.coh.txns, ¬ (x.ran = false ∧ x.port = p)) →
    Completes (.detachFinish p) s fun t => partOf t p = { partOf s p with attached := false, detaching := false, lines := [] } ∧
      (∀ q, q ≠ p → partOf t q = partOf s q) ∧ t = { s with coh := t.coh })

/-- A flit with a bad CRC or a reserved field is rejected and counted, and the first of a gap is answered with a NAK; one whose FSEQ
was accepted before is discarded; the next in order is accepted and acknowledged, and a whole frame in it is kept until the flit
after it is accepted. A replay sends every unacknowledged flit again under its own FSEQ. A FRAME_VOID discards the frame it names.
Rests on R486 to R490, R496 to R500, R537. -/
def Obligations.LinkFlits : Prop :=
  (∀ (s : State) (p : PortNo) (r : PortRec) (fl : Flit) (ok : Bool) (fixed : List Nat),
    ∀ i ∈ [Instr.flitIdle p fl ⟨ok, fixed⟩, .flitData p fl ⟨ok, fixed⟩, .flitCtrlReserved p fl],
    isUp s = true → tget s.lnk p = some r → 0 < r.st → r.rx = none → r.tx = none → flitSound fl = false → r.gap = false → r.hold = false →
    (∀ x ∈ r.rb, x.replays < 8) →
    Completes i s fun t => PortBecomes s t p (fun r' => r'.crcErr = satInc 32 r.crcErr ∧ r'.gap = true ∧ r'.rxF = r.rxF ∧ r'.rb = r.rb) ∧
      (∃ g, t.out = s.out ++ [flitOut t p g] ∧ g.ftype = ftIdle ∧ g.nak = true ∧ flitGood g = true) ∧ t = { s with lnk := t.lnk, out := t.out }) ∧
  (∀ (s : State) (p : PortNo) (r : PortRec) (fl : Flit) (ok : Bool) (fixed : List Nat),
    ∀ i ∈ [Instr.flitIdle p fl ⟨ok, fixed⟩, .flitData p fl ⟨ok, fixed⟩, .flitCtrlReserved p fl],
    isUp s = true → tget s.lnk p = some r → 0 < r.st → r.rx = none → flitSound fl = false → r.gap = true → (∀ x ∈ r.rb, x.replays < 8) →
    Completes i s fun t => PortBecomes s t p (fun r' => r' = { r with crcErr := satInc 32 r.crcErr, lanes := r'.lanes }) ∧ t = { s with lnk := t.lnk }) ∧
  (∀ (s : State) (p : PortNo) (r : PortRec) (fl : Flit) (ok : Bool) (fixed : List Nat), isUp s = true → Ready s p r → 0 < r.st →
    r.rx = none → flitSound fl = true → fl.ftype = ftIdle → fl.ackv = false → fl.nak = false →
    Completes (.flitIdle p fl ⟨ok, fixed⟩) s fun t =>
      PortBecomes s t p (fun r' => r'.lastGood = s.counter ∧ r'.rxF = r.rxF ∧ r'.crcErr = r.crcErr ∧
        r'.credits = addCredit (addCredit r.credits fl.c0cls fl.c0cnt.toNat) fl.c1cls fl.c1cnt.toNat) ∧
      t.out = s.out ∧ t = { s with lnk := t.lnk }) ∧
  (∀ (s : State) (p : PortNo) (r : PortRec) (fl : Flit) (ok : Bool) (fixed : List Nat), isUp s = true → Ready s p r → 0 < r.st →
    r.rx = none → flitSound fl = true → fl.ftype = ftData → fl.ackv = false → fl.nak = false → r.rxF.isSome = true → fl.fseq ≠ nextRx r → fseqBehind fl.fseq (nextRx r) ≤ 2048 →
    Completes (.flitData p fl ⟨ok, fixed⟩) s fun t => PortBecomes s t p (fun r' => r' = { r with lastGood := s.counter, lanes := r'.lanes }) ∧ t = { s with lnk := t.lnk }) ∧
  (∀ (s : State) (p : PortNo) (r : PortRec) (fl : Flit) (ok : Bool) (fixed : List Nat) (f : Req), isUp s = true → Ready s p r → 0 < r.st → r.rx = none →
    r.part = [] → r.cut = none → r.nak = false → flitSound fl = true → fl.ftype = ftData → fl.fseq = nextRx r → fl.ackv = false →
    fl.nak = false → f.wf = true → opRequest f.opcode = true → frameBytes (.req f) ≤ 240 → fl.payload = padTo 240 (frameWire (.req f)) →
    (r.role = 2 ∨ s.swc.ctEn = false ∨ outPort s (.lane p) (.req f) = some .own) →
    Completes (.flitData p fl ⟨ok, fixed⟩) s fun t =>
      PortBecomes s t p (fun r' => r'.rxF = some fl.fseq ∧ r'.fresh = [(.req f, s.counter)] ∧ r'.part = [] ∧ r'.lastGood = s.counter) ∧
      (∃ g, t.out = s.out ++ [flitOut t p g] ∧ g.ftype = ftIdle ∧ g.ackv = true ∧ g.ackseq = fl.fseq ∧ flitGood g = true) ∧
      t = { s with lnk := t.lnk, out := t.out }) ∧
  (∀ (s : State) (p : PortNo) (r : PortRec) (fl : Flit), isUp s = true → Ready s p r → 0 < r.st → r.nak = false → flitSound fl = true →
    fl.ftype = ftCtrl → fl.fseq = nextRx r → fl.ackv = false → fl.nak = false →
    Completes (.flitCtrlReserved p fl) s fun t => PortBecomes s t p (fun r' => r'.rxF = some fl.fseq ∧ r'.fresh = [] ∧ r'.st = r.st) ∧
      (∃ g, t.out = s.out ++ [flitOut t p g] ∧ g.ftype = ftIdle ∧ g.ackv = true ∧ g.ackseq = fl.fseq) ∧ t = { s with lnk := t.lnk, out := t.out }) ∧
  (∀ (s : State) (p : PortNo) (r : PortRec), isUp s = true → tget s.lnk p = some r → 0 < r.st → 0 < unacked r → r.ackAt + 1 ≤ s.counter →
    (∀ x ∈ r.rb, x.replays < 7) → s.err.arm = false → r.reord = none →
    Completes (.replayTimeout p) s fun t =>
      PortBecomes s t p (fun r' => r'.replays = satInc 32 r.replays ∧ r'.winReplays = r.winReplays + 1 ∧
        r'.rb = r.rb.map fun x => if x.sent then { x with replays := x.replays + 1 } else x) ∧
      (∃ fls : List Flit, t.out = s.out ++ fls.map (flitOut t p) ∧ fls.map (·.fseq) = (r.rb.filter (·.sent)).map (·.fseq)) ∧
      t = { s with lnk := t.lnk, err := t.err, out := t.out }) ∧
  (∀ (s : State) (p : PortNo) (r : PortRec) (f : Req) (at_ : Nat), isUp s = true → tget s.lnk p = some r → r.ended = none →
    r.fresh = [(.req f, at_)] →
    Completes (.frameVoid p f.src f.tag) s fun t => PortBecomes s t p (fun r' => r'.fresh = [] ∧ r'.rxF = some (nextRx r)) ∧
      t.swc.dropVoided = satInc 32 s.swc.dropVoided ∧ t.swc.land = s.swc.land ∧ t = { s with lnk := t.lnk, swc := t.swc, out := t.out } ∧
      t.out = s.out)

/-- What each message and each step of training does to its port. Rests on R491, R502 to R512, R518, R657 to R659. -/
def Obligations.LinkTraining : Prop :=
  (∀ (s : State) (i : BitVec 3) (p : PortNo) (r : PortRec), Operator s i → tget s.lnk p = some r → r.role ≠ 0 → r.st = 0 →
    Completes (.portEnable (.session i) p) s fun t => PortBecomes s t p (fun r' => r'.enable = true ∧ Restarted r r') ∧
      t.out = answered s (.session i) (mgmtAddr (blkLnk p) 0x04) .ok ∧ t = { s with lnk := t.lnk, mg := t.mg, out := t.out }) ∧
  (∀ (s : State) (p : PortNo) (r : PortRec), isUp s = true → tget s.lnk p = some r → r.st = 0 → r.enable = true → r.lastFault ≠ 8 →
    r.lastFault ≠ 0 → r.waitUntil ≤ s.counter →
    Completes (.retrainBackoffExpire p) s fun t => PortBecomes s t p (Restarted r) ∧ t = { s with lnk := t.lnk }) ∧
  (∀ (s : State) (p : PortNo) (r : PortRec), isUp s = true → Ready s p r → r.st = 1 → r.step = 1 → r.enable = true → trainWidth r ≠ 0 →
    Completes (.presenceDetect p true) s fun t => PortBecomes s t p (fun r' => r'.st = 1 ∧ r'.step = 5 ∧ r'.stepAt = s.counter) ∧
      SentCtrl s t p (.linkParam (ownParam s p)) ∧ t = { s with lnk := t.lnk, out := t.out }) ∧
  (∀ (s : State) (p : PortNo), isUp s = true → exec (.presenceDetect p false) s = .next s) ∧
  (∀ (s : State) (p : PortNo) (r : PortRec) (m : LinkParam), isUp s = true → Ready s p r → r.st = 1 → r.step = 5 → r.role = 1 → m.role = 3 →
    m.cipher = r.cipher →
    Completes (.linkParam p m) s fun t => PortBecomes s t p (fun r' => r'.st = 1 ∧ r'.step = 7 ∧ r'.credits = m.credits ∧
        r'.rxF = some (nextRx r)) ∧ t = { s with lnk := t.lnk }) ∧
  (∀ (s : State) (p : PortNo) (r : PortRec) (m : LinkParam), isUp s = true → Ready s p r → r.st = 1 → r.step = 5 → r.role = 2 → m.role = 2 →
    m.cipher = r.cipher →
    Completes (.linkParam p m) s fun t =>
      PortBecomes s t p (fun r' => r'.st = 2 ∧ r'.step = 6 ∧ r'.credits = m.credits ∧ r'.nonce = Config.random s.free 32) ∧
      SentCtrl s t p (.authHello (ownHello t p)) ∧ t = { s with lnk := t.lnk, free := s.free + 1, out := t.out }) ∧
  (∀ (s : State) (p : PortNo) (r : PortRec) (m : LinkParam), isUp s = true → Ready s p r → r.st = 1 → r.step = 5 → s.err.log = [] →
    (m.role ≠ partnerRole r ∨ m.cipher ≠ r.cipher) →
    Completes (.linkParam p m) s fun t => PortBecomes s t p (Restarted r) ∧ OneRecord t 1 (.port p) ∧
      t = { s with lnk := t.lnk, err := t.err }) ∧
  (∀ (s : State) (p : PortNo) (r : PortRec) (n : Nat) (ok : BitVec 8), isUp s = true → tget s.lnk p = some r → (r.st = 1 ∨ r.st = 2) →
    1 < r.step → s.err.log = [] →
    Completes (.portTrainStepFail p ⟨n, ok⟩) s fun t =>
      PortBecomes s t p (fun r' => Restarted r r' ∧ r'.lanesOk = if failedStep r n ≤ 3 then ok else r.lanesOk) ∧ OneRecord t 1 (.port p) ∧
      t = { s with lnk := t.lnk, err := t.err }) ∧
  (∀ (s : State) (p : PortNo) (r : PortRec) (m : AuthHello), isUp s = true → Ready s p r → r.st = 2 → r.hello = none →
    Completes (.authHello p m) s fun t =>
      (let bs := Config.sign Config.identityKey (helloBytes (ownHello s p) ++ helloBytes m) ++ identityCert s
       let n := ceilDiv bs.length 224
       PortBecomes s t p (fun r' => r'.hello = some m ∧ r'.rb.map (·.payload) = (List.range n).map fun k =>
        ctrlPayload (.authProof (BitVec.ofNat 4 k) (BitVec.ofNat 4 (n - 1)) (BitVec.ofNat 16 bs.length) ((bs.drop (k * 224)).take 224)))) ∧
      t = { s with lnk := t.lnk, out := t.out }) ∧
  (∀ (s : State) (p : PortNo) (r : PortRec) (m : AuthProof), isUp s = true → Ready s p r → r.st = 2 → r.accepted = false → r.proof = [] →
    m.countLess1 = 0 → peerOk s p m = true →
    Completes (.authProof p m) s fun t => PortBecomes s t p (fun r' => r'.accepted = true ∧ r'.proof = [(m.index, m.bytes)] ∧ r'.st = 2) ∧
      SentCtrl s t p (.kaPoint (ownPoint s p)) ∧ t = { s with lnk := t.lnk, out := t.out }) ∧
  (∀ (s : State) (p : PortNo) (r : PortRec) (m : AuthProof), isUp s = true → Ready s p r → r.st = 2 → r.accepted = false → r.proof = [] →
    m.countLess1 = 0 → peerOk s p m = false → s.err.log = [] →
    Completes (.authProof p m) s fun t => PortBecomes s t p (fun r' => AtZero s r r' 6) ∧ OneRecord t 10 (.port p) ∧
      t = { s with lnk := t.lnk, err := t.err }) ∧
  (∀ (s : State) (p : PortNo) (r : PortRec) (pt : List Byte), isUp s = true → Ready s p r → r.st = 2 → r.accepted = true → r.point = none →
    Completes (.kaPoint p pt) s fun t => PortBecomes s t p (fun r' => r'.point = some pt) ∧
      SentCtrl s t p (.kaConfirm ((List.range 32).map fun k => Config.agreeByte r.nonce (0x05 :: pt) k)) ∧
      t = { s with lnk := t.lnk, out := t.out }) ∧
  (∀ (s : State) (p : PortNo) (r : PortRec) (v : List Byte), isUp s = true → Ready s p r → r.st = 2 → r.accepted = true → r.point.isSome = true →
    Completes (.kaConfirm p v true) s fun t => PortBecomes s t p (fun r' => r'.step = 7 ∧ r'.st = 2 ∧
        (if r.cipher = 0 then r'.tx = none ∧ r'.rx = none
         else ∃ a b, r'.tx = some a ∧ r'.rx = some b ∧ a.group = 0 ∧ b.group = 0 ∧ a.kph = false ∧ b.kph = false)) ∧
      t = { s with lnk := t.lnk }) ∧
  (∀ (s : State) (p : PortNo) (r : PortRec) (v : List Byte), isUp s = true → Ready s p r → r.st = 2 → r.accepted = true → r.point.isSome = true →
    s.err.log = [] →
    Completes (.kaConfirm p v false) s fun t => PortBecomes s t p (Restarted r) ∧ OneRecord t 1 (.port p) ∧
      t = { s with lnk := t.lnk, err := t.err }) ∧
  (∀ (s : State) (p : PortNo) (r : PortRec), isUp s = true → Ready s p r → (r.st = 1 ∨ r.st = 2) → r.step = 7 →
    Completes (.portTrained p) s fun t =>
      PortBecomes s t p (fun r' => r'.st = 3 ∧ r'.actWidth = BitVec.ofNat 4 (trainWidth r) ∧ r'.auth = (r.role == 2) ∧ r'.enc = false ∧
        r'.rxF = none ∧ r'.upAt = s.counter) ∧
      (if r.role = 2 then SentCtrl s t p (.join (ownJoin s)) else t.out = s.out) ∧
      t = { s with lnk := t.lnk, shp := t.shp, out := t.out }) ∧
  (∀ (s : State) (p : PortNo) (r : PortRec) (m : JoinMsg), isUp s = true → Ready s p r → r.role = 2 → portCarries r = true →
    (∀ i, tget s.boot.incs m.dev = some i → i = m.incarnation) → m.digest = (ownJoin s).digest → m.registrar = (ownJoin s).registrar →
    m.host = (ownJoin s).host →
    Completes (.join p m) s fun t => PortBecomes s t p (fun r' => r'.gotJoin = true ∧ r'.joined = true ∧ r'.refused = false) ∧
      tget t.boot.incs m.dev = some m.incarnation ∧ t = { s with lnk := t.lnk, boot := { s.boot with incs := t.boot.incs } }) ∧
  (∀ (s : State) (p : PortNo) (r : PortRec) (m : JoinMsg) (k : BitVec 64), isUp s = true → Ready s p r → r.role = 2 → portCarries r = true →
    tget s.boot.incs m.dev = some k → k ≠ m.incarnation → m.digest ≠ (ownJoin s).digest → s.err.log = [] →
    Completes (.join p m) s fun t => PortBecomes s t p (fun r' => r'.gotJoin = true ∧ r'.joined = false ∧ r'.refused = true ∧ r'.waitLoss = true) ∧
      t.out = s.out ++ [.notice (registrarOf s) (.incarnation m.dev)] ∧ t.boot.mismatch = satInc 16 s.boot.mismatch ∧ OneRecord t 10 (.port p) ∧
      t = { s with lnk := t.lnk, boot := t.boot, err := t.err, out := t.out }) ∧
  (∀ (s : State) (p : PortNo) (r : PortRec), isUp s = true → Ready s p r → r.role = 2 → portCarries r = true → r.gotJoin = false →
    r.joinAt + 100 ≤ s.counter →
    Completes (.joinResend p) s fun t => PortBecomes s t p (fun r' => r'.joinAt = s.counter ∧ r'.gotJoin = false) ∧
      SentCtrl s t p (.join (ownJoin s)) ∧ t = { s with lnk := t.lnk, out := t.out }) ∧
  (∀ (s : State) (p : PortNo) (r : PortRec) (c : Cipher), isUp s = true → tget s.lnk p = some r → r.rb = [] → 0 < r.width.toNat →
    r.hold = false → r.tx = some c → r.enc = true → c.pend = false → c.since + 1000000 ≤ s.counter →
    Completes (.keyChangeTimer p) s fun t =>
      (let ks := Config.kdf (c.key ++ c.salt ++ Config.label "DF-NEXT") (c.key.length + 4)
       PortBecomes s t p (fun r' => ∃ c', r'.tx = some c' ∧
        (if c.inGroup < 3 then c' = { c with pend := true, inGroup := c.inGroup + 1 }
         else c'.key = ks.take c.key.length ∧ c'.salt = ks.drop c.key.length ∧ c'.kph = !c.kph ∧ c'.group = 0 ∧ c'.inGroup = 0 ∧
          c'.since = s.counter ∧ c'.pend = false))) ∧
      (∃ fl, t.out = s.out ++ [flitOut t p fl] ∧ fl.ftype = ftCtrl ∧ fl.enc = true ∧ fl.kph = c.kph) ∧ t = { s with lnk := t.lnk, out := t.out }) ∧
  (∀ (s : State) (p : PortNo) (r : PortRec) (c : Cipher), isUp s = true → tget s.lnk p = some r → r.fresh = [] → r.ended = none →
    r.rx = some c →
    Completes (.keyNext p (!c.kph)) s fun t =>
      PortBecomes s t p (fun r' => r'.rx = some (nextCipher s.counter { c with group := c.group - 1 }) ∧ r'.rxF = some (nextRx r)) ∧
      t = { s with lnk := t.lnk })

/-- Each cause takes the port to STATE 0 with its LAST_FAULT, an error record and a path-fault notice, the wait of R518 begun; a
retrain takes it to step 1 instead; a drain lets it run empty first, and a partner's DRAIN ends the sending of frames. Rests on
R515 to R518, R521, R522, Table 12.4, Table 12.12. -/
def Obligations.LinkDownAndDrain : Prop :=
  (∀ (s : State) (p : PortNo) (r : PortRec) (i : Instr) (code : BitVec 4), isUp s = true → Bare s p r → portCarries r = true →
    ((∃ lane, i = .signalLoss p lane ∧ code = 1 ∧ lane.toNat < r.actWidth.toNat) ∨
     (i = .ackStallTimeout p ∧ code = 3 ∧ 0 < unacked r ∧ r.ackAt + 3 ≤ s.counter) ∨
     (i = .noGoodFlitTimeout p ∧ code = 4 ∧ r.lastGood + 1 ≤ s.counter) ∨
     (i = .replayRateWindow p ∧ code = 5 ∧ 64 < r.winReplays) ∨ (∃ c, i = .linkDown p c ∧ code = 7)) →
    Completes i s fun t => PortBecomes s t p (fun r' => AtZero s r r' code ∧ r'.enable = r.enable) ∧ OneRecord t 1 (.port p) ∧ Noticed s t p ∧
      t = { s with lnk := t.lnk, swc := t.swc, err := t.err, out := t.out }) ∧
  (∀ (s : State) (p : PortNo) (r : PortRec), isUp s = true → tget s.lnk p = some r → r.winReplays ≤ 64 →
    Completes (.replayRateWindow p) s fun t => PortBecomes s t p (fun r' => r' = { r with winReplays := 0, lanes := r.lanes.map laneWindow }) ∧ t = { s with lnk := t.lnk }) ∧
  (∀ (s : State) (i : BitVec 3) (p : PortNo) (r : PortRec), Operator s i → Bare s p r → r.role ≠ 0 → portCarries r = true →
    Completes (.portDisable (.session i) p) s fun t => PortBecomes s t p (fun r' => AtZero s r r' 8 ∧ r'.enable = false) ∧
      OneRecord t 1 (.port p) ∧ Noticed s t p ∧ t = { s with lnk := t.lnk, swc := t.swc, err := t.err, mg := t.mg, out := t.out }) ∧
  (∀ (s : State) (i : BitVec 3) (p : PortNo) (r : PortRec), Operator s i → Bare s p r → r.role ≠ 0 → r.enable = true → r.st = 3 →
    Completes (.retrain (.session i) p) s fun t => PortBecomes s t p (Restarted r) ∧ Noticed s t p ∧ t.err.log = [] ∧
      t = { s with lnk := t.lnk, swc := t.swc, err := t.err, mg := t.mg, out := t.out }) ∧
  (∀ (s : State) (p : PortNo) (r : PortRec), isUp s = true → Bare s p r → portCarries r = true →
    Completes (.retrainReq p) s fun t => PortBecomes s t p (Restarted r) ∧ Noticed s t p ∧ t.err = s.err ∧
      t = { s with lnk := t.lnk, swc := t.swc, out := t.out }) ∧
  (∀ (s : State) (i : BitVec 3) (p : PortNo) (r : PortRec), Operator s i → Bare s p r → r.role ≠ 0 → r.st = 3 →
    Completes (.portDrain (.session i) p) s fun t => PortBecomes s t p (fun r' => r'.st = 4 ∧ r'.drain = true ∧ r'.drainAt = s.counter) ∧
      Noticed s t p ∧ t.err.log = [] ∧ t = { s with lnk := t.lnk, swc := t.swc, err := t.err, mg := t.mg, out := t.out }) ∧
  (∀ (s : State) (p : PortNo) (r : PortRec) (i : Instr), isUp s = true → s.boot.shutdown = false → Bare s p r → r.st = 4 →
    (i = .portDrainEmpty p ∨ i = .portDrainTimeout p ∧ r.drainAt + 400 ≤ s.counter) →
    Completes i s fun t => PortBecomes s t p (fun r' => AtZero s r r' 8 ∧ r'.drain = false) ∧ OneRecord t 1 (.port p) ∧
      t.swc.notes = s.swc.notes ∧ t = { s with lnk := t.lnk, swc := t.swc, err := t.err, out := t.out }) ∧
  (∀ (s : State) (p : PortNo) (r : PortRec), isUp s = true → Ready s p r → portCarries r = true →
    Completes (.drain p) s fun t => (∃ r', tget t.lnk p = some r' ∧ r'.noSend = true ∧ r'.st = r.st) ∧
      (∀ x, x ∈ t.swc.queue ↔ x ∈ s.swc.queue ∧ x.outp ≠ .lane p) ∧ (∀ x, x ∈ t.swc.land ↔ x ∈ s.swc.land ∧ x.outp ≠ .lane p) ∧
      t = { s with lnk := t.lnk, swc := t.swc })

/-- The first frame of a landing zone is cut through to a free output, or admitted when it fits, and waits otherwise while push-out is
off; a frame unsent after 36 µs is discarded and counted. A free output sends the head frame of class 7 first, then one that has
waited 24 µs; on a trunk HOP counts up, and a frame with HOP 7 is discarded. Rests on R529 to R537, R554, R566 to R568. -/
def Obligations.SwitchCore : Prop :=
  (∀ (s : State) (p : Port) (c : Cls) (x : QFrame) (i o : PortNo) (r : PortRec), isUp s = true →
    s.swc.land.find? (fun y => decide (y.inp = p) && y.cls == c) = some x → cutPair s x = some (i, o) → i ≠ o → Ready s o r →
    s.err.arm = false → frameBytes x.f ≤ 240 →
    Completes (.frameAdmit p c) s fun t => SentFrame s t o x.f ∧ t.swc.land = eraseFirst (fun y => y.id == x.id) s.swc.land ∧
      t.swc.queue = s.swc.queue ∧ (portOf t o).hold = true ∧ (portOf t i).ended = some ⟨.lane o, 0, frameSrc x.f, frameTag x.f⟩ ∧
      t = { s with lnk := t.lnk, hp := t.hp, swc := t.swc, shp := t.shp, err := t.err, out := t.out }) ∧
  (∀ (s : State) (p : Port) (c : Cls) (x : QFrame), isUp s = true → s.swc.land.find? (fun y => decide (y.inp = p) && y.cls == c) = some x →
    cutPair s x = none → fitsMax s s.swc.queue x = true → fitsFree s s.swc.queue x = true →
    Completes (.frameAdmit p c) s fun t => t.swc.queue = s.swc.queue ++ [x] ∧ t.swc.land = eraseFirst (fun y => y.id == x.id) s.swc.land ∧
      t.lnk = (returnCredits s x.inp x.cls (frameCredits x.f)).lnk ∧ t.hp = (returnCredits s x.inp x.cls (frameCredits x.f)).hp ∧
      t = { s with lnk := t.lnk, hp := t.hp, swc := t.swc }) ∧
  (∀ (s : State) (p : Port) (c : Cls) (x : QFrame), isUp s = true → s.swc.land.find? (fun y => decide (y.inp = p) && y.cls == c) = some x →
    cutPair s x = none → (fitsMax s s.swc.queue x = false ∨ (fitsFree s s.swc.queue x = false ∧ s.swc.poEn = false)) → exec (.frameAdmit p c) s = .next s) ∧
  (∀ (s : State) (id : Nat) (x : QFrame), isUp s = true → (s.swc.land ++ s.swc.queue).find? (fun y => y.id == id) = some x →
    x.res + 36 ≤ s.counter →
    Completes (.residencyExpire id) s fun t => t.swc.dropAged = satInc 32 s.swc.dropAged ∧
      (∀ y, y ∈ t.swc.land ↔ y ∈ s.swc.land ∧ y.id ≠ id) ∧ (∀ y, y ∈ t.swc.queue ↔ y ∈ s.swc.queue ∧ y.id ≠ id) ∧
      t = { s with lnk := t.lnk, hp := t.hp, swc := t.swc }) ∧
  (∀ (s : State) (p : PortNo) (r : PortRec) (x : QFrame), isUp s = true → Ready s p r → canStart s (.lane p) = true →
    candidate s (.lane p) 7 = some x → s.err.arm = false → frameCls x.f = 7 → frameBytes x.f ≤ 240 → ¬ (r.role = 2 ∧ frameHop x.f = 7) →
    Completes (.frameSchedule (.lane p)) s fun t => (s.swc.queue = [x] → SentFrame s t p x.f) ∧
      (∀ y, y ∈ t.swc.queue ↔ y ∈ s.swc.queue ∧ y.id ≠ x.id) ∧
      (∃ r', tget t.lnk p = some r' ∧ r'.credits.getD 7 0 + frameCredits x.f = r.credits.getD 7 0) ∧
      t = { s with lnk := t.lnk, swc := t.swc, shp := t.shp, err := t.err, out := t.out }) ∧
  (∀ (s : State) (p : PortNo) (r : PortRec) (x : QFrame), isUp s = true → Ready s p r → canStart s (.lane p) = true →
    s.swc.queue = [x] → x.outp = .lane p → x.cls ≠ 7 → frameCls x.f = x.cls → hasCredits s (.lane p) x.f = true → x.res + 24 ≤ s.counter →
    s.err.arm = false → frameBytes x.f ≤ 240 → ¬ (r.role = 2 ∧ frameHop x.f = 7) →
    Completes (.frameSchedule (.lane p)) s fun t => SentFrame s t p x.f ∧ t.swc.queue = [] ∧
      (shpOf t (.lane p)).override = satInc 32 (shpOf s (.lane p)).override ∧
      t = { s with lnk := t.lnk, swc := t.swc, shp := t.shp, err := t.err, out := t.out }) ∧
  (∀ (s : State) (p : PortNo) (r : PortRec) (x : QFrame), isUp s = true → tget s.lnk p = some r → canStart s (.lane p) = true →
    candidate s (.lane p) 7 = some x → r.tail = [] → r.role = 2 → frameHop x.f = 7 →
    Completes (.frameSchedule (.lane p)) s fun t => t.swc.dropAged = satInc 32 s.swc.dropAged ∧ t.out = s.out ∧
      (∀ y, y ∈ t.swc.queue ↔ y ∈ s.swc.queue ∧ y.id ≠ x.id) ∧ t = { s with swc := t.swc })

/-- Route notices are applied once and flooded over the other joined trunks; older ones are discarded; a port that has held STATE 3
for 1 ms tells it again. Shaper registers take effect on their write or are DENIED, a bucket due on the wheel is computed again,
and an occupancy window keeps its mean. Rests on R548 to R552, R560, R564, R571, Table 14.6. -/
def Obligations.RoutesAndShapers : Prop :=
  (∀ (s : State) (p : PortNo) (f : Req), isUp s = true →
    (∀ h, tget s.swc.notes ((noteOf f.payload).1, (noteOf f.payload).2.1) = some h → h.nseq < (noteOf f.payload).2.2.nseq) →
    (noteOf f.payload).2.2.endpoint = false → (noteOf f.payload).2.2.restore = false →
    Completes (.routeNotice p f) s fun t =>
      tget t.swc.notes ((noteOf f.payload).1, (noteOf f.payload).2.1) = some (noteOf f.payload).2.2 ∧
      (∀ l, l ∈ t.swc.failed ↔ l ∈ s.swc.failed ∨ l = (noteOf f.payload).2.2.link.toNat) ∧
      t.swc.land.length = s.swc.land.length +
        (s.lnk.filter fun e => e.2.role == 2 && e.2.st == 3 && !e.2.noSend && e.2.joined && !decide (e.1 = p)).length ∧
      t = { s with lnk := t.lnk, swc := t.swc }) ∧
  (∀ (s : State) (p : PortNo) (f : Req) (h : NoteRec), isUp s = true →
    tget s.swc.notes ((noteOf f.payload).1, (noteOf f.payload).2.1) = some h → ¬ (h.nseq < (noteOf f.payload).2.2.nseq) →
    Completes (.routeNotice p f) s fun t => t = { endBegan s f with lnk := t.lnk }) ∧
  (∀ (s : State) (p : PortNo) (r : PortRec), isUp s = true → tget s.lnk p = some r → r.role = 1 → r.st = 3 → r.restored = false →
    r.upAt + 1000 ≤ s.counter →
    Completes (.restoreNoticeTimer p) s fun t => PortBecomes s t p (fun r' => r' = { r with restored := true }) ∧
      (∃ n, tget t.swc.notes (devId s, p) = some n ∧ n.restore = true ∧ n.endpoint = true) ∧
      (devId s, p) ∉ t.swc.unroutable ∧ t = { s with lnk := t.lnk, swc := t.swc }) ∧
  (∀ (s : State) (p : PortNo) (r : PortRec), isUp s = true → tget s.lnk p = some r → r.role = 2 → r.st = 3 → 64 ≤ r.samples.length →
    Completes (.occupancyWindow p) s fun t =>
      PortBecomes s t p (fun r' => r' = { r with mean := (r.samples.take 64).sum / 64, windows := r.windows + 1, samples := [] }) ∧
      t = { s with lnk := t.lnk }) ∧
  (∀ (s : State) (i : BitVec 3) (q : PortNo) (v : Word), Operator s i →
    Completes (.shaperConfigWrite (.session i) (.lane q) 0 v) s fun t =>
      (shpOf t (.lane q)).port = ⟨(v.extractLsb' 0 16).toNat, (v.extractLsb' 16 16).toNat, 0, wheelTick (shpOf s (.lane q)), none⟩ ∧
      (∀ p, p ≠ .lane q → shpOf t p = shpOf s p) ∧ t = { s with shp := { s.shp with sets := t.shp.sets }, mg := t.mg, out := t.out }) ∧
  (∀ (s : State) (i : BitVec 3) (q : PortNo) (v : Word), Operator s i → isTrunk s q = true →
    exec (.shaperConfigWrite (.session i) (.lane q) 0x6C v) s = .next (respondOne s (.session i) (shpAddr (.lane q) 0x6C) .denied)) ∧
  (∀ (s : State) (p : Port) (e : Nat), isUp s = true → s.ing.buf = [] → (shpOf s p).port.entry = some e → e ≤ wheelTick (shpOf s p) →
    Completes (.wheelEntryDue p .port) s fun t =>
      (shpOf t p).port.t = bucketT (shpOf s p).port (wheelTick (shpOf s p)) ∧ (shpOf t p).port.at_ = wheelTick (shpOf s p) ∧
      (0 ≤ bucketT (shpOf s p).port (wheelTick (shpOf s p)) → (shpOf t p).port.entry = none) ∧ (shpOf t p).cls = (shpOf s p).cls ∧
      (∀ q, q ≠ p → shpOf t q = shpOf s q) ∧ t = { s with shp := { s.shp with sets := t.shp.sets } })

/-- An engine request that nothing refuses is queued at its dispatcher in order of acceptance; one that is refused completes with the
first status of R22, and a GATHER or SCATTER that cannot meet its deadline with DEADLINE_MISS. A request's portions are fixed as
the first is placed, and a placed portion is the newest descriptor of its tile. Bytes that a device frame returns are at hand for
their request; the answer to its last write completes it; RETRY sends the frame again; another status ends it. A request with no
tile for 1 ms completes with RETRY, and a progress notice goes out every 200 µs. Rests on R190, R194, R199 to R203, R212, R279,
R351 to R353. -/
def Obligations.EngineRequests : Prop :=
  (∀ (s : State) (q : Quad) (f : Req), ∀ x ∈ [(Instr.tileXfer (.device q) f, f.opcode == Op.tileXfer),
      (.gatherDirect (.device q) f, f.opcode == Op.gather && f.subop == 0), (.gatherIndexed (.device q) f, f.opcode == Op.gather && f.subop == 1),
      (.scatterDirect (.device q) f, f.opcode == Op.scatter && f.subop == 0), (.scatterIndexed (.device q) f, f.opcode == Op.scatter && f.subop == 1),
      (.filter (.device q) f, f.opcode == Op.filter), (.scoreSel (.device q) f, f.opcode == Op.scoreSel),
      (.expand (.device q) f, f.opcode == Op.expand)],
    x.2 = true → isUp s = true → entryStatus s q f none (opBad s f) = none → (f.dlx = false ∨ isGs f = false) →
    Completes x.1 s fun t => (∃ r, t.eng.reqs = s.eng.reqs ++ [r] ∧ r.f = f ∧ r.quad = q ∧ r.no = s.eng.nextNo ∧ r.at_ = s.counter ∧
        r.gen = genTag s f.tenant ∧ r.own = none ∧ r.portions = [] ∧ r.deadline = if f.dlx then some (s.counter + dlBudget f) else none) ∧
      t.eng.nextNo = s.eng.nextNo + 1 ∧ t = { s with eng := t.eng }) ∧
  (∀ (s : State) (q : Quad) (f : Req) (st : Status), ∀ x ∈ [(Instr.tileXfer (.device q) f, f.opcode == Op.tileXfer),
      (.gatherDirect (.device q) f, f.opcode == Op.gather && f.subop == 0), (.gatherIndexed (.device q) f, f.opcode == Op.gather && f.subop == 1),
      (.scatterDirect (.device q) f, f.opcode == Op.scatter && f.subop == 0), (.scatterIndexed (.device q) f, f.opcode == Op.scatter && f.subop == 1),
      (.filter (.device q) f, f.opcode == Op.filter), (.scoreSel (.device q) f, f.opcode == Op.scoreSel),
      (.expand (.device q) f, f.opcode == Op.expand)],
    x.2 = true → isUp s = true → entryStatus s q f none (opBad s f) = some st → (localAt s f.src).isSome = true →
    exec x.1 s = .next { s with out := s.out ++ [replied f st []] }) ∧
  (∀ (s : State) (q : Quad) (f : Req), ∀ x ∈ [(Instr.gatherDirect (.device q) f, f.opcode == Op.gather && f.subop == 0),
      (.gatherIndexed (.device q) f, f.opcode == Op.gather && f.subop == 1), (.scatterDirect (.device q) f, f.opcode == Op.scatter && f.subop == 0),
      (.scatterIndexed (.device q) f, f.opcode == Op.scatter && f.subop == 1)],
    x.2 = true → isUp s = true → entryStatus s q f none (opBad s f) = none → f.dlx = true → (localAt s f.src).isSome = true →
    controlReady s (newReq s q f (genTag s f.tenant) none) = true →
    per (dlBudget f) 1 < estimate s (newReq s q f (genTag s f.tenant) none) → usableAlt s f = none →
    Completes x.1 s fun t => t.out = s.out ++ [replied f .deadlineMiss []] ∧ t.obj.dlMiss = satInc 16 s.obj.dlMiss ∧
      t = { s with obj := { s.obj with dlMiss := t.obj.dlMiss }, out := t.out }) ∧
  (∀ (s : State) (q : Quad) (r : EngReq) (p : Portion) (k : Nat) (tl : TileNo), isUp s = true → s.obj.fills = [] → waitingReqs s q = [r] →
    r.f.opcode ≠ Op.accOpen → waitsOrdered s r = false → (openTiles s (reqQuads r.f)).isEmpty = false → controlReady s r = true →
    r.portions ≠ [] → nextPortion r = some (p, k) → nextTile s r p = some tl → (tileOf s tl).queue.length < 15 →
    Completes (.portionPlace q) s fun t => (tileOf t tl).queue = (tileOf s tl).queue ++ [⟨r.f.src, r.f.tag, k⟩] ∧
      (∃ r' ∈ t.eng.reqs, r'.no = r.no ∧ (r'.portions[k]?).map (·.placed) = some true ∧ tl ∈ r'.tiles) ∧
      (∀ u, u ≠ tl → tileOf t u = tileOf s u) ∧ t = { s with eng := t.eng, pwr := t.pwr }) ∧
  (∀ (s : State) (q : Quad) (r : EngReq) (p : Portion) (k : Nat) (tl : TileNo), isUp s = true → s.obj.fills = [] → waitingReqs s q = [r] →
    r.f.opcode ≠ Op.accOpen → waitsOrdered s r = false → (openTiles s (reqQuads r.f)).isEmpty = false → controlReady s r = true →
    r.portions = [] → r.deadline = none → nextPortion { r with portions := divide s r } = some (p, k) → nextTile s r p = some tl →
    (tileOf s tl).queue.length < 15 →
    Completes (.portionPlace q) s fun t => (tileOf t tl).queue = (tileOf s tl).queue ++ [⟨r.f.src, r.f.tag, k⟩] ∧
      (∃ r' ∈ t.eng.reqs, r'.no = r.no ∧ r'.portions.map (·.runs) = (divide s r).map (·.runs) ∧
        (r'.portions[k]?).map (·.placed) = some true ∧ tl ∈ r'.tiles) ∧
      (∀ u, u ≠ tl → tileOf t u = tileOf s u) ∧ t = { s with eng := t.eng, pwr := t.pwr, out := t.out }) ∧
  (∀ (s : State) (r : EngReq) (a : Addr) (n : Nat) (data : List Byte), isUp s = true → engReq s r.f.src r.f.tag = some r → r.f.src ≠ ownEp s →
    frameAt r.frames a.toNat = some ⟨a.toNat, n, none⟩ → r.closing = false →
    Completes (.deviceFrameComplete r.f.src r.f.tag a .ok data) s fun t =>
      (∃ r' ∈ t.eng.reqs, r'.no = r.no ∧ r'.frames = frameDone r.frames a.toNat ∧
        ∀ k, k < data.length → tget r'.staged (a.toNat + k) = data[k]?) ∧ t = { s with eng := t.eng }) ∧
  (∀ (s : State) (r : EngReq) (a : Addr) (n : Nat) (d data : List Byte), isUp s = true → engReq s r.f.src r.f.tag = some r →
    r.f.src ≠ ownEp s → r.frames = [⟨a.toNat, n, some d⟩] → r.closing = true → r.own = none → r.alt = none → r.f.opcode = Op.expand →
    (localAt s r.f.src).isSome = true →
    Completes (.deviceFrameComplete r.f.src r.f.tag a .ok data) s fun t =>
      t.out = s.out ++ [replied r.f .ok (leBytes r.tiles.length 2 ++ [0, 0] ++ leBytes (min r.sat 0xFFFFFFFF) 4 ++
        slice (leBytes r.countA 4 ++ leBytes r.countB 4) 0 8)] ∧
      (∀ x ∈ t.eng.reqs, x.no ≠ r.no) ∧ t = { s with eng := t.eng, pwr := t.pwr, out := t.out }) ∧
  (∀ (s : State) (r : EngReq) (a : Addr) (x : FarFrame) (data : List Byte), isUp s = true → engReq s r.f.src r.f.tag = some r →
    r.f.src ≠ ownEp s → frameAt r.frames a.toNat = some x →
    exec (.deviceFrameComplete r.f.src r.f.tag a .retry data) s = .next { s with out := s.out ++ [match x.data with
      | some bs => .devWrite ⟨r.f.src, r.f.tag, r.f.tenant, r.f.epoch, true⟩ (BitVec.ofNat 58 x.a) bs
      | none => .devRead ⟨r.f.src, r.f.tag, r.f.tenant, r.f.epoch, true⟩ (BitVec.ofNat 58 x.a) x.n] }) ∧
  (∀ (s : State) (r : EngReq) (a : Addr) (x : FarFrame) (data : List Byte) (st : Status), isUp s = true →
    engReq s r.f.src r.f.tag = some r → r.f.src ≠ ownEp s → frameAt r.frames a.toNat = some x → r.own = none →
    (st ∈ [Status.denied, .revoked, .notOwner, .remap, .pathLost, .aborted] ∨ (st = .poison ∧ usableAlt s r.f = none)) → (localAt s r.f.src).isSome = true →
    Completes (.deviceFrameComplete r.f.src r.f.tag a st data) s fun t => t.out = s.out ++ [replied r.f st []] ∧
      (∀ x ∈ t.eng.reqs, x.no ≠ r.no) ∧ t = { s with eng := t.eng, pwr := t.pwr, out := t.out }) ∧
  (∀ (s : State) (r : EngReq), isUp s = true → engReq s r.f.src r.f.tag = some r → r.own = none → (localAt s r.f.src).isSome = true →
    r.at_ + 1000 ≤ s.counter → unplaced r = true → waitsOrdered s r = false → openTiles s (reqQuads r.f) = [] →
    Completes (.dispatchRetryTimeout r.f.src r.f.tag) s fun t => t.out = s.out ++ [replied r.f .retry []] ∧
      (∀ x ∈ t.eng.reqs, x.no ≠ r.no) ∧ t = { s with eng := t.eng, pwr := t.pwr, out := t.out }) ∧
  (∀ (s : State) (r : EngReq) (d : DevId), isUp s = true → engReq s r.f.src r.f.tag = some r → r.notice + 200 ≤ s.counter →
    epDev s r.f.src = some d →
    Completes (.progressNoticeSend r.f.src r.f.tag) s fun t => t.out = s.out ++ [.notice d (.progress r.f.src r.f.tag)] ∧
      (∃ r' ∈ t.eng.reqs, r' = { r with notice := s.counter }) ∧ t = { s with eng := t.eng, out := t.out })

/-- A TILE_XFER's descriptor copies every 64-byte run of its source to its destination and nothing else in the stacks, and completes
its request; any other portion makes the writes of its operation and keeps its list and its saturation events. The expand unit
takes a block from the smoothing queue once it is whole and passes its checks, waits while it is not whole, and has an item that
fails read again, or waits for the tile that does; the re-read bytes let the tile go on when they pass, and otherwise mark the
object damaged and end the request with FORMAT. Rests on R171, R195, R205, R206, R212, R316 to R322, Table 7.5. -/
def Obligations.EngineWork : Prop :=
  (∀ (s : State) (tl : TileNo) (r : EngReq) (p : Portion), isUp s = true → running_ s tl = some (r, 0, p) → r.f.opcode = Op.tileXfer →
    xferOk r.f = true → r.portions.length = 1 → r.staged = [] → r.frames = [] → r.own = none → s.err.arm = false → s.err.sticky = [] →
    Memory.wf s.mem = true → r.f.src ≠ ownEp s → (localAt s r.f.src).isSome = true → replicaOn s tl (portionRuns s r p) = none →
    (∀ n j, n < 64 * xferCount r.f → j < 64 → inT1 s (xferSrc r.f + n * xferSrcPitch r.f + j) = true ∧
      inT1 s (xferDst r.f + n * xferDstPitch r.f + j) = true) →
    runsCheck s r false (portionRuns s r p) = none →
    (∀ n, n < 64 * xferCount r.f → runWriteCheck s r (xferDst r.f + n * xferDstPitch r.f, 64) = none) →
    Completes (.descriptorComplete tl) s fun t =>
      (∀ n j, n < 64 * xferCount r.f → j < 64 →
        t1View t (xferDst r.f + n * xferDstPitch r.f + j) = t1View s (xferSrc r.f + n * xferSrcPitch r.f + j)) ∧
      (∀ a, inT1 s a = true → (∀ n, n < 64 * xferCount r.f → ¬ (xferDst r.f + n * xferDstPitch r.f ≤ a ∧ a < xferDst r.f + n * xferDstPitch r.f + 64)) →
        t1View t a = t1View s a) ∧
      (∀ x ∈ t.eng.reqs, x.no ≠ r.no) ∧ t.out = s.out ++ [replied r.f .ok []] ∧ t = { s with eng := t.eng, pwr := t.pwr, mem := t.mem, out := t.out }) ∧
  (∀ (s s' : State) (tl : TileNo) (r r1 : EngReq) (k j : Nat) (p : Portion) (e : Effect), isUp s = true → running_ s tl = some (r, k, p) →
    s.err.arm = false → s.err.sticky = [] → replicaOn s tl (portionRuns s r p) = none → expanding r = false → portionReady s r p = true →
    runsCheck s r false (portionIndexRuns r p) = none → runsCheck s r false (portionRuns s r p) = none →
    portionEffect s (engByte s r) r p = e → engWrites s e.req e.writes = (s', r1, none) → j ≠ k →
    (r.portions[j]?).map (·.done) = some false →
    Completes (.descriptorComplete tl) s fun t => (tileOf t tl).queue = (tileOf s tl).queue.drop 1 ∧
      (∃ r' ∈ t.eng.reqs, r'.no = r.no ∧ r'.sat = r.sat + e.sat ∧ r'.countA = e.req.countA ∧ r'.passes = e.req.passes ∧
        (r'.portions[k]?).map (fun x => (x.done, x.best)) = some (true, e.best)) ∧
      t.eng.satTotal = satAdd 32 s.eng.satTotal e.sat ∧ t = { s' with eng := t.eng, pwr := t.pwr }) ∧
  (∀ (s : State) (tl : TileNo) (r : EngReq) (k : Nat) (p : Portion) (z : ZskRun) (x : Nat × Nat) (i : Nat) (y : Nat × List Byte) (n : Nat),
    Expands s tl r k p z x i y → blockCheck s r x i y = .passes n →
    Completes (.zskBlockExpand tl) s fun t =>
      (tileOf t tl) = (if i + 1 = x.2 then { tileOf s tl with zsk := some { z with blocks := z.blocks + 1, filled := 0 }, smooth := [] }
        else { tileOf s tl with zsk := some { z with blocks := z.blocks + 1, filled := y.1 }, smooth := y.2.drop n }) ∧
      (∀ u, u ≠ tl → tileOf t u = tileOf s u) ∧ t = { s with eng := { s.eng with tiles := t.eng.tiles } }) ∧
  (∀ (s : State) (tl : TileNo) (r : EngReq) (k : Nat) (p : Portion) (z : ZskRun) (x : Nat × Nat) (i : Nat) (y : Nat × List Byte),
    Expands s tl r k p z x i y → blockCheck s r x i y = .stall →
    Completes (.zskBlockExpand tl) s fun t => tileOf t tl = { tileOf s tl with zsk := some { z with filled := y.1 }, smooth := y.2 } ∧
      (∀ u, u ≠ tl → tileOf t u = tileOf s u) ∧ t.eng.zskStall = satInc 32 s.eng.zskStall ∧
      t = { s with eng := { s.eng with tiles := t.eng.tiles, zskStall := t.eng.zskStall } }) ∧
  (∀ (s : State) (tl : TileNo) (r : EngReq) (k : Nat) (p : Portion) (z : ZskRun) (x : Nat × Nat) (i : Nat) (y : Nat × List Byte) (e : ZskItem),
    Expands s tl r k p z x i y → blockCheck s r x i y = .fails e →
    Completes (.zskBlockExpand tl) s fun t => tileOf t tl = { tileOf s tl with
        zsk := some { z with filled := y.1, reread := if rereadPending s tl r e then .follows e else .asked e }, smooth := y.2 } ∧
      (∀ u, u ≠ tl → tileOf t u = tileOf s u) ∧ t = { s with eng := { s.eng with tiles := t.eng.tiles } }) ∧
  (∀ (s : State) (tl : TileNo) (r : EngReq) (k : Nat) (p : Portion) (e : ZskItem) (bytes : List Byte), Rereads s tl r k p e →
    rereadTiles s tl r e = [tl] → zskItemOk (engByte s (withItem s r e bytes)) (readTensor r) e = true →
    Completes (.zskRereadResult tl bytes) s fun t => rereadOf (tileOf t tl) = .none ∧ zskDone t tl = zskDone s tl ∧
      (tileOf t tl).smooth = [] ∧ (tileOf t tl).queue = (tileOf s tl).queue ∧ (∀ u, u ≠ tl → tileOf t u = tileOf s u) ∧
      t.eng.zskRecovered = satInc 16 s.eng.zskRecovered ∧
      (∃ r' ∈ t.eng.reqs, r' = { withItem s r e bytes with countB := r.countB + 1 }) ∧ t = { s with eng := t.eng }) ∧
  (∀ (s : State) (tl : TileNo) (r : EngReq) (k : Nat) (p : Portion) (e : ZskItem) (bytes : List Byte) (oid : Oid) (o : Obj),
    Rereads s tl r k p e → s.eng.reqs = [r] → zskItemOk (engByte s (withItem s r e bytes)) (readTensor r) e = false →
    s.obj.tab = [(oid, o)] → r.own = none → objHolds o (readTensor r).base = true → o.damaged = false → s.err.log = [] →
    (localAt s r.f.src).isSome = true →
    Completes (.zskRereadResult tl bytes) s fun t => t.obj.tab = [(oid, { o with damaged := true })] ∧ OneRecord t 8 (.oid oid) ∧
      t.eng.zskDamaged = satInc 16 s.eng.zskDamaged ∧ t.out = s.out ++ [replied r.f .format []] ∧ t.eng.reqs = [] ∧
      t = { s with eng := t.eng, pwr := t.pwr, obj := { s.obj with tab := t.obj.tab }, err := t.err, out := t.out })

/-- Clearing an enable bit ends the queued requests that need the function, and the reads that have yet to expand, with FUNC_OFF, and
drains those in flight, which end with ABORTED at the end of DRAIN_US; setting it again cancels that end. T0_UNITS takes 0 to 23
while no object is in the tile's tier-0 area, and is DENIED otherwise. Rests on R172, R210, R211, R214, R324, Table 4.10. -/
def Obligations.EngineFunctions : Prop :=
  (∀ (s : State) (i : BitVec 3) (fn : EngFn) (r : EngReq), Operator s i → fn ∈ s.eng.enabled → s.eng.reqs = [r] → fn ∈ needsFns r.f →
    r.started = false → roundsActive s = false → s.obj.reads = [] → r.own = none → (localAt s r.f.src).isSome = true →
    Completes (.funcDisable (.session i) fn) s fun t => fn ∉ t.eng.enabled ∧ (∀ g, g ≠ fn → (g ∈ t.eng.enabled ↔ g ∈ s.eng.enabled)) ∧
      t.eng.reqs = [] ∧ t.out = answered (emit s (replied r.f .funcOff [])) (.session i) (mgmtAddr blkEng 0x04) .ok ∧
      t = { s with eng := t.eng, pwr := t.pwr, mg := t.mg, out := t.out }) ∧
  (∀ (s : State) (i : BitVec 3) (x : ObjRead), Operator s i → .expand ∈ s.eng.enabled → s.eng.reqs = [] → s.obj.reads = [x] →
    (byteAt x.f.payload 20).getLsbD 0 = true → x.useAlt = false → x.done = none → (localAt s x.f.src).isSome = true →
    Completes (.funcDisable (.session i) .expand) s fun t => .expand ∉ t.eng.enabled ∧ t.obj.reads = [] ∧
      t.out = answered (emit s (replied x.f .funcOff [])) (.session i) (mgmtAddr blkEng 0x04) .ok ∧
      t = { s with eng := t.eng, obj := { s.obj with reads := [] }, mg := t.mg, out := t.out }) ∧
  (∀ (s : State) (i : BitVec 3) (fn : EngFn) (r : EngReq), Operator s i → fn ∈ s.eng.enabled → s.eng.reqs = [r] → fn ∈ needsFns r.f →
    inFlight r = true → (fn ≠ .expand ∨ s.obj.reads = []) →
    Completes (.funcDisable (.session i) fn) s fun t => fn ∉ t.eng.enabled ∧ (fn, some s.counter) ∈ t.eng.draining ∧ t.eng.reqs = [r] ∧
      t.out = answered s (.session i) (mgmtAddr blkEng 0x04) .ok ∧ t = { s with eng := t.eng, mg := t.mg, out := t.out }) ∧
  (∀ (s : State) (i : BitVec 3) (fn : EngFn), Operator s i → fn ∉ s.eng.enabled →
    Completes (.funcEnable (.session i) fn) s fun t => t.eng.enabled = s.eng.enabled ++ [fn] ∧
      (∀ x ∈ t.eng.draining, x.1 = fn → x.2 = none) ∧ (∀ x, x.1 ≠ fn → (x ∈ t.eng.draining ↔ x ∈ s.eng.draining)) ∧
      t.out = answered s (.session i) (mgmtAddr blkEng 0x04) .ok ∧
      t = { s with eng := { s.eng with enabled := t.eng.enabled, draining := t.eng.draining }, mg := t.mg, out := t.out }) ∧
  (∀ (s : State) (fn : EngFn) (r : EngReq) (t0 : Nat), isUp s = true → roundsActive s = false → s.eng.draining = [(fn, some t0)] →
    t0 + max 10 s.eng.drainUs.toNat ≤ s.counter → s.eng.reqs = [r] → fn ∈ needsFns r.f → inFlight r = true → r.own = none →
    (localAt s r.f.src).isSome = true →
    Completes (.funcDrainTimeout fn) s fun t => t.eng.draining = [] ∧ t.eng.reqs = [] ∧ fn ∈ t.eng.abortedSeen ∧
      t.out = s.out ++ [replied r.f .aborted []] ∧ t = { s with eng := t.eng, pwr := t.pwr, out := t.out }) ∧
  (∀ (s : State) (fn : EngFn), isUp s = true → s.eng.draining = [(fn, none)] → exec (.funcDrainTimeout fn) s = .next s) ∧
  (∀ (s : State) (i : BitVec 3) (tl : TileNo) (v : Word), Operator s i → bitsOf v.toNat 0 5 ≤ 23 →
    (∀ e ∈ s.obj.tab, ∀ x ∈ e.2.t0tiles, x.tile ≠ tl) →
    Completes (.tileT0Write (.session i) tl v) s fun t => (tileOf t tl).t0 = bitsOf v.toNat 0 5 ∧ (∀ u, u ≠ tl → tileOf t u = tileOf s u) ∧
      t.out = answered s (.session i) (mgmtAddr blkEng (0x1000 + 0x10 * tl.toNat)) .ok ∧ t = { s with eng := t.eng, mg := t.mg, out := t.out }) ∧
  (∀ (s : State) (i : BitVec 3) (tl : TileNo) (v : Word), Operator s i →
    (23 < bitsOf v.toNat 0 5 ∨ ∃ e ∈ s.obj.tab, ∃ x ∈ e.2.t0tiles, x.tile = tl) →
    exec (.tileT0Write (.session i) tl v) s = .next (respondOne s (.session i) (mgmtAddr blkEng (0x1000 + 0x10 * tl.toNat)) .denied))

/-- An ACC_OPEN waits at its dispatcher for its tiles, and with the last of them a root is open and its opener has the handle, and a
child asks its parent. The first start of a round makes it active and is told its window; a start of the next round is answered
with RETRY, one with a handle that names no accord with DENIED. A child is bound once its parent's answer arrives; a refusal or
800 µs without one frees it. ACC_CLOSE by the opener, and an idle accord's timer, free the slot, and its generation advances.
Rests on R220 to R230, R251, R256 to R258. -/
def Obligations.AccordsOpenAndClose : Prop :=
  (∀ (s : State) (q : Quad) (f : Req), isUp s = true → f.opcode = Op.accOpen → accOpenBad f = false → f.dlx = false →
    isRemoving s f.tenant = false → fnsOn s f = true → (freeAccSlot s).isSome = true → membersUsed s + accMembers f ≤ 262144 →
    entryStatus s q f none (opBad s f) = none →
    Completes (.accOpen (.device q) f) s fun t => (∃ r, t.eng.reqs = s.eng.reqs ++ [r] ∧ r.f = f ∧ r.quad = q ∧ r.no = s.eng.nextNo) ∧
      t.acc = s.acc ∧ t = { s with eng := t.eng }) ∧
  (∀ (s : State) (q : Quad) (r : EngReq) (n : BitVec 12) (tl : TileNo), isUp s = true → s.obj.fills = [] → waitingReqs s q = [r] →
    r.f.opcode = Op.accOpen → waitsOrdered s r = false → r.tiles.length + 1 = r.portions.length →
    (∀ k x, r.portions[k]? = some x → k ≠ r.tiles.length → x.placed = true) → (openTiles s (reqQuads r.f)).isEmpty = false →
    accTile s r = some tl → freeAccSlot s = some n → membersUsed s + accMembers r.f ≤ 262144 → accParent r.f = 0 → r.own = none →
    (localAt s r.f.src).isSome = true →
    Completes (.portionPlace q) s fun t => (accOf t n).state = .idle ∧ (accOf t n).gen = (accOf s n).gen ∧ (accOf t n).opener = r.f.src ∧
      (accOf t n).tenant = r.f.tenant ∧ (accOf t n).members.map (·.ep) = accList r.f ∧ (accOf t n).allotted = r.tiles.length + 1 ∧
      (accOf t n).tiles = (r.tiles ++ [tl]).insertionSort (· ≤ ·) ∧ (accOf t n).bound = true ∧
      (accOf t n).nextRound = 0 ∧ OtherAccords s t n ∧ (∀ x ∈ t.eng.reqs, x.no ≠ r.no) ∧
      t.out = s.out ++ [replied r.f .ok (engRecord (r.tiles.length + 1) 0 (leBytes (accHandle s n).toNat 4))] ∧
      t = { s with acc := t.acc, eng := t.eng, pwr := t.pwr, out := t.out }) ∧
  (∀ (s : State) (q : Quad) (r : EngReq) (n : BitVec 12) (tl : TileNo), isUp s = true → s.obj.fills = [] → waitingReqs s q = [r] →
    r.f.opcode = Op.accOpen → waitsOrdered s r = false → r.tiles.length + 1 = r.portions.length →
    (∀ k x, r.portions[k]? = some x → k ≠ r.tiles.length → x.placed = true) → (openTiles s (reqQuads r.f)).isEmpty = false →
    accTile s r = some tl → freeAccSlot s = some n → membersUsed s + accMembers r.f ≤ 262144 → accParent r.f ≠ 0 →
    Completes (.portionPlace q) s fun t => (accOf t n).state = .idle ∧ (accOf t n).bound = false ∧ (accOf t n).bindAt = s.counter ∧
      (accOf t n).members.map (·.ep) = accList r.f ∧ OtherAccords s t n ∧ (∃ r' ∈ t.eng.reqs, r'.no = r.no ∧ r'.started = true) ∧
      t.out = s.out ++ [.notice ((accParent r.f).extractLsb' 26 6) (.binding ⟨accParent r.f, accParentMember r.f, accHandle s n, accOp r.f,
        BitVec.ofNat 2 (accEtype r.f), accElemBytes r.f⟩)] ∧ t = { s with acc := t.acc, eng := t.eng, pwr := t.pwr, out := t.out }) ∧
  (∀ (s : State) (q : Quad) (f : Req) (n : BitVec 12) (m : MemberRec) (d : DevId), isUp s = true → f.opcode = Op.accContrib → f.subop = 0 →
    accNamed s (BitVec.ofNat 32 (leAt f.payload 16 4)) = some n → (accOf s n).state = .idle → (accOf s n).bound = true →
    (accOf s n).parent = 0 → f.tenant = (accOf s n).tenant →
    (accOf s n).members[bitsOf (leAt f.payload 20 2) 0 10]? = some m → m.ep = f.src → bitsOf (leAt f.payload 20 2) 10 6 = 0 →
    zerosAt f.payload 24 8 = true → hdrTiles f = 0 → hdrQmask f = 0 → hdrOrdered f = false →
    BitVec.ofNat 16 (leAt f.payload 22 2) = (accOf s n).nextRound → isRemoving s f.tenant = false → fnsOn s f = true → epDev s m.ep = some d →
    Completes (.accStart (.device q) f) s fun t => (accOf t n).state = .active ∧ (accOf t n).roundAt = s.counter ∧
      (accOf t n).nextRound = (accOf s n).nextRound ∧
      ((accOf t n).members[bitsOf (leAt f.payload 20 2) 0 10]?).map (fun x => (x.ep, x.startTag, x.expected)) = some (f.src, some f.tag, 0) ∧
      OtherAccords s t n ∧ (∃ w : WinNote, t.out = s.out ++ [.notice d (.window f.src f.tag w)] ∧ w.w = (accOf s n).window ∧
        w.b = (accOf s n).b ∧ w.round = (accOf s n).nextRound) ∧
      t = { s with acc := t.acc, eng := t.eng, out := t.out }) ∧
  (∀ (s : State) (q : Quad) (f : Req), isUp s = true → f.opcode = Op.accContrib → f.subop = 0 →
    accNamed s (BitVec.ofNat 32 (leAt f.payload 16 4)) = none → (localAt s f.src).isSome = true →
    exec (.accStart (.device q) f) s = .next { s with out := s.out ++ [replied f .denied []] }) ∧
  (∀ (s : State) (q : Quad) (f : Req) (n : BitVec 12) (m : MemberRec), isUp s = true → f.opcode = Op.accContrib → f.subop = 0 →
    accNamed s (BitVec.ofNat 32 (leAt f.payload 16 4)) = some n → (accOf s n).state = .active → (accOf s n).bound = true →
    f.tenant = (accOf s n).tenant → (accOf s n).members[bitsOf (leAt f.payload 20 2) 0 10]? = some m → m.ep = f.src →
    bitsOf (leAt f.payload 20 2) 10 6 = 0 → zerosAt f.payload 24 8 = true → hdrTiles f = 0 → hdrQmask f = 0 → hdrOrdered f = false →
    BitVec.ofNat 16 (leAt f.payload 22 2) = (accOf s n).nextRound + 1 → isRemoving s f.tenant = false → fnsOn s f = true →
    (localAt s f.src).isSome = true →
    exec (.accStart (.device q) f) s = .next { s with out := s.out ++ [replied f .retry []] }) ∧
  (∀ (s : State) (d : DevId) (b : Binding) (n : BitVec 12) (m : MemberRec), isUp s = true → accNamed s b.parent = some n →
    (accOf s n).members[b.member.toNat]? = some m → ownEpOf s d = some m.ep → (accOf s n).op = b.op → (accOf s n).etype = b.etype →
    (accOf s n).elemBytes = b.elemBytes → (accOf s n).depth ≤ 3 → m.child = none → (accOf s n).bound = true →
    Completes (.accBindingNotice d b) s fun t => (accOf t n).members[b.member.toNat]? = some { m with child := some b.child } ∧
      OtherAccords s t n ∧ t.out = s.out ++ [.notice d (.bindAnswer b.child true (accOf s n).depth)] ∧ t = { s with acc := t.acc, out := t.out }) ∧
  (∀ (s : State) (d : DevId) (b : Binding), isUp s = true → accNamed s b.parent = none →
    exec (.accBindingNotice d b) s = .next { s with out := s.out ++ [.notice d (.bindAnswer b.child false 0)] }) ∧
  (∀ (s : State) (n : BitVec 12) (depth : Nat) (r : EngReq), isUp s = true → Opening s n r →
    Completes (.accBindingAnswer n true depth) s fun t => accOf t n = { accOf s n with bound := true, depth := depth + 1 } ∧ OtherAccords s t n ∧
      (∀ x ∈ t.eng.reqs, x.no ≠ r.no) ∧
      t.out = s.out ++ [replied r.f .ok (engRecord (accOf s n).allotted 0 (leBytes (accHandle s n).toNat 4))] ∧
      t = { s with acc := t.acc, eng := t.eng, pwr := t.pwr, out := t.out }) ∧
  (∀ (s : State) (n : BitVec 12) (depth : Nat) (r : EngReq), isUp s = true → Opening s n r →
    Completes (.accBindingAnswer n false depth) s fun t => SlotFreed s t n ∧ OtherAccords s t n ∧ (∀ x ∈ t.eng.reqs, x.no ≠ r.no) ∧
      t.out = s.out ++ [replied r.f .denied []] ∧ t = { s with acc := t.acc, eng := t.eng, pwr := t.pwr, out := t.out }) ∧
  (∀ (s : State) (n : BitVec 12) (r : EngReq), isUp s = true → Opening s n r → (accOf s n).bindAt + 800 ≤ s.counter →
    Completes (.accBindingTimeout n) s fun t => SlotFreed s t n ∧ OtherAccords s t n ∧ (∀ x ∈ t.eng.reqs, x.no ≠ r.no) ∧
      t.out = s.out ++ [replied r.f .pathLost []] ∧ t = { s with acc := t.acc, eng := t.eng, pwr := t.pwr, out := t.out }) ∧
  (∀ (s : State) (q : Quad) (f : Req) (n : BitVec 12), isUp s = true → f.opcode = Op.accClose →
    accNamed s (BitVec.ofNat 32 (leAt f.payload 16 4)) = some n → (accOf s n).state = .idle → f.src = (accOf s n).opener →
    f.tenant = (accOf s n).tenant → zerosAt f.payload 20 12 = true → hdrTiles f = 0 → hdrQmask f = 0 → hdrOrdered f = false →
    (localAt s f.src).isSome = true →
    Completes (.accClose (.device q) f) s fun t => SlotFreed s t n ∧ OtherAccords s t n ∧
      t.out = s.out ++ [replied f .ok (engRecord (accOf s n).allotted 0 [])] ∧ t = { s with acc := t.acc, out := t.out }) ∧
  (∀ (s : State) (n : BitVec 12), isUp s = true → (accOf s n).state = .idle → (accOf s n).bound = true →
    (accOf s n).idleSince + 1000 * (accOf s n).idleMs ≤ s.counter →
    Completes (.accIdleTimeout n) s fun t => SlotFreed s t n ∧ OtherAccords s t n ∧ t = { s with acc := t.acc })

/-- The segment a member is expected to send next is added to every stripe it fills, and one that belongs to no start is discarded and
counted. A stripe that every live member has reached completes; with the last segment of a root every member still in the round
completes with OK and the round's record, and the accord is idle. A child passes its parent's results to its members. A member
silent for STALL_US fails with PATH_LOST, and without ON_FAIL the round ends with ABORTED, as it does on an abort notice. Window
notices are held at the member's ingress while their start stands there, reports at the parent; an abort notice for a round that
has not begun takes the accord past it; a refused write of RESULT ends the round with its status. Rests on R231 to R237, R240 to
R254. -/
def Obligations.AccordRounds : Prop :=
  (∀ (s : State) (f : Req) (n : BitVec 12) (i : Nat) (m : MemberRec), isUp s = true → segmentOf s f = some (n, i, m) →
    (accOf s n).members[i]? = some m → m.failed = false → m.done = false → m.expected < accSegs (accOf s n) →
    f.addr.toNat / 65536 = m.expected → f.len.toNat = segLen (accOf s n) m.expected →
    Completes (.accSegment f) s fun t => (accOf t n).members[i]? = some { m with expected := m.expected + 1, last := s.counter } ∧
      (accOf t n).stripes = (addSegment s (accOf s n) i m.expected f.payload).stripes ∧
      (accOf t n).sat = (addSegment s (accOf s n) i m.expected f.payload).sat ∧ OtherAccords s t n ∧ t = { s with acc := t.acc }) ∧
  (∀ (s : State) (f : Req), isUp s = true → segmentOf s f = none →
    Completes (.accSegment f) s fun t => t.acc = { s.acc with stray := satInc 32 s.acc.stray } ∧ t = { s with acc := t.acc }) ∧
  (∀ (s : State) (n : BitVec 12) (k j : Nat) (x : Stripe), isUp s = true → (accOf s n).state = .active → k < accSegs (accOf s n) →
    j < segStripes (accOf s n) k → (accOf s n).b ≤ k → (accOf s n).b < accSegs (accOf s n) →
    (accOf s n).stripes.find? (fun y => y.seg == k && y.stripe == j) = some x →
    ((accOf s n).members.zipIdx.all fun m => m.1.failed || x.arrived.contains m.2) = true →
    (∃ i, i < segStripes (accOf s n) (accOf s n).b ∧ ¬ ((accOf s n).b = k ∧ i = j) ∧
      ∀ y ∈ (accOf s n).stripes, ¬ (y.seg = (accOf s n).b ∧ y.stripe = i ∧ y.done = true)) →
    Completes (.accStripeComplete n k j) s fun t =>
      accOf t n = { accOf s n with stripes := modWhere (accOf s n).stripes (fun y => y.seg == k && y.stripe == j) fun y => { y with done := true } } ∧
      OtherAccords s t n ∧ t = { s with acc := t.acc }) ∧
  (∀ (s : State) (n : BitVec 12) (j : Nat) (x : Stripe), isUp s = true → (accOf s n).state = .active → accSegs (accOf s n) = 1 →
    (accOf s n).b = 0 → j < segStripes (accOf s n) 0 → (accOf s n).stripes.find? (fun y => y.seg == 0 && y.stripe == j) = some x →
    ((accOf s n).members.zipIdx.all fun m => m.1.failed || x.arrived.contains m.2) = true →
    (∀ i, i < segStripes (accOf s n) 0 → i ≠ j → ∃ y ∈ (accOf s n).stripes, y.seg = 0 ∧ y.stripe = i ∧ y.done = true) →
    (accOf s n).parent = 0 → (accOf s n).result = none → (accOf s n).writes = [] → (∀ m ∈ (accOf s n).members, m.child = none ∧ m.report = none ∧ (localAt s m.ep).isSome = true) →
    Completes (.accStripeComplete n 0 j) s fun t => RoundOver s t n ∧ OtherAccords s t n ∧ t.mem = s.mem ∧
      ∃ rep : Report, rep.lost = ((accOf s n).members.filter (·.failed)).length ∧
        ∀ m ∈ (accOf s n).members, ∀ tag, m.startTag = some tag → m.done = false → m.failed = false →
          startAnswer s (accOf s n) m tag .ok (startRecord (accOf s n) rep) ∈ t.out) ∧
  (∀ (s : State) (f : Req) (n : BitVec 12), isUp s = true → n = f.tag.setWidth 12 → (accOf s n).state = .active → (accOf s n).parent ≠ 0 →
    ownEpOf s ((accOf s n).parent.extractLsb' 26 6) = some f.src → (accOf s n).deliver ≠ 2 → (accOf s n).result = none →
    (∀ m ∈ (accOf s n).members, ∃ q, localAt s m.ep = some (.lane q) ∧ outputUp s (.lane q) = true) →
    Completes (.accResult f) s fun t => t.swc.land.map (·.f) = s.swc.land.map (·.f) ++ ((accOf s n).members.filter inRound).map (fun m =>
        .req (accFrame s (accOf s n) 0xF2 0 m.ep (m.startTag.getD 0) m.cls (f.addr.toNat / 65536) f.payload)) ∧
      t = { s with swc := t.swc }) ∧
  (∀ (s : State) (h : Word) (n : BitVec 12) (i : BitVec 10) (r : Report) (m : MemberRec), isUp s = true → accNamed s h = some n →
    (accOf s n).state = .active → (accOf s n).members[i.toNat]? = some m → (accOf s n).b < accSegs (accOf s n) →
    Completes (.accReport h i (accOf s n).nextRound r) s fun t => (accOf t n).members[i.toNat]? = some { m with report := some r } ∧
      OtherAccords s t n ∧ t = { s with acc := t.acc }) ∧
  (∀ (s : State) (n : BitVec 12) (i : BitVec 10) (m : MemberRec) (tag : Tag), isUp s = true → (accOf s n).state = .active →
    (accOf s n).members[i.toNat]? = some m → m.startTag = some tag → m.failed = false → m.done = false →
    m.expected < accSegs (accOf s n) → max (accOf s n).roundAt m.last + (accOf s n).stallUs ≤ s.counter → (accOf s n).onFail = false →
    (∀ x ∈ (accOf s n).members, (localAt s x.ep).isSome = true) →
    Completes (.accStallTimeout n i) s fun t => RoundOver s t n ∧ OtherAccords s t n ∧ startAnswer s (accOf s n) m tag .pathLost [] ∈ t.out ∧
      (∀ k, ∀ x, (accOf s n).members[k]? = some x → k ≠ i.toNat → ∀ u, x.startTag = some u → x.done = false → x.failed = false →
        startAnswer s (accOf s n) x u .aborted [] ∈ t.out) ∧ t = { s with acc := t.acc, eng := t.eng, out := t.out }) ∧
  (∀ (s : State) (h : Word) (n : BitVec 12), isUp s = true → accNamed s h = some n → (accOf s n).state = .active →
    (∀ x ∈ (accOf s n).members, (localAt s x.ep).isSome = true) →
    Completes (.accAbortNotice h (accOf s n).nextRound) s fun t => RoundOver s t n ∧ OtherAccords s t n ∧
      (∀ x ∈ (accOf s n).members, ∀ u, x.startTag = some u → x.done = false → x.failed = false →
        startAnswer s (accOf s n) x u .aborted [] ∈ t.out) ∧ t = { s with acc := t.acc, eng := t.eng, out := t.out }) ∧
  (∀ (s : State) (h : Word) (n : BitVec 12), isUp s = true → accNamed s h = some n → (accOf s n).state = .idle → (accOf s n).parent = 0 →
    (∀ m ∈ (accOf s n).members, m.child = none) →
    Completes (.accAbortNotice h (accOf s n).nextRound) s fun t => accOf t n = { accOf s n with nextRound := (accOf s n).nextRound + 1 } ∧
      OtherAccords s t n ∧ t = { s with acc := t.acc }) ∧
  (∀ (s : State) (src : Ep) (tag : Tag) (a : Addr) (n : BitVec 12) (x : FarFrame) (data : List Byte) (st : Status), isUp s = true →
    src ≠ ownEp s → engReq s src tag = none → s.obj.reads = [] → accWriting s src tag a = some (n, x) → (accOf s n).state = .active →
    st ∈ [Status.denied, .revoked, .notOwner, .remap, .pathLost] → (∀ x ∈ (accOf s n).members, (localAt s x.ep).isSome = true) →
    Completes (.deviceFrameComplete src tag a st data) s fun t => RoundOver s t n ∧ OtherAccords s t n ∧
      (∀ x ∈ (accOf s n).members, ∀ u, x.startTag = some u → x.done = false → x.failed = false →
        startAnswer s (accOf s n) x u st [] ∈ t.out) ∧ t = { s with acc := t.acc, eng := t.eng, out := t.out }) ∧
  (∀ (s : State) (e : Ep) (tag : Tag) (w : WinNote), isUp s = true → windowFits s e tag w = false →
    exec (.accWindowNotice e tag w) s = .next s) ∧
  (∀ (s : State) (e : Ep) (tag : Tag) (w : WinNote), isUp s = true → windowFits s e tag w = true → e ≠ ownEp s → s.ing.buf = [] →
    Completes (.accWindowNotice e tag w) s fun t => tget t.acc.wins (e, tag) = some w ∧
      (∀ k, k ≠ (e, tag) → tget t.acc.wins k = tget s.acc.wins k) ∧ t = { s with acc := { s.acc with wins := t.acc.wins } })

/-- CREATE makes an object of the command data under the next serial, in the lowest free frames for home tier 1, counted against its
tenant's limit, and waits for a SERIAL record where the serial is not yet safe; past a limit it is QUOTA, without room NO_SLOT,
and with a descriptor that R334 refuses DENIED; SET_ALT registers the alternate; DELETE takes the object from new requests' sight,
ends its plans, and writes a DELETE record for one of home tier 3 once no read of it runs; QUERY returns the 64 bytes of the
descriptor. Each is DENIED for another tenant's object or a tenant that is REMOVING, and once drydown began RETRY unless a code of
R22 before it applies, and then changes nothing else. Rests on R331, R333, R334, R336, R338 to R340, R410, Table 10.2 step 2. -/
def Obligations.ObjectCommands : Prop :=
  (∀ (s u : State) (i : BitVec 3) (ten : TenantId) (o : Obj) (a : Nat), ObjReady s i → isRemoving s ten = false → dryingDown s = false →
    descOf (dataOf s i) ten = o → descBad (dataOf s i) o = false → o.tier = 1 → quotaRoom s ten 1 (ceilDiv o.size 4096) = true →
    s.obj.tab.length < 1048576 → s.obj.nextSerial < 2 ^ 34 → (s.ftl.state ≠ .online ∨ s.obj.nextSerial < serialFloor s) →
    allocRange s (devId s ++ BitVec.ofNat 34 s.obj.nextSerial) o.stackMask o.size = some (u, a) →
    Completes (.create (.session i) ten) s fun t =>
      tget t.obj.tab (devId s ++ BitVec.ofNat 34 s.obj.nextSerial) = some { o with addr := a } ∧
      OtherObjects s t (devId s ++ BitVec.ofNat 34 s.obj.nextSerial) ∧ t.obj.pages = u.obj.pages ∧
      t.obj.nextSerial = s.obj.nextSerial + 1 ∧ quotaUse t ten 1 = quotaUse s ten 1 + ceilDiv o.size 4096 ∧
      (∀ x y, (x, y) ≠ (ten, 1) → quotaUse t x y = quotaUse s x y) ∧
      (∀ k : Nat, k < 2 → tgetD (privOf t (.session i)).objData (BitVec.ofNat 4 k) 0 =
        BitVec.ofNat 32 ((devId s ++ BitVec.ofNat 34 s.obj.nextSerial : Oid).toNat / 2 ^ (32 * k))) ∧
      ObjAnswered s t i .ok ∧ t = { s with
        obj := t.obj, ftl := { s.ftl with media := { s.ftl.media with serial := t.ftl.media.serial } }, mg := t.mg, out := t.out }) ∧
  (∀ (s : State) (i : BitVec 3) (ten : TenantId) (o : Obj), ObjReady s i → isRemoving s ten = false → dryingDown s = false →
    descOf (dataOf s i) ten = o → descBad (dataOf s i) o = false → o.tier = 2 → quotaRoom s ten 2 (ceilDiv o.size (2 ^ 20)) = true →
    s.obj.tab.length < 1048576 → s.obj.nextSerial < 2 ^ 34 → (s.ftl.state ≠ .online ∨ s.obj.nextSerial < serialFloor s) →
    Completes (.create (.session i) ten) s fun t => tget t.obj.tab (devId s ++ BitVec.ofNat 34 s.obj.nextSerial) = some o ∧
      OtherObjects s t (devId s ++ BitVec.ofNat 34 s.obj.nextSerial) ∧ t.obj.pages = s.obj.pages ∧
      t.obj.nextSerial = s.obj.nextSerial + 1 ∧ quotaUse t ten 2 = quotaUse s ten 2 + ceilDiv o.size (2 ^ 20) ∧
      (∀ x y, (x, y) ≠ (ten, 2) → quotaUse t x y = quotaUse s x y) ∧
      ObjAnswered s t i .ok ∧ t = { s with
        obj := t.obj, ftl := { s.ftl with media := { s.ftl.media with serial := t.ftl.media.serial } }, mg := t.mg, out := t.out }) ∧
  (∀ (s : State) (i : BitVec 3) (ten : TenantId) (o : Obj), ObjReady s i → isRemoving s ten = false → dryingDown s = false →
    descOf (dataOf s i) ten = o → descBad (dataOf s i) o = false → o.tier = 2 → quotaRoom s ten 2 (ceilDiv o.size (2 ^ 20)) = true →
    s.obj.tab.length < 1048576 → s.obj.nextSerial < 2 ^ 34 → s.ftl.state = .online → serialFloor s ≤ s.obj.nextSerial →
    (∀ r ∈ s.ftl.journal, ∀ k, r.body ≠ .serial k) →
    Completes (.create (.session i) ten) s fun t =>
      t.ftl = (jAdd s (.serial (s.obj.nextSerial + 4096)) [] true none).ftl ∧
      t.mg.blocks = s.mg.blocks ++ [running i blkObj (cmdWord 1 ten.toNat)] ∧ t = { s with ftl := t.ftl, mg := t.mg }) ∧
  (∀ (s : State) (i : BitVec 3) (ten : TenantId) (o : Obj), ObjReady s i → isRemoving s ten = false → dryingDown s = false →
    descOf (dataOf s i) ten = o → (descBad (dataOf s i) o = true ∨ o.tier = 3) →
    Completes (.create (.session i) ten) s fun t => ObjAnswered s t i .denied ∧ t = { s with mg := t.mg, out := t.out }) ∧
  (∀ (s : State) (i : BitVec 3) (ten : TenantId) (o : Obj), ObjReady s i → isRemoving s ten = false → dryingDown s = false →
    descOf (dataOf s i) ten = o → descBad (dataOf s i) o = false → o.tier = 1 → quotaRoom s ten 1 (ceilDiv o.size 4096) = false →
    Completes (.create (.session i) ten) s fun t => ObjAnswered s t i .quota ∧ t = { s with mg := t.mg, out := t.out }) ∧
  (∀ (s : State) (i : BitVec 3) (ten : TenantId) (o : Obj), ObjReady s i → isRemoving s ten = false → dryingDown s = false →
    descOf (dataOf s i) ten = o → descBad (dataOf s i) o = false → o.tier = 1 → quotaRoom s ten 1 (ceilDiv o.size 4096) = true →
    s.obj.nextSerial < 2 ^ 34 → (s.ftl.state ≠ .online ∨ s.obj.nextSerial < serialFloor s) →
    (1048576 ≤ s.obj.tab.length ∨
      allocRange s (devId s ++ BitVec.ofNat 34 s.obj.nextSerial) o.stackMask o.size = none) →
    Completes (.create (.session i) ten) s fun t => ObjAnswered s t i .noSlot ∧ t = { s with mg := t.mg, out := t.out }) ∧
  (∀ (s : State) (i : BitVec 3) (ten : TenantId) (oid alt : Oid) (o : Obj), ObjReady s i → isRemoving s ten = false →
    dryingDown s = false → leAt (dataOf s i) 0 8 = oid.toNat → leAt (dataOf s i) 48 8 = alt.toNat → objNamed s oid ten = some o →
    o.sealing = false → (alt = 0 ∨ (isAlternate s oid = false ∧ alt ≠ oid ∧ ∃ a, objNamed s alt ten = some a ∧ a.prot = o.prot ∧ a.rows = o.rows ∧ a.zskip = false ∧ a.alt = 0 ∧
      (a.isSealed = true ∨ a.tier = 2))) →
    Completes (.setAlt (.session i) ten) s fun t => tget t.obj.tab oid = some { o with alt := alt } ∧ OtherObjects s t oid ∧
      ((∃ r ∈ s.dry.buf, r.live = true ∧ r.oid = oid) → ∃ r ∈ t.dry.buf, r.live = true ∧ r.oid = oid ∧ r.desc = some { o with alt := alt }) ∧
      (∀ r ∈ t.dry.buf, r ∉ s.dry.buf → r.oid = oid) ∧ ((∀ r ∈ s.dry.buf, r.live = false ∨ r.oid ≠ oid) → t.dry = s.dry) ∧
      ObjAnswered s t i .ok ∧ t = { s with obj := { s.obj with tab := t.obj.tab }, dry := t.dry, mg := t.mg, out := t.out }) ∧
  (∀ (s : State) (i : BitVec 3) (ten : TenantId) (oid : Oid) (o : Obj), ObjReady s i → isRemoving s ten = false →
    dryingDown s = false → leAt (dataOf s i) 0 8 = oid.toNat → objNamed s oid ten = some o → isAlternate s oid = false →
    o.sealing = false → o.t1 ≠ .filling → o.fillsT0 = false → fillOf s oid false = none → NoOwnExpand s oid →
    Completes (.delete (.session i) ten) s fun t => objOf t oid = none ∧ tget t.obj.tab oid = some { o with deleted := true } ∧
      OtherObjects s t oid ∧ GivenUp s t oid ∧
      (∀ k p, tget t.obj.plans k = some p → p.oid ≠ oid ∧ ∀ x ∈ p.steps, x.oid = oid → x.over_ = true ∧ x.staged = false) ∧
      (∀ x ten', x ≠ 1 → quotaUse t ten' x = quotaUse s ten' x) ∧
      t.ftl = (if o.tier = 3 ∧ o.runs ≠ [] ∧ (∀ r ∈ s.obj.reads, r.oid ≠ oid) ∧ (∀ j ∈ s.ftl.journal, j.body ≠ .delete oid)
        then (jAdd s (.delete oid) [] true none).ftl else s.ftl) ∧
      (∀ r ∈ t.dry.buf, r.oid = oid → r.live = false) ∧ ObjAnswered s t i .ok ∧
      t = { s with obj := t.obj, ftl := t.ftl, dry := t.dry, err := t.err, mg := t.mg, out := t.out }) ∧
  (∀ (s : State) (i : BitVec 3) (ten : TenantId) (oid : Oid), ObjReady s i → isRemoving s ten = false →
    dryingDown s = false → leAt (dataOf s i) 0 8 = oid.toNat → isAlternate s oid = true →
    Completes (.delete (.session i) ten) s fun t => ObjAnswered s t i .denied ∧ t = { s with mg := t.mg, out := t.out }) ∧
  (∀ (s : State) (i : BitVec 3) (ten : TenantId) (oid : Oid) (o : Obj), ObjReady s i → isRemoving s ten = false →
    dryingDown s = false → leAt (dataOf s i) 0 8 = oid.toNat → objNamed s oid ten = some o →
    Completes (.query (.session i) ten) s fun t =>
      (∀ k, k < 16 → tgetD (privOf t (.session i)).objData (BitVec.ofNat 4 k) 0 = BitVec.ofNat 32 (leAt (descBytes oid o) (4 * k) 4)) ∧
      ObjAnswered s t i .ok ∧ t = { s with mg := t.mg, out := t.out }) ∧
  (∀ (s : State) (i : BitVec 3) (ten : TenantId) (oid : Oid), ObjReady s i → isRemoving s ten = false →
    dryingDown s = false → leAt (dataOf s i) 0 8 = oid.toNat → objNamed s oid ten = none →
    ∀ c ∈ [Instr.place (.session i) ten, .unplace (.session i) ten, .setAlt (.session i) ten, .delete (.session i) ten,
        .query (.session i) ten, .planOpen (.session i) ten],
      Completes c s fun t => ObjAnswered s t i .denied ∧ t = { s with mg := t.mg, out := t.out }) ∧
  (∀ (s : State) (i : BitVec 3) (ten : TenantId), ObjReady s i → isRemoving s ten = true → ∀ c ∈ objRows i ten,
    Completes c s fun t => ObjAnswered s t i .denied ∧ t = { s with mg := t.mg, out := t.out }) ∧
  (∀ (s : State) (i : BitVec 3) (ten : TenantId), ObjReady s i → isRemoving s ten = false → dryingDown s = true →
    ∀ k, k < 8 → ∀ c, (objRows i ten)[k]? = some c →
      Completes c s fun t => ObjAnswered s t i (((objEffect s (.session i) (k + 1) ten).2.map (statusFirst · .retry)).getD .retry) ∧
        t = { s with mg := t.mg, out := t.out })

/-- PLACE with TIER 1 of a sealed object takes pages and quota, starts to fill a copy of its stored form and fetches its units; a unit
that comes is written, and the copy serves once it holds them all. PLACE with TIER 0 takes space on the tiles, and the replica
serves once its parts hold the object's bytes. UNPLACE gives a copy or a replica up; the scrub zeroizes and frees a copy's pages
once nothing in flight uses them, and not before; a deleted object of home tier 1 then leaves the table. Rests on R330, R337,
R339. -/
def Obligations.CopiesAndReplicas : Prop :=
  (∀ (s u : State) (i : BitVec 3) (ten : TenantId) (oid : Oid) (o : Obj) (m : BitVec 4) (a : Nat), ObjReady s i →
    isRemoving s ten = false → dryingDown s = false → leAt (dataOf s i) 0 8 = oid.toNat → bitsOf (leAt (dataOf s i) 8 1) 0 2 = 1 →
    (byteAt (dataOf s i) 12).extractLsb' 0 4 = m → (byteAt (dataOf s i) 8).getLsbD 2 = o.zskip → objNamed s oid ten = some o →
    o.sealing = false → o.tier = 3 → o.t1 = .none → quotaRoom s ten 1 (ceilDiv o.size 4096) = true →
    allocRange s oid m o.size = some (u, a) → NoFetches s → objUnits o ≤ 16384 → (∀ n, n < objUnits o → unitLost s oid o n = false) →
    Completes (.place (.session i) ten) s fun t =>
      tget t.obj.tab oid = some { o with t1 := T1State.filling, addr := a, cdense := false, stackMask := m, fillGen := genTag s ten } ∧
      OtherObjects s t oid ∧ t.obj.pages = u.obj.pages ∧ quotaUse t ten 1 = quotaUse s ten 1 + ceilDiv o.size 4096 ∧
      t.obj.fills = [⟨oid, false, false, false, List.range (objUnits o), [], []⟩] ∧ Fetching s t oid o (List.range (objUnits o)) ∧
      (privOf t (.session i)).objStat = .ok ∧ t = { s with obj := t.obj, mg := t.mg, out := t.out }) ∧
  (∀ (s : State) (oid : Oid) (o : Obj) (x : Fill) (n : Nat) (p : Option PageAddr) (c : Nat) (d : Decoded), isUp s = true →
    tget s.obj.tab oid = some o → o.cdense = false → s.obj.fetches = [⟨oid, n, p, false, c⟩] → s.obj.reads = [] → s.obj.plans = [] →
    s.obj.fills = [x] → x.oid = oid → x.t0 = false → x.expand = false → x.waits = [n] →
    cipherCheck s o.tenant o.prot o.fillGen = none → Memory.wf s.mem = true → d.rung = 1 → d.metaOk = true → d.corrected ≤ s.ftl.refreshBits.toNat →
    (∀ a, p = some a → (blkOf s a.blk).soft + d.soft < 8) → (pageView s oid o n p).length = 16384 → t1Base s ≤ o.addr →
    (o.addr - t1Base s) % 4096 = 0 → (∀ k, k < o.size → ∃ y, objIn s (o.addr + k) = some (oid, y) ∧ objKey s y = objKey s o) →
    Completes (.tier3FetchDone oid n d) s fun t => t.obj.fills = [{ x with waits := [] }] ∧ t.obj.fetches = [] ∧
      (∀ k, k < 16384 → 16384 * n + k < o.size → t1View t (o.addr + 16384 * n + k) = byteAt (pageView s oid o n p) k) ∧
      t.obj.tab = s.obj.tab ∧ t = { s with obj := t.obj, ftl := t.ftl, mem := t.mem, err := t.err }) ∧
  (∀ (s : State) (oid : Oid) (o : Obj) (x : Fill), isUp s = true → tget s.obj.tab oid = some o → fillOf s oid false = some x →
    x.waits = [] → (x.expand = true → x.issued = true) → NoOwnExpand s oid →
    Completes (.t1CopyFilled oid) s fun t => tget t.obj.tab oid = some { o with t1 := .valid } ∧ OtherObjects s t oid ∧
      fillOf t oid false = none ∧ (∀ y, y ≠ oid → ∀ b, fillOf t y b = fillOf s y b) ∧
      t = { s with obj := { s.obj with tab := t.obj.tab, fills := t.obj.fills } }) ∧
  (∀ (s : State) (oid : Oid), isUp s = true → (∀ x, fillOf s oid false = some x → x.waits ≠ []) →
    exec (.t1CopyFilled oid) s = .next s) ∧
  (∀ (s : State) (i : BitVec 3) (ten : TenantId) (oid : Oid) (o : Obj), ObjReady s i → isRemoving s ten = false →
    dryingDown s = false → leAt (dataOf s i) 0 8 = oid.toNat → bitsOf (leAt (dataOf s i) 8 1) 0 2 = 1 → objNamed s oid ten = some o →
    o.sealing = false → o.tier = 3 → o.t1 ≠ .none → NoOwnExpand s oid →
    Completes (.unplace (.session i) ten) s fun t =>
      tget t.obj.tab oid = some (noReplica { o with t1 := .none, cdense := false, addr := 0 }) ∧ OtherObjects s t oid ∧ GivenUp s t oid ∧
      quotaUse t ten 0 = quotaUse s ten 0 - (o.t0tiles.map (·.units.length)).sum ∧ quotaUse t ten 1 = quotaUse s ten 1 ∧
      fillOf t oid false = none ∧ fillOf t oid true = none ∧ OtherTiles s t o ∧ t.eng.reqs = s.eng.reqs ∧ ObjAnswered s t i .ok ∧
      t = { s with obj := t.obj, eng := { s.eng with tiles := t.eng.tiles }, mg := t.mg, out := t.out }) ∧
  (∀ (s : State) (oid : Oid) (o : Obj), isUp s = true → tget s.obj.tab oid = some o → o.deleted = false → Unused s oid →
    Completes (.objectScrubFree oid) s fun t => Scrubbed s t oid o.tenant ∧ t.obj.tab = s.obj.tab ∧
      t = { s with obj := { s.obj with pages := t.obj.pages, quotaUse := t.obj.quotaUse }, mem := t.mem }) ∧
  (∀ (s : State) (oid : Oid) (o : Obj), isUp s = true → tget s.obj.tab oid = some o → o.deleted = true → Unused s oid → o.tier = 1 →
    (∀ r ∈ s.obj.pages, r.oid = oid → r.gone.isSome = true) → (∀ r ∈ s.obj.reads, r.oid ≠ oid) →
    Completes (.objectScrubFree oid) s fun t => Scrubbed s t oid o.tenant ∧ tget t.obj.tab oid = none ∧ OtherObjects s t oid ∧
      OtherTiles s t o ∧ t = { s with obj := t.obj, eng := { s.eng with tiles := t.eng.tiles }, mem := t.mem }) ∧
  (∀ (s : State) (oid : Oid) (r : PageRun), isUp s = true → r ∈ s.obj.pages → r.oid = oid → r.gone.isSome = true → runInUse s r = true →
    exec (.objectScrubFree oid) s = .next s) ∧
  (∀ (s : State) (i : BitVec 3) (ten : TenantId) (oid : Oid) (o : Obj) (m : BitVec 4) (n units : Nat), ObjReady s i →
    isRemoving s ten = false → dryingDown s = false → leAt (dataOf s i) 0 8 = oid.toNat → bitsOf (leAt (dataOf s i) 8 1) 0 2 = 0 →
    (byteAt (dataOf s i) 12).extractLsb' 4 4 = m → objNamed s oid ten = some o → o.sealing = false → readOnly o = true →
    o.tier ≠ 2 → (o.tier = 3 → o.t1 = .valid) → o.t0rep = false → o.fillsT0 = false → (replicaTiles s o m).length = n → 0 < n →
    ceilDiv (partBytes o n) 65536 = units → (∀ x ∈ replicaTiles s o m, units ≤ (t0Free s x).length) → quotaRoom s ten 0 (units * n) = true →
    Completes (.place (.session i) ten) s fun t => (∃ o', tget t.obj.tab oid = some o' ∧ o'.fillsT0 = true ∧ o'.t0rep = false ∧
        o'.t0tiles.map (·.tile) = replicaTiles s o m ∧ (∀ p ∈ o'.t0tiles, p.units.length = units ∧ ∀ u ∈ p.units, u ∈ t0Free s p.tile) ∧
        o' = { o with fillsT0 := true, qmask := m, t0tiles := o'.t0tiles }) ∧
      OtherObjects s t oid ∧ quotaUse t ten 0 = quotaUse s ten 0 + units * n ∧
      t.obj.fills = s.obj.fills ++ [⟨oid, true, false, false, [], [], []⟩] ∧ ObjAnswered s t i .ok ∧
      t = { s with obj := t.obj, mg := t.mg, out := t.out }) ∧
  (∀ (s : State) (oid : Oid) (o : Obj) (x : Fill), isUp s = true → tget s.obj.tab oid = some o → fillOf s oid true = some x →
    x.frames = [] → o.tier ≠ 2 → rangePoisoned s o.addr (rangeBytes o) = false → (o.t0tiles.map (·.tile)).Nodup →
    (∀ p ∈ o.t0tiles, p.units.Nodup ∧ partBytes o o.t0tiles.length ≤ 65536 * p.units.length ∧ cellsWf (tileOf s p.tile).sram = true) →
    Completes (.replicaFilled oid) s fun t => tget t.obj.tab oid = some { o with fillsT0 := false, t0rep := true } ∧
      OtherObjects s t oid ∧ fillOf t oid true = none ∧ OtherTiles s t o ∧
      (∀ k p, o.t0tiles[k]? = some p → ∀ j, j < (partRange o o.t0tiles.length k).2 →
        cellRead (tileOf t p.tile).sram (partAt (tileOf t p.tile) p j) = t1View s ((partRange o o.t0tiles.length k).1 + j)) ∧
      t = { s with obj := { s.obj with tab := t.obj.tab, fills := t.obj.fills }, eng := { s.eng with tiles := t.eng.tiles } }) ∧
  (∀ (s : State) (i : BitVec 3) (ten : TenantId) (oid : Oid) (o : Obj), ObjReady s i → isRemoving s ten = false →
    dryingDown s = false → leAt (dataOf s i) 0 8 = oid.toNat → bitsOf (leAt (dataOf s i) 8 1) 0 2 = 0 → objNamed s oid ten = some o →
    o.sealing = false → (o.t0rep = true ∨ o.fillsT0 = true) →
    Completes (.unplace (.session i) ten) s fun t => tget t.obj.tab oid = some (noReplica o) ∧ OtherObjects s t oid ∧
      quotaUse t ten 0 = quotaUse s ten 0 - (o.t0tiles.map (·.units.length)).sum ∧ t.obj.pages = s.obj.pages ∧ OtherTiles s t o ∧
      ObjAnswered s t i .ok ∧ t = { s with obj := t.obj, eng := { s.eng with tiles := t.eng.tiles }, mg := t.mg, out := t.out })

/-- PLAN_OPEN of a plan object in reach takes staging and quota and the lowest free number, and reads the steps: at once from tier 1,
by fetches from flash; the next step that has not begun is fetched when it fits, and one that cannot be staged is passed over;
PLAN_CLOSE frees the plan with its staging's quota. Rests on R355, R356. -/
def Obligations.StreamPlans : Prop :=
  (∀ (s : State) (i : BitVec 3) (ten : TenantId) (oid : Oid) (o : Obj) (n stage : Nat) (k : BitVec 8) (fs : List FrameRun), ObjReady s i →
    isRemoving s ten = false → dryingDown s = false → leAt (dataOf s i) 0 8 = oid.toNat → leAt (dataOf s i) 8 4 = n →
    leAt (dataOf s i) 12 2 = stage → objNamed s oid ten = some o → (o.tier = 1 ∨ o.t1 = .valid) → o.etype = 3 → o.zskip = false → 0 < n →
    n ≤ 65536 → 16 * n ≤ o.size → 0 < stage → stage ≤ 16384 → quotaRoom s ten 1 (16 * stage) = true → freePlan s = some k →
    takeFrames s 0 (65536 * stage) = some fs → rangePoisoned s o.addr (16 * n) = false →
    Completes (.planOpen (.session i) ten) s fun t =>
      tget t.obj.plans k = some ⟨oid, ten, stage, n, fs, [], [], planSteps ((List.range (16 * n)).map fun j => t1View s (o.addr + j)) n⟩ ∧
      (∀ j, j ≠ k → tget t.obj.plans j = tget s.obj.plans j) ∧ quotaUse t ten 1 = quotaUse s ten 1 + 16 * stage ∧
      tgetD (privOf t (.session i)).objData 0 0 = k.setWidth 32 ∧ ObjAnswered s t i .ok ∧
      t = { s with obj := { s.obj with plans := t.obj.plans, quotaUse := t.obj.quotaUse }, mg := t.mg, out := t.out }) ∧
  (∀ (s : State) (i : BitVec 3) (ten : TenantId) (oid : Oid) (o : Obj) (n stage : Nat) (k : BitVec 8) (fs : List FrameRun), ObjReady s i →
    isRemoving s ten = false → dryingDown s = false → leAt (dataOf s i) 0 8 = oid.toNat → leAt (dataOf s i) 8 4 = n →
    leAt (dataOf s i) 12 2 = stage → objNamed s oid ten = some o → o.tier = 3 → o.t1 ≠ .valid → o.etype = 3 → o.zskip = false → 0 < n →
    n ≤ 65536 → 16 * n ≤ o.size → 0 < stage → stage ≤ 16384 → quotaRoom s ten 1 (16 * stage) = true → freePlan s = some k →
    takeFrames s 0 (65536 * stage) = some fs → NoFetches s → (∀ u, u < ceilDiv (16 * n) 16384 → unitLost s oid o u = false) →
    Completes (.planOpen (.session i) ten) s fun t =>
      tget t.obj.plans k = some ⟨oid, ten, stage, n, fs, List.range (ceilDiv (16 * n) 16384), [], []⟩ ∧
      (∀ j, j ≠ k → tget t.obj.plans j = tget s.obj.plans j) ∧ quotaUse t ten 1 = quotaUse s ten 1 + 16 * stage ∧
      Fetching s t oid o (List.range (ceilDiv (16 * n) 16384)) ∧ tgetD (privOf t (.session i)).objData 0 0 = k.setWidth 32 ∧
      (privOf t (.session i)).objStat = .ok ∧ t = { s with obj := t.obj, mg := t.mg, out := t.out }) ∧
  (∀ (s : State) (k : BitVec 8) (p : Plan) (x : PlanStep) (rest : List PlanStep) (o : Obj), isUp s = true → s.obj.plans = [(k, p)] →
    p.steps = x :: rest → x.over_ = false → x.staged = false → x.need = [] → p.waits = [] → (∀ y ∈ rest, y.need = [] ∧ y.staged = false) →
    objNamed s x.oid p.tenant = some o → o.tier = 3 → x.first + x.rows ≤ o.rows → stepUnits s o x ≠ [] →
    (∀ u ∈ stepUnits s o x, unitLost s x.oid o u = false) → 16384 * (stepUnits s o x).length ≤ 65536 * p.stage →
    s.obj.fetches = [] → s.obj.reads = [] → s.obj.fills = [] → (stepUnits s o x).length ≤ 16384 →
    Completes (.planStepFetch k) s fun t =>
      tget t.obj.plans k = some { p with steps := { x with need := stepUnits s o x, got := [], staged := false } :: rest } ∧
      Fetching s t x.oid o (stepUnits s o x) ∧
      t = { s with obj := { s.obj with plans := t.obj.plans, fetches := t.obj.fetches }, out := t.out }) ∧
  (∀ (s : State) (k : BitVec 8) (p : Plan) (x y : PlanStep) (rest : List PlanStep), isUp s = true → s.obj.plans = [(k, p)] →
    p.steps = x :: y :: rest → x.over_ = false → x.staged = false → x.need = [] → y.over_ = false →
    (objNamed s x.oid p.tenant = none ∨ ∃ o, objNamed s x.oid p.tenant = some o ∧ (o.tier ≠ 3 ∨ o.rows < x.first + x.rows ∨
      65536 * p.stage < 16384 * (stepUnits s o x).length ∨ ∃ u ∈ stepUnits s o x, unitLost s x.oid o u = true)) →
    Completes (.planStepFetch k) s fun t => tget t.obj.plans k = some { p with steps := { x with over_ := true } :: y :: rest } ∧
      t = { s with obj := { s.obj with plans := t.obj.plans } }) ∧
  (∀ (s : State) (i : BitVec 3) (ten : TenantId) (k : BitVec 8) (p : Plan), ObjReady s i → isRemoving s ten = false →
    dryingDown s = false → leAt (dataOf s i) 0 2 = k.toNat → tget s.obj.plans k = some p → p.tenant = ten →
    Completes (.planClose (.session i) ten) s fun t => tget t.obj.plans k = none ∧
      (∀ j, j ≠ k → tget t.obj.plans j = tget s.obj.plans j) ∧ quotaUse t ten 1 = quotaUse s ten 1 - 16 * p.stage ∧
      ObjAnswered s t i .ok ∧
      t = { s with obj := { s.obj with plans := t.obj.plans, quotaUse := t.obj.quotaUse }, mg := t.mg, out := t.out })

/-- An RD_OBJ completes OK from tier 1 with its read record and the rows, dense, inline or written to DADDR, whose answers from
outside tier 1 it awaits; from flash it begins a fetch of every unit it needs, and the unit that was its last to arrive delivers
the rows; from a tray it reads them with a device frame. A stream of home tier 1 that fails its checks marks the object damaged
and answers FORMAT. The request that its checks refuse completes with their status. A unit found uncorrectable is damaged: it
enters the damaged-extent table, its block is retired, its error recorded, and a read of an object with no alternate ends with
POISON. Rests on R310, R321, R335, R347 to R351, R358, R359, Tables 8.6 and 8.7. -/
def Obligations.ObjectReads : Prop :=
  (∀ (s : State) (q : Quad) (f : Req) (o : Obj), ReadStarts s f o .tier1 → o.zskip = false → objDaddr f = 0 → s.obj.plans = [] →
    Passes1 s f o → FreshRead s f →
    exec (.rdObj (.device q) f) s = .next { s with out := s.out ++ [replied f .ok (recordOf (rdBytes o f) 1 ++
      (List.range (rdBytes o f)).map fun k => t1View s (o.addr + (rdFirst f * o.rowBytes + k)))] }) ∧
  (∀ (s : State) (q : Quad) (f : Req) (o : Obj) (rows : List Byte), ReadStarts s f o .tier1 → streamed o .tier1 = true → objDaddr f = 0 →
    s.obj.plans = [] → Passes1 s f o → FreshRead s f → rdRows (at1 s o) o f true = some rows →
    exec (.rdObj (.device q) f) s = .next { s with out := s.out ++ [replied f .ok (recordOf rows.length 1 ++ rows)] }) ∧
  (∀ (s : State) (q : Quad) (f : Req) (o : Obj), ReadStarts s f o .tier1 → streamed o .tier1 = true → o.tier = 1 → o.damaged = false →
    Passes1 s f o → FreshRead s f → rdRows (at1 s o) o f true = none → s.err.log = [] →
    Completes (.rdObj (.device q) f) s fun t => tget t.obj.tab (rdOid f) = some { o with damaged := true } ∧
      OtherObjects s t (rdOid f) ∧ t.eng.zskDamaged = satInc 16 s.eng.zskDamaged ∧ OneRecord t 8 (.oid (rdOid f)) ∧
      t.out = s.out ++ [replied f .format []] ∧
      t = { s with obj := { s.obj with tab := t.obj.tab }, eng := { s.eng with zskDamaged := t.eng.zskDamaged }, err := t.err, out := t.out }) ∧
  (∀ (s s' : State) (q : Quad) (f : Req) (o : Obj) (rows : List Byte) (w : EngReq), ReadStarts s f o .tier1 → objDaddr f ≠ 0 →
    s.obj.plans = [] → Passes1 s f o → FreshRead s f → rdRows (at1 s o) o f (streamed o .tier1) = some rows →
    engWrites s (rdReq s (readOf s f)) [(objDaddr f, rows)] = (s', w, none) →
    exec (.rdObj (.device q) f) s = .next (if w.frames = [] then { s' with out := s'.out ++ [replied f .ok (recordOf rows.length 1)] }
      else { s' with obj := { s'.obj with
        reads := s'.obj.reads ++ [{ readOf s f with done := some (recordOf rows.length 1), frames := w.frames }] } })) ∧
  (∀ (s : State) (q : Quad) (f : Req) (o : Obj), ReadStarts s f o .flash →
    (∀ u ∈ rdUnits s o f, unitLost s (rdOid f) o u = false) → NoFetches s → (rdUnits s o f).length ≤ 16384 →
    Completes (.rdObj (.device q) f) s fun t => t.obj.reads = [{ readOf s f with waits := rdUnits s o f }] ∧
      Fetching s t (rdOid f) o (rdUnits s o f) ∧
      t = { s with obj := { s.obj with reads := t.obj.reads, fetches := t.obj.fetches }, out := t.out }) ∧
  (∀ (s : State) (q : Quad) (f : Req) (o : Obj), ReadStarts s f o .tray → FreshRead s f →
    exec (.rdObj (.device q) f) s = .next { s with
      obj := { s.obj with reads := s.obj.reads ++ [{ readOf s f with tray := some (trayRun o f).1 }] }
      out := s.out ++ [.devRead (devHead f) (BitVec.ofNat 58 (trayRun o f).1) (trayRun o f).2] }) ∧
  (∀ (s : State) (q : Quad) (f : Req) (o : Obj) (st : Status), isUp s = true → f.opcode = Op.rdObj →
    objNamed s (rdOid f) f.tenant = some o → rdStatus s o f = some st → (localAt s f.src).isSome = true →
    exec (.rdObj (.device q) f) s = .next { s with out := s.out ++ [replied f st []] }) ∧
  (∀ (s : State) (q : Quad) (f : Req), isUp s = true → f.opcode = Op.rdObj → objNamed s (rdOid f) f.tenant = none →
    (localAt s f.src).isSome = true →
    exec (.rdObj (.device q) f) s = .next { s with out := s.out ++ [replied f .denied []] }) ∧
  (∀ (s : State) (u : Nat) (a : PageAddr) (at_ : Nat) (d : Decoded) (f : Req) (o : Obj) (r : ObjRead), isUp s = true →
    r = { readOf s f with waits := [u] } → s.obj.fetches = [⟨rdOid f, u, some a, false, at_⟩] → s.obj.reads = [r] → s.obj.plans = [] →
    s.obj.fills = [] → tget s.obj.tab (rdOid f) = some o → o.deleted = false → o.zskip = false → objDaddr f = 0 → cipherCheck s f.tenant o.prot (genTag s f.tenant) = none →
    (localAt s f.src).isSome = true → d.rung = 1 → d.metaOk = true → d.corrected ≤ s.ftl.refreshBits.toNat →
    (blkOf s a.blk).soft + d.soft < 8 →
    Completes (.tier3FetchDone (rdOid f) u d) s fun t => t.obj.fetches = [] ∧ t.obj.reads = [] ∧
      t.out = s.out ++ [replied f .ok (recordOf (rdBytes o f) 3 ++ (List.range (rdBytes o f)).map fun k =>
        byteAt (tgetD [(u, pageView s (rdOid f) o u (some a))] ((rdFirst f * o.rowBytes + k) / 16384) []) ((rdFirst f * o.rowBytes + k) % 16384))] ∧
      t = { s with obj := t.obj, ftl := t.ftl, out := t.out }) ∧
  (∀ (s : State) (oid : Oid) (u : Nat) (a : PageAddr) (at_ : Nat) (o : Obj) (r : ObjRead), isUp s = true →
    s.obj.fetches = [⟨oid, u, some a, false, at_⟩] → s.obj.reads = [r] → r.oid = oid → r.waits.contains u = true → r.useAlt = false →
    r.retried = false → s.obj.plans = [] → s.obj.fills = [] → tget s.obj.tab oid = some o → o.deleted = false → o.alt = 0 → s.obj.damagedExt.contains (oid, u) = false →
    s.obj.damagedExt.length < 65536 → (blkOf s a.blk).use ≠ .bad → s.ftl.rdonly = true → s.err.log = [] →
    (localAt s r.f.src).isSome = true →
    Completes (.tier3Uncorrectable oid u) s fun t => t.obj.damagedExt = s.obj.damagedExt ++ [(oid, u)] ∧
      t.obj.dmg = satInc 32 s.obj.dmg ∧ t.obj.fetches = [] ∧ t.obj.reads = [] ∧ t.obj.tab = s.obj.tab ∧
      (blkOf t a.blk).use = .bad ∧ (blkOf t a.blk).cause = 4 ∧ OneRecord t 5 (.oid oid) ∧ t.out = s.out ++ [replied r.f .poison []] ∧
      t = { s with obj := t.obj, ftl := t.ftl, err := t.err, out := t.out })

/-- A SEAL_OBJ that its checks let begin makes the object seal-pending, takes its logical runs and pages, counts its tier-3 use, and
sends its programs; its record's commit makes the object sealed on tier 3 under its new runs, with the tier-1 pages as its copy,
and answers OK. A RESEAL's target is seal-pending as well; its commit gives the target the source's data and pages, and the source
is gone. DISCARD writes its record; the commit leaves every unit of the extent reading as zeros and no other unit changed, and
answers OK. Each is answered with the status of the check it fails. Rests on R343 to R346, R380, R381, R405 to R408, Tables 1.5
and 9.8. -/
def Obligations.SealsAndDiscards : Prop :=
  (∀ (s u : State) (q : Quad) (f : Req) (o : Obj) (runs : List (Nat × Nat)) (units : List (Nat × PageAddr)), isUp s = true →
    f.opcode = Op.sealObj → f.subop = 0 → objNamed s (sealOid f) f.tenant = some o → sealBad s o f = false →
    cipherCheck s f.tenant o.prot (genTag s f.tenant) = none → gated s (sealOid f) f.src = false →
    quotaRoom s f.tenant 3 (tier3Units o) = true → s.ftl.state = .online → s.ftl.rdonly = false → allocRuns s (objUnits o) = some runs →
    placeUnits .sealOpen false ((List.range (objUnits o)).filter fun n => !unitPoisoned s o n) 0 s = some (u, units) →
    o.sealing = false → dryingDown s = false →
    Completes (.seal (.device q) f) s fun t => tget t.obj.tab (sealOid f) = some { o with sealing := true } ∧
      OtherObjects s t (sealOid f) ∧
      t.ftl.seals = s.ftl.seals ++ [⟨f, sealOid f, none, genTag s f.tenant, s.ftl.nextJ, units, runs, s.counter⟩] ∧
      (∃ body, t.ftl.journal = s.ftl.journal ++ [⟨s.ftl.nextJ, body, units.map (·.2), true, some f⟩]) ∧
      t.ftl.nextJ = s.ftl.nextJ + 1 ∧ t.ftl.map = s.ftl.map ∧ t.ftl.blocks = u.ftl.blocks ∧
      quotaUse t f.tenant 3 = quotaUse s f.tenant 3 + tier3Units o ∧ t.out = s.out ++ units.map (fun x => .nandProgram x.2) ∧
      t = { s with obj := t.obj, ftl := t.ftl, out := t.out }) ∧
  (∀ (s u : State) (q : Quad) (f : Req) (o x : Obj) (runs : List (Nat × Nat)) (units : List (Nat × PageAddr)), isUp s = true →
    f.opcode = Op.sealObj → f.subop = 1 → objNamed s (sealOid f) f.tenant = some o → objNamed s (sealTarget f) f.tenant = some x →
    sealBad s o f = false → cipherCheck s f.tenant o.prot (genTag s f.tenant) = none → gated s (sealOid f) f.src = false →
    gated s (sealTarget f) f.src = false → quotaRoom s f.tenant 3 (tier3Units o) = true → s.ftl.state = .online →
    s.ftl.rdonly = false → allocRuns s (objUnits o) = some runs →
    placeUnits .sealOpen false ((List.range (objUnits o)).filter fun n => !unitPoisoned s o n) 0 s = some (u, units) →
    o.sealing = false → x.sealing = false → dryingDown s = false →
    Completes (.reseal (.device q) f) s fun t => tget t.obj.tab (sealOid f) = some { o with sealing := true } ∧
      tget t.obj.tab (sealTarget f) = some { x with sealing := true } ∧
      (∀ n, n ≠ sealOid f → n ≠ sealTarget f → tget t.obj.tab n = tget s.obj.tab n) ∧
      t.ftl.seals = s.ftl.seals ++
        [⟨f, sealOid f, some (sealTarget f), genTag s f.tenant, s.ftl.nextJ, units, runs, s.counter⟩] ∧
      t.out = s.out ++ units.map (fun x => .nandProgram x.2) ∧ t = { s with obj := t.obj, ftl := t.ftl, out := t.out }) ∧
  (∀ (s : State) (q : Quad) (f : Req) (o : Obj), isUp s = true → f.opcode = Op.sealObj → f.subop.toNat ≤ 1 →
    objNamed s (sealOid f) f.tenant = some o → sealBad s o f = true → (localAt s f.src).isSome = true →
    exec (if f.subop = 0 then .seal (.device q) f else .reseal (.device q) f) s =
      .next { s with out := s.out ++ [replied f .denied []] }) ∧
  (∀ (s : State) (j : JRec) (rest : List JRec) (f : Req) (oid : Oid) (o x : Obj) (ds : List Delta), CommitDue s j rest →
    j.body = .sealRec oid o none ds → j.waiter = some f → (localAt s f.src).isSome = true → tget s.obj.tab oid = some x →
    (ds.map (·.unit)).Nodup → (∀ d ∈ ds, mapEnt s d.unit = d.old ∧ d.new ≠ .damaged) →
    Completes .journalCommit s fun t => tget t.obj.tab oid =
        some { x with tier := 3, isSealed := true, sealing := false, damaged := false, t1 := .valid, runs := o.runs } ∧
      OtherObjects s t oid ∧ (∀ d ∈ ds, mapEnt t d.unit = d.new) ∧
      (∀ n, (∀ d ∈ ds, d.unit ≠ n) → mapEnt t n = mapEnt s n) ∧ (∀ r ∈ t.dry.buf, r.oid = oid → r.live = false) ∧
      (∀ n, (oid, n) ∉ t.obj.damagedExt) ∧ Durable s t j f) ∧
  (∀ (s : State) (j : JRec) (rest : List JRec) (f : Req) (oid tgt : Oid) (o x y : Obj) (ds : List Delta), CommitDue s j rest →
    j.body = .sealRec oid o (some tgt) ds → j.waiter = some f → (localAt s f.src).isSome = true → oid ≠ tgt →
    tget s.obj.tab oid = some x → tget s.obj.tab tgt = some y → NoOwnExpand s tgt → (ds.map (·.unit)).Nodup →
    (∀ d ∈ ds, mapEnt s d.unit = d.old ∧ d.new ≠ .damaged ∧ ∀ r ∈ y.runs, ¬ (r.1 ≤ d.unit ∧ d.unit < r.1 + r.2)) →
    Completes .journalCommit s fun t => tget t.obj.tab tgt = some (noReplica { y with
          sealing := false, damaged := false, t1 := .valid, cdense := false, addr := x.addr, size := x.size, runs := o.runs }) ∧
      tget t.obj.tab oid = none ∧ (∀ n, n ≠ oid → n ≠ tgt → tget t.obj.tab n = tget s.obj.tab n) ∧
      t.obj.pages = s.obj.pages.map (fun r => if r.oid = oid then { r with oid := tgt }
        else if r.oid = tgt ∧ r.gone = none then { r with gone := some s.eng.nextNo } else r) ∧
      (∀ d ∈ ds, mapEnt t d.unit = d.new) ∧
      (∀ r ∈ y.runs, ∀ n, r.1 ≤ n → n < r.1 + r.2 → mapEnt t n = .unmapped) ∧ (∀ r ∈ t.dry.buf, r.oid = oid → r.live = false) ∧
      (∀ n, (tgt, n) ∉ t.obj.damagedExt) ∧ OtherTiles s t y ∧ Durable s t j f) ∧
  (∀ (s : State) (q : Quad) (f : Req) (o : Obj), isUp s = true → f.opcode = Op.discard → objNamed s (discOid f) f.tenant = some o →
    discBad s o f = false → cipherCheck s f.tenant o.prot (genTag s f.tenant) = none → gated s (discOid f) f.src = false →
    o.sealing = false → dryingDown s = false →
    exec (.discard (.device q) f) s = .next (jAdd s (.discard (discOid f) (discFirst f) (discCount f)) [] true (some f))) ∧
  (∀ (s : State) (q : Quad) (f : Req) (o : Obj), isUp s = true → f.opcode = Op.discard → objNamed s (discOid f) f.tenant = some o →
    discBad s o f = true → (localAt s f.src).isSome = true →
    exec (.discard (.device q) f) s = .next { s with out := s.out ++ [replied f .denied []] }) ∧
  (∀ (s : State) (j : JRec) (rest : List JRec) (f : Req) (oid : Oid) (o : Obj) (first n : Nat), CommitDue s j rest →
    j.body = .discard oid first n → j.waiter = some f → isRemoving s f.tenant = false → (localAt s f.src).isSome = true →
    tget s.obj.tab oid = some o →
    Completes .journalCommit s fun t =>
      (∀ k lu, k < n → runUnit o.runs (first + k) = some lu → mapEnt t lu = .discarded) ∧
      (∀ lu, (∀ k, k < n → runUnit o.runs (first + k) ≠ some lu) → mapEnt t lu = mapEnt s lu) ∧
      (∀ u, (oid, u) ∈ t.obj.damagedExt ↔ ((oid, u) ∈ s.obj.damagedExt ∧ ¬ (first ≤ u ∧ u < first + n))) ∧
      t.obj.tab = s.obj.tab ∧ Durable s t j f)

/-- A good program leaves the page with the unit's bytes, and no record waits for it; a failed one retires its block. A cycle takes
the block at the head of the relocation queue and copies its mapped units elsewhere; its victim is erased once its record is
durable and nothing points into it, and not before; a good erase empties the block and writes an ERASE record with one more erase,
and a failed one retires the block. Rests on R381, R383, R386, R391 to R399. -/
def Obligations.ProgramsErasesAndCollection : Prop :=
  (∀ (s : State) (a : PageAddr) (r : SealRun) (u : Nat) (o : Obj), Unarmed s → programming s a = true → s.ftl.gc = [] →
    s.ftl.seals = [r] → r.units = [(u, a)] → tget s.obj.tab r.oid = some o → cipherCheck s o.tenant o.prot r.gen = none →
    Completes (.nandProgramComplete a) s fun t => tget t.ftl.media.pages a = some (sealPage s r u) ∧
      (∀ b, b ≠ a → tget t.ftl.media.pages b = tget s.ftl.media.pages b) ∧ (∀ j ∈ t.ftl.journal, a ∉ j.needs) ∧
      t.ftl.journal.map (·.jseq) = s.ftl.journal.map (·.jseq) ∧ t.ftl.map = s.ftl.map ∧ t = { s with ftl := t.ftl }) ∧
  (∀ (s : State) (a : PageAddr), Unarmed s → programming s a = true → (blkOf s a.blk).use ≠ .bad → BlocksOnce s → s.ftl.gc = [] →
    s.ftl.rdonly = true → s.err.log = [] → (∀ r ∈ s.ftl.seals, (localAt s r.f.src).isSome = true) →
    Completes (.nandProgramFail a) s fun t => (blkOf t a.blk).use = .bad ∧ (blkOf t a.blk).cause = 2 ∧
      t.ftl.health.pgmFail = satInc 32 s.ftl.health.pgmFail ∧ t.ftl.health.grown = satInc 32 s.ftl.health.grown ∧
      OneRecord t 6 .none ∧ t = { s with obj := t.obj, ftl := t.ftl, err := t.err, out := t.out }) ∧
  (∀ (s : State) (v : BlkAddr) (lu : Nat) (a : PageAddr), isUp s = true → s.ftl.state = .online → dryingDown s = false → s.ftl.gc = [] →
    s.ftl.refreshQ = [v] → (blkOf s v).use = .closed → (blkOf s v).soft < 8 → unitsIn s v = [(lu, a)] →
    (tget s.ftl.media.pages a).isSome = true → s.obj.damagedExt = [] →
    (placeUnits .relocOpen false [lu] 0 s).isSome = true →
    Completes (.gcCycleStart []) s fun t => (∃ b, t.ftl.gc = [⟨v, s.ftl.nextJ, [(lu, a, b)], [], false, false⟩] ∧
        t.out = s.out ++ [.nandRead a lu, .nandProgram b]) ∧
      t.ftl.refreshQ = [] ∧ t.ftl.map = s.ftl.map ∧ t.ftl.health.refresh = satInc 32 s.ftl.health.refresh ∧
      t = { s with ftl := t.ftl, out := t.out }) ∧
  (∀ (s : State) (b : BlkAddr) (c : Cycle), isUp s = true → dryingDown s = false → s.ftl.gc = [c] → c.victim = b → c.committed = true →
    c.erasing = false → unitsIn s b = [] → s.obj.fetches = [] → (blkOf s b).use ≠ .bad →
    Completes (.gcVictimErase b) s fun t => (blkOf t b).use = .erasing ∧ t.ftl.gc = [{ c with erasing := true }] ∧
      t.out = s.out ++ [.nandErase b] ∧ t.ftl.media = s.ftl.media ∧ t.ftl.map = s.ftl.map ∧ t = { s with ftl := t.ftl, out := t.out }) ∧
  (∀ (s : State) (b : BlkAddr) (c : Cycle), isUp s = true → s.ftl.gc = [c] → c.victim = b →
    (c.committed = false ∨ unitsIn s b ≠ []) → exec (.gcVictimErase b) s = .next s) ∧
  (∀ (s : State) (b : BlkAddr), Unarmed s → (blkOf s b).use = .erasing →
    Completes (.nandEraseComplete b) s fun t => (∀ x ∈ t.ftl.media.pages, x.1.blk ≠ b) ∧
      (∀ a : PageAddr, a.blk ≠ b → tget t.ftl.media.pages a = tget s.ftl.media.pages a) ∧
      t.ftl.journal = s.ftl.journal ++ [⟨s.ftl.nextJ, .erase b ((blkOf s b).erases + 1), [], true, none⟩] ∧
      t.ftl.nextJ = s.ftl.nextJ + 1 ∧ t.ftl.map = s.ftl.map ∧ t.ftl.blocks = s.ftl.blocks ∧ t = { s with ftl := t.ftl, sec := t.sec, err := t.err }) ∧
  (∀ (s : State) (b : BlkAddr), isUp s = true → (blkOf s b).use = .erasing → s.ftl.rdonly = true → s.err.log = [] →
    Completes (.nandEraseFail b) s fun t => (blkOf t b).use = .bad ∧ (blkOf t b).cause = 3 ∧ (∀ c ∈ t.ftl.gc, c.victim ≠ b) ∧
      t.ftl.health.ersFail = satInc 32 s.ftl.health.ersFail ∧ t.ftl.health.grown = satInc 32 s.ftl.health.grown ∧
      OneRecord t 7 .none ∧ t.ftl.media = s.ftl.media ∧ t = { s with ftl := t.ftl, err := t.err })

/-- A patrol read notes its time, and a unit that needed rung 2 puts its block on the relocation queue; a temperature sample counts
one second in its bin; the health counters persist as they stand; FTL_GC_CFG takes levels that rise within 1,000 and refuses
others; FORMAT of an offline tier empties the map and the sealed objects and writes the FORMAT and SERIAL records, and is DENIED
while the tier is not offline, or over targets that the device does not support. Rests on R370, R377, R378, R412 to R414, Tables
9.17 and 9.20. -/
def Obligations.FlashUpkeep : Prop :=
  (∀ (s : State) (b : BlkAddr), isUp s = true → (blkOf s b).use = .closed →
    exec (.patrolRead b []) s =
      .next { s with ftl := { s.ftl with blocks := tset s.ftl.blocks b { blkOf s b with readAt := s.counter } } }) ∧
  (∀ (s : State) (b : BlkAddr) (d : Decoded), isUp s = true → (blkOf s b).use = .closed → d.rung = 2 → d.metaOk = true →
    (blkOf s b).soft + d.soft < 8 → s.ftl.refreshQ.contains b = false → s.ftl.refreshQ.length < 4096 →
    Completes (.patrolRead b [d]) s fun t => t.ftl.refreshQ = s.ftl.refreshQ ++ [b] ∧
      t.ftl.health.retry = satInc 32 s.ftl.health.retry ∧ t.ftl.health.soft = satAdd 32 s.ftl.health.soft d.soft ∧
      t.ftl.health.uncorr = s.ftl.health.uncorr ∧ (blkOf t b).use = .closed ∧ (∀ x, x ≠ b → blkOf t x = blkOf s x) ∧
      t.ftl.map = s.ftl.map ∧ t.ftl.media = s.ftl.media ∧ t = { s with ftl := t.ftl }) ∧
  (∀ (s : State) (c : Int), isUp s = true →
    Completes (.flashTempSample c) s fun t =>
      t.ftl.health.temps.getD (tempBin c) 0 = satInc 32 (s.ftl.health.temps.getD (tempBin c) 0) ∧
      (∀ k, k < 8 → k ≠ tempBin c → t.ftl.health.temps.getD k 0 = s.ftl.health.temps.getD k 0) ∧ t.ftl.tempAt = s.counter ∧
      t = { s with ftl := { s.ftl with tempAt := s.counter, health := { s.ftl.health with temps := t.ftl.health.temps } } }) ∧
  (∀ s : State, isUp s = true → exec .healthPersist s =
    .next { s with ftl := { s.ftl with persistAt := s.counter, media := { s.ftl.media with health := some s.ftl.health } } }) ∧
  (∀ (s : State) (i : BitVec 3) (hi lo crit : BitVec 10), Operator s i → crit < lo → lo < hi → hi.toNat ≤ 1000 →
    exec (.ftlGcCfgWrite (.session i) (0#2 ++ hi ++ lo ++ crit)) s =
      .next (respondOne { s with ftl := { s.ftl with freeHi := hi, freeLo := lo, freeCrit := crit } } (.session i) 0x000B0020 .ok)) ∧
  (∀ (s : State) (i : BitVec 3) (hi lo crit : BitVec 10), Operator s i → (lo ≤ crit ∨ hi ≤ lo ∨ 1000 < hi.toNat) →
    exec (.ftlGcCfgWrite (.session i) (0#2 ++ hi ++ lo ++ crit)) s = .next (respondOne s (.session i) 0x000B0020 .denied)) ∧
  (∀ (s : State) (i : BitVec 3) (d : Discovery), Operator s i → BlockFree s blkFtl → s.ftl.state = .offline → s.dry.image = none →
    targetsOk d.geom = true →
    Completes (.format (.session i) d) s fun t => t.ftl.state = .online ∧ t.ftl.rdonly = false ∧ t.ftl.map = [] ∧ t.ftl.journal = [] ∧
      t.ftl.gc = [] ∧ t.ftl.seals = [] ∧ t.ftl.geom = d.geom ∧ t.ftl.media.pages = [] ∧ t.obj.damagedExt = [] ∧
      t.obj.tab = s.obj.tab.filter (fun x => x.2.tier != 3) ∧ s.obj.nextSerial ≤ t.obj.nextSerial ∧
      t.ftl.media.committed = [(s.ftl.nextJ, .format t.ftl.l), (s.ftl.nextJ + 1, .serial t.obj.nextSerial)] ∧ t.mem = s.mem ∧
      t.out = answered s (.session i) 0x000B0040 .ok) ∧
  (∀ (s : State) (i : BitVec 3) (d : Discovery), Operator s i → BlockFree s blkFtl → (s.ftl.state ≠ .offline ∨ targetsOk d.geom = false) →
    exec (.format (.session i) d) s = .next (respondOne s (.session i) 0x000B0040 .denied))
end

