-- ==== Sys2Proof/Laws/State.lean ====
section
/-! SUPPORT. Each named update of the state, field by field: what it leaves as it was. -/

namespace Sys2Proof.Machine
variable (s : State)

@[simp] theorem emit_counter (o : Out) : (emit s o).counter = s.counter := rfl
@[simp] theorem emit_ing (o : Out) : (emit s o).ing = s.ing := rfl
@[simp] theorem emit_egr (o : Out) : (emit s o).egr = s.egr := rfl
@[simp] theorem emit_cmb (o : Out) : (emit s o).cmb = s.cmb := rfl
@[simp] theorem emit_coh (o : Out) : (emit s o).coh = s.coh := rfl
@[simp] theorem emit_eng (o : Out) : (emit s o).eng = s.eng := rfl
@[simp] theorem emit_acc (o : Out) : (emit s o).acc = s.acc := rfl
@[simp] theorem emit_obj (o : Out) : (emit s o).obj = s.obj := rfl
@[simp] theorem emit_ftl (o : Out) : (emit s o).ftl = s.ftl := rfl
@[simp] theorem emit_dry (o : Out) : (emit s o).dry = s.dry := rfl
@[simp] theorem emit_lse (o : Out) : (emit s o).lse = s.lse := rfl
@[simp] theorem emit_lnk (o : Out) : (emit s o).lnk = s.lnk := rfl
@[simp] theorem emit_swc (o : Out) : (emit s o).swc = s.swc := rfl
@[simp] theorem emit_shp (o : Out) : (emit s o).shp = s.shp := rfl
@[simp] theorem emit_sec (o : Out) : (emit s o).sec = s.sec := rfl
@[simp] theorem emit_pwr (o : Out) : (emit s o).pwr = s.pwr := rfl
@[simp] theorem emit_boot (o : Out) : (emit s o).boot = s.boot := rfl
@[simp] theorem emit_err (o : Out) : (emit s o).err = s.err := rfl
@[simp] theorem emit_hp (o : Out) : (emit s o).hp = s.hp := rfl
@[simp] theorem emit_mg (o : Out) : (emit s o).mg = s.mg := rfl
@[simp] theorem emit_pins (o : Out) : (emit s o).pins = s.pins := rfl
@[simp] theorem emit_mem (o : Out) : (emit s o).mem = s.mem := rfl
@[simp] theorem emit_free (o : Out) : (emit s o).free = s.free := rfl
@[simp] theorem emit_pending (o : Out) : (emit s o).pending = s.pending := rfl

@[simp] theorem emits_counter (os : List Out) : (emits s os).counter = s.counter := rfl
@[simp] theorem emits_ing (os : List Out) : (emits s os).ing = s.ing := rfl
@[simp] theorem emits_egr (os : List Out) : (emits s os).egr = s.egr := rfl
@[simp] theorem emits_cmb (os : List Out) : (emits s os).cmb = s.cmb := rfl
@[simp] theorem emits_coh (os : List Out) : (emits s os).coh = s.coh := rfl
@[simp] theorem emits_eng (os : List Out) : (emits s os).eng = s.eng := rfl
@[simp] theorem emits_acc (os : List Out) : (emits s os).acc = s.acc := rfl
@[simp] theorem emits_obj (os : List Out) : (emits s os).obj = s.obj := rfl
@[simp] theorem emits_ftl (os : List Out) : (emits s os).ftl = s.ftl := rfl
@[simp] theorem emits_dry (os : List Out) : (emits s os).dry = s.dry := rfl
@[simp] theorem emits_lse (os : List Out) : (emits s os).lse = s.lse := rfl
@[simp] theorem emits_lnk (os : List Out) : (emits s os).lnk = s.lnk := rfl
@[simp] theorem emits_swc (os : List Out) : (emits s os).swc = s.swc := rfl
@[simp] theorem emits_shp (os : List Out) : (emits s os).shp = s.shp := rfl
@[simp] theorem emits_sec (os : List Out) : (emits s os).sec = s.sec := rfl
@[simp] theorem emits_pwr (os : List Out) : (emits s os).pwr = s.pwr := rfl
@[simp] theorem emits_boot (os : List Out) : (emits s os).boot = s.boot := rfl
@[simp] theorem emits_err (os : List Out) : (emits s os).err = s.err := rfl
@[simp] theorem emits_hp (os : List Out) : (emits s os).hp = s.hp := rfl
@[simp] theorem emits_mg (os : List Out) : (emits s os).mg = s.mg := rfl
@[simp] theorem emits_pins (os : List Out) : (emits s os).pins = s.pins := rfl
@[simp] theorem emits_mem (os : List Out) : (emits s os).mem = s.mem := rfl
@[simp] theorem emits_free (os : List Out) : (emits s os).free = s.free := rfl
@[simp] theorem emits_pending (os : List Out) : (emits s os).pending = s.pending := rfl

@[simp] theorem notify_counter (d : DevId) (n : Notice) : (notify s d n).counter = s.counter := rfl
@[simp] theorem notify_ing (d : DevId) (n : Notice) : (notify s d n).ing = s.ing := rfl
@[simp] theorem notify_egr (d : DevId) (n : Notice) : (notify s d n).egr = s.egr := rfl
@[simp] theorem notify_cmb (d : DevId) (n : Notice) : (notify s d n).cmb = s.cmb := rfl
@[simp] theorem notify_coh (d : DevId) (n : Notice) : (notify s d n).coh = s.coh := rfl
@[simp] theorem notify_eng (d : DevId) (n : Notice) : (notify s d n).eng = s.eng := rfl
@[simp] theorem notify_acc (d : DevId) (n : Notice) : (notify s d n).acc = s.acc := rfl
@[simp] theorem notify_obj (d : DevId) (n : Notice) : (notify s d n).obj = s.obj := rfl
@[simp] theorem notify_ftl (d : DevId) (n : Notice) : (notify s d n).ftl = s.ftl := rfl
@[simp] theorem notify_dry (d : DevId) (n : Notice) : (notify s d n).dry = s.dry := rfl
@[simp] theorem notify_lse (d : DevId) (n : Notice) : (notify s d n).lse = s.lse := rfl
@[simp] theorem notify_lnk (d : DevId) (n : Notice) : (notify s d n).lnk = s.lnk := rfl
@[simp] theorem notify_swc (d : DevId) (n : Notice) : (notify s d n).swc = s.swc := rfl
@[simp] theorem notify_shp (d : DevId) (n : Notice) : (notify s d n).shp = s.shp := rfl
@[simp] theorem notify_sec (d : DevId) (n : Notice) : (notify s d n).sec = s.sec := rfl
@[simp] theorem notify_pwr (d : DevId) (n : Notice) : (notify s d n).pwr = s.pwr := rfl
@[simp] theorem notify_boot (d : DevId) (n : Notice) : (notify s d n).boot = s.boot := rfl
@[simp] theorem notify_err (d : DevId) (n : Notice) : (notify s d n).err = s.err := rfl
@[simp] theorem notify_hp (d : DevId) (n : Notice) : (notify s d n).hp = s.hp := rfl
@[simp] theorem notify_mg (d : DevId) (n : Notice) : (notify s d n).mg = s.mg := rfl
@[simp] theorem notify_pins (d : DevId) (n : Notice) : (notify s d n).pins = s.pins := rfl
@[simp] theorem notify_mem (d : DevId) (n : Notice) : (notify s d n).mem = s.mem := rfl
@[simp] theorem notify_free (d : DevId) (n : Notice) : (notify s d n).free = s.free := rfl
@[simp] theorem notify_pending (d : DevId) (n : Notice) : (notify s d n).pending = s.pending := rfl

@[simp] theorem notifyAll_counter (n : Notice) : (notifyAll s n).counter = s.counter := rfl
@[simp] theorem notifyAll_ing (n : Notice) : (notifyAll s n).ing = s.ing := rfl
@[simp] theorem notifyAll_egr (n : Notice) : (notifyAll s n).egr = s.egr := rfl
@[simp] theorem notifyAll_cmb (n : Notice) : (notifyAll s n).cmb = s.cmb := rfl
@[simp] theorem notifyAll_coh (n : Notice) : (notifyAll s n).coh = s.coh := rfl
@[simp] theorem notifyAll_eng (n : Notice) : (notifyAll s n).eng = s.eng := rfl
@[simp] theorem notifyAll_acc (n : Notice) : (notifyAll s n).acc = s.acc := rfl
@[simp] theorem notifyAll_obj (n : Notice) : (notifyAll s n).obj = s.obj := rfl
@[simp] theorem notifyAll_ftl (n : Notice) : (notifyAll s n).ftl = s.ftl := rfl
@[simp] theorem notifyAll_dry (n : Notice) : (notifyAll s n).dry = s.dry := rfl
@[simp] theorem notifyAll_lse (n : Notice) : (notifyAll s n).lse = s.lse := rfl
@[simp] theorem notifyAll_lnk (n : Notice) : (notifyAll s n).lnk = s.lnk := rfl
@[simp] theorem notifyAll_swc (n : Notice) : (notifyAll s n).swc = s.swc := rfl
@[simp] theorem notifyAll_shp (n : Notice) : (notifyAll s n).shp = s.shp := rfl
@[simp] theorem notifyAll_sec (n : Notice) : (notifyAll s n).sec = s.sec := rfl
@[simp] theorem notifyAll_pwr (n : Notice) : (notifyAll s n).pwr = s.pwr := rfl
@[simp] theorem notifyAll_boot (n : Notice) : (notifyAll s n).boot = s.boot := rfl
@[simp] theorem notifyAll_err (n : Notice) : (notifyAll s n).err = s.err := rfl
@[simp] theorem notifyAll_hp (n : Notice) : (notifyAll s n).hp = s.hp := rfl
@[simp] theorem notifyAll_mg (n : Notice) : (notifyAll s n).mg = s.mg := rfl
@[simp] theorem notifyAll_pins (n : Notice) : (notifyAll s n).pins = s.pins := rfl
@[simp] theorem notifyAll_mem (n : Notice) : (notifyAll s n).mem = s.mem := rfl
@[simp] theorem notifyAll_free (n : Notice) : (notifyAll s n).free = s.free := rfl
@[simp] theorem notifyAll_pending (n : Notice) : (notifyAll s n).pending = s.pending := rfl

@[simp] theorem takeFree_counter (n : Nat) : (takeFree s n).counter = s.counter := rfl
@[simp] theorem takeFree_ing (n : Nat) : (takeFree s n).ing = s.ing := rfl
@[simp] theorem takeFree_egr (n : Nat) : (takeFree s n).egr = s.egr := rfl
@[simp] theorem takeFree_cmb (n : Nat) : (takeFree s n).cmb = s.cmb := rfl
@[simp] theorem takeFree_coh (n : Nat) : (takeFree s n).coh = s.coh := rfl
@[simp] theorem takeFree_eng (n : Nat) : (takeFree s n).eng = s.eng := rfl
@[simp] theorem takeFree_acc (n : Nat) : (takeFree s n).acc = s.acc := rfl
@[simp] theorem takeFree_obj (n : Nat) : (takeFree s n).obj = s.obj := rfl
@[simp] theorem takeFree_ftl (n : Nat) : (takeFree s n).ftl = s.ftl := rfl
@[simp] theorem takeFree_dry (n : Nat) : (takeFree s n).dry = s.dry := rfl
@[simp] theorem takeFree_lse (n : Nat) : (takeFree s n).lse = s.lse := rfl
@[simp] theorem takeFree_lnk (n : Nat) : (takeFree s n).lnk = s.lnk := rfl
@[simp] theorem takeFree_swc (n : Nat) : (takeFree s n).swc = s.swc := rfl
@[simp] theorem takeFree_shp (n : Nat) : (takeFree s n).shp = s.shp := rfl
@[simp] theorem takeFree_sec (n : Nat) : (takeFree s n).sec = s.sec := rfl
@[simp] theorem takeFree_pwr (n : Nat) : (takeFree s n).pwr = s.pwr := rfl
@[simp] theorem takeFree_boot (n : Nat) : (takeFree s n).boot = s.boot := rfl
@[simp] theorem takeFree_err (n : Nat) : (takeFree s n).err = s.err := rfl
@[simp] theorem takeFree_hp (n : Nat) : (takeFree s n).hp = s.hp := rfl
@[simp] theorem takeFree_mg (n : Nat) : (takeFree s n).mg = s.mg := rfl
@[simp] theorem takeFree_pins (n : Nat) : (takeFree s n).pins = s.pins := rfl
@[simp] theorem takeFree_mem (n : Nat) : (takeFree s n).mem = s.mem := rfl
@[simp] theorem takeFree_out (n : Nat) : (takeFree s n).out = s.out := rfl
@[simp] theorem takeFree_pending (n : Nat) : (takeFree s n).pending = s.pending := rfl

@[simp] theorem respondOne_counter (w : Who) (a : Word) (st : Status) : (respondOne s w a st).counter = s.counter := rfl
@[simp] theorem respondOne_ing (w : Who) (a : Word) (st : Status) : (respondOne s w a st).ing = s.ing := rfl
@[simp] theorem respondOne_egr (w : Who) (a : Word) (st : Status) : (respondOne s w a st).egr = s.egr := rfl
@[simp] theorem respondOne_cmb (w : Who) (a : Word) (st : Status) : (respondOne s w a st).cmb = s.cmb := rfl
@[simp] theorem respondOne_coh (w : Who) (a : Word) (st : Status) : (respondOne s w a st).coh = s.coh := rfl
@[simp] theorem respondOne_eng (w : Who) (a : Word) (st : Status) : (respondOne s w a st).eng = s.eng := rfl
@[simp] theorem respondOne_acc (w : Who) (a : Word) (st : Status) : (respondOne s w a st).acc = s.acc := rfl
@[simp] theorem respondOne_obj (w : Who) (a : Word) (st : Status) : (respondOne s w a st).obj = s.obj := rfl
@[simp] theorem respondOne_ftl (w : Who) (a : Word) (st : Status) : (respondOne s w a st).ftl = s.ftl := rfl
@[simp] theorem respondOne_dry (w : Who) (a : Word) (st : Status) : (respondOne s w a st).dry = s.dry := rfl
@[simp] theorem respondOne_lse (w : Who) (a : Word) (st : Status) : (respondOne s w a st).lse = s.lse := rfl
@[simp] theorem respondOne_lnk (w : Who) (a : Word) (st : Status) : (respondOne s w a st).lnk = s.lnk := rfl
@[simp] theorem respondOne_swc (w : Who) (a : Word) (st : Status) : (respondOne s w a st).swc = s.swc := rfl
@[simp] theorem respondOne_shp (w : Who) (a : Word) (st : Status) : (respondOne s w a st).shp = s.shp := rfl
@[simp] theorem respondOne_sec (w : Who) (a : Word) (st : Status) : (respondOne s w a st).sec = s.sec := rfl
@[simp] theorem respondOne_pwr (w : Who) (a : Word) (st : Status) : (respondOne s w a st).pwr = s.pwr := rfl
@[simp] theorem respondOne_boot (w : Who) (a : Word) (st : Status) : (respondOne s w a st).boot = s.boot := rfl
@[simp] theorem respondOne_err (w : Who) (a : Word) (st : Status) : (respondOne s w a st).err = s.err := rfl
@[simp] theorem respondOne_hp (w : Who) (a : Word) (st : Status) : (respondOne s w a st).hp = s.hp := rfl
@[simp] theorem respondOne_mg (w : Who) (a : Word) (st : Status) : (respondOne s w a st).mg = s.mg := rfl
@[simp] theorem respondOne_pins (w : Who) (a : Word) (st : Status) : (respondOne s w a st).pins = s.pins := rfl
@[simp] theorem respondOne_mem (w : Who) (a : Word) (st : Status) : (respondOne s w a st).mem = s.mem := rfl
@[simp] theorem respondOne_free (w : Who) (a : Word) (st : Status) : (respondOne s w a st).free = s.free := rfl
@[simp] theorem respondOne_pending (w : Who) (a : Word) (st : Status) : (respondOne s w a st).pending = s.pending := rfl

@[simp] theorem setAlert_counter (k : Nat) : (setAlert s k).counter = s.counter := rfl
@[simp] theorem setAlert_ing (k : Nat) : (setAlert s k).ing = s.ing := rfl
@[simp] theorem setAlert_egr (k : Nat) : (setAlert s k).egr = s.egr := rfl
@[simp] theorem setAlert_cmb (k : Nat) : (setAlert s k).cmb = s.cmb := rfl
@[simp] theorem setAlert_coh (k : Nat) : (setAlert s k).coh = s.coh := rfl
@[simp] theorem setAlert_eng (k : Nat) : (setAlert s k).eng = s.eng := rfl
@[simp] theorem setAlert_acc (k : Nat) : (setAlert s k).acc = s.acc := rfl
@[simp] theorem setAlert_obj (k : Nat) : (setAlert s k).obj = s.obj := rfl
@[simp] theorem setAlert_ftl (k : Nat) : (setAlert s k).ftl = s.ftl := rfl
@[simp] theorem setAlert_dry (k : Nat) : (setAlert s k).dry = s.dry := rfl
@[simp] theorem setAlert_lse (k : Nat) : (setAlert s k).lse = s.lse := rfl
@[simp] theorem setAlert_lnk (k : Nat) : (setAlert s k).lnk = s.lnk := rfl
@[simp] theorem setAlert_swc (k : Nat) : (setAlert s k).swc = s.swc := rfl
@[simp] theorem setAlert_shp (k : Nat) : (setAlert s k).shp = s.shp := rfl
@[simp] theorem setAlert_sec (k : Nat) : (setAlert s k).sec = s.sec := rfl
@[simp] theorem setAlert_pwr (k : Nat) : (setAlert s k).pwr = s.pwr := rfl
@[simp] theorem setAlert_boot (k : Nat) : (setAlert s k).boot = s.boot := rfl
@[simp] theorem setAlert_hp (k : Nat) : (setAlert s k).hp = s.hp := rfl
@[simp] theorem setAlert_mg (k : Nat) : (setAlert s k).mg = s.mg := rfl
@[simp] theorem setAlert_pins (k : Nat) : (setAlert s k).pins = s.pins := rfl
@[simp] theorem setAlert_mem (k : Nat) : (setAlert s k).mem = s.mem := rfl
@[simp] theorem setAlert_free (k : Nat) : (setAlert s k).free = s.free := rfl
@[simp] theorem setAlert_out (k : Nat) : (setAlert s k).out = s.out := rfl
@[simp] theorem setAlert_pending (k : Nat) : (setAlert s k).pending = s.pending := rfl

@[simp] theorem memWrite_counter (a : Nat) (bs : List Byte) : (memWrite s a bs).counter = s.counter := rfl
@[simp] theorem memWrite_ing (a : Nat) (bs : List Byte) : (memWrite s a bs).ing = s.ing := rfl
@[simp] theorem memWrite_egr (a : Nat) (bs : List Byte) : (memWrite s a bs).egr = s.egr := rfl
@[simp] theorem memWrite_cmb (a : Nat) (bs : List Byte) : (memWrite s a bs).cmb = s.cmb := rfl
@[simp] theorem memWrite_coh (a : Nat) (bs : List Byte) : (memWrite s a bs).coh = s.coh := rfl
@[simp] theorem memWrite_eng (a : Nat) (bs : List Byte) : (memWrite s a bs).eng = s.eng := rfl
@[simp] theorem memWrite_acc (a : Nat) (bs : List Byte) : (memWrite s a bs).acc = s.acc := rfl
@[simp] theorem memWrite_obj (a : Nat) (bs : List Byte) : (memWrite s a bs).obj = s.obj := rfl
@[simp] theorem memWrite_ftl (a : Nat) (bs : List Byte) : (memWrite s a bs).ftl = s.ftl := rfl
@[simp] theorem memWrite_dry (a : Nat) (bs : List Byte) : (memWrite s a bs).dry = s.dry := rfl
@[simp] theorem memWrite_lse (a : Nat) (bs : List Byte) : (memWrite s a bs).lse = s.lse := rfl
@[simp] theorem memWrite_lnk (a : Nat) (bs : List Byte) : (memWrite s a bs).lnk = s.lnk := rfl
@[simp] theorem memWrite_swc (a : Nat) (bs : List Byte) : (memWrite s a bs).swc = s.swc := rfl
@[simp] theorem memWrite_shp (a : Nat) (bs : List Byte) : (memWrite s a bs).shp = s.shp := rfl
@[simp] theorem memWrite_sec (a : Nat) (bs : List Byte) : (memWrite s a bs).sec = s.sec := rfl
@[simp] theorem memWrite_pwr (a : Nat) (bs : List Byte) : (memWrite s a bs).pwr = s.pwr := rfl
@[simp] theorem memWrite_boot (a : Nat) (bs : List Byte) : (memWrite s a bs).boot = s.boot := rfl
@[simp] theorem memWrite_err (a : Nat) (bs : List Byte) : (memWrite s a bs).err = s.err := rfl
@[simp] theorem memWrite_hp (a : Nat) (bs : List Byte) : (memWrite s a bs).hp = s.hp := rfl
@[simp] theorem memWrite_mg (a : Nat) (bs : List Byte) : (memWrite s a bs).mg = s.mg := rfl
@[simp] theorem memWrite_pins (a : Nat) (bs : List Byte) : (memWrite s a bs).pins = s.pins := rfl
@[simp] theorem memWrite_free (a : Nat) (bs : List Byte) : (memWrite s a bs).free = s.free := rfl
@[simp] theorem memWrite_out (a : Nat) (bs : List Byte) : (memWrite s a bs).out = s.out := rfl
@[simp] theorem memWrite_pending (a : Nat) (bs : List Byte) : (memWrite s a bs).pending = s.pending := rfl

@[simp] theorem unpoison_counter (n : Nat) : (unpoison s n).counter = s.counter := rfl
@[simp] theorem unpoison_ing (n : Nat) : (unpoison s n).ing = s.ing := rfl
@[simp] theorem unpoison_egr (n : Nat) : (unpoison s n).egr = s.egr := rfl
@[simp] theorem unpoison_cmb (n : Nat) : (unpoison s n).cmb = s.cmb := rfl
@[simp] theorem unpoison_coh (n : Nat) : (unpoison s n).coh = s.coh := rfl
@[simp] theorem unpoison_eng (n : Nat) : (unpoison s n).eng = s.eng := rfl
@[simp] theorem unpoison_acc (n : Nat) : (unpoison s n).acc = s.acc := rfl
@[simp] theorem unpoison_obj (n : Nat) : (unpoison s n).obj = s.obj := rfl
@[simp] theorem unpoison_ftl (n : Nat) : (unpoison s n).ftl = s.ftl := rfl
@[simp] theorem unpoison_dry (n : Nat) : (unpoison s n).dry = s.dry := rfl
@[simp] theorem unpoison_lse (n : Nat) : (unpoison s n).lse = s.lse := rfl
@[simp] theorem unpoison_lnk (n : Nat) : (unpoison s n).lnk = s.lnk := rfl
@[simp] theorem unpoison_swc (n : Nat) : (unpoison s n).swc = s.swc := rfl
@[simp] theorem unpoison_shp (n : Nat) : (unpoison s n).shp = s.shp := rfl
@[simp] theorem unpoison_sec (n : Nat) : (unpoison s n).sec = s.sec := rfl
@[simp] theorem unpoison_pwr (n : Nat) : (unpoison s n).pwr = s.pwr := rfl
@[simp] theorem unpoison_boot (n : Nat) : (unpoison s n).boot = s.boot := rfl
@[simp] theorem unpoison_err (n : Nat) : (unpoison s n).err = s.err := rfl
@[simp] theorem unpoison_hp (n : Nat) : (unpoison s n).hp = s.hp := rfl
@[simp] theorem unpoison_mg (n : Nat) : (unpoison s n).mg = s.mg := rfl
@[simp] theorem unpoison_pins (n : Nat) : (unpoison s n).pins = s.pins := rfl
@[simp] theorem unpoison_free (n : Nat) : (unpoison s n).free = s.free := rfl
@[simp] theorem unpoison_out (n : Nat) : (unpoison s n).out = s.out := rfl
@[simp] theorem unpoison_pending (n : Nat) : (unpoison s n).pending = s.pending := rfl

@[simp] theorem zeroRange_counter (a n : Nat) : (zeroRange s a n).counter = s.counter := rfl
@[simp] theorem zeroRange_ing (a n : Nat) : (zeroRange s a n).ing = s.ing := rfl
@[simp] theorem zeroRange_egr (a n : Nat) : (zeroRange s a n).egr = s.egr := rfl
@[simp] theorem zeroRange_cmb (a n : Nat) : (zeroRange s a n).cmb = s.cmb := rfl
@[simp] theorem zeroRange_coh (a n : Nat) : (zeroRange s a n).coh = s.coh := rfl
@[simp] theorem zeroRange_eng (a n : Nat) : (zeroRange s a n).eng = s.eng := rfl
@[simp] theorem zeroRange_acc (a n : Nat) : (zeroRange s a n).acc = s.acc := rfl
@[simp] theorem zeroRange_obj (a n : Nat) : (zeroRange s a n).obj = s.obj := rfl
@[simp] theorem zeroRange_ftl (a n : Nat) : (zeroRange s a n).ftl = s.ftl := rfl
@[simp] theorem zeroRange_dry (a n : Nat) : (zeroRange s a n).dry = s.dry := rfl
@[simp] theorem zeroRange_lse (a n : Nat) : (zeroRange s a n).lse = s.lse := rfl
@[simp] theorem zeroRange_lnk (a n : Nat) : (zeroRange s a n).lnk = s.lnk := rfl
@[simp] theorem zeroRange_swc (a n : Nat) : (zeroRange s a n).swc = s.swc := rfl
@[simp] theorem zeroRange_shp (a n : Nat) : (zeroRange s a n).shp = s.shp := rfl
@[simp] theorem zeroRange_sec (a n : Nat) : (zeroRange s a n).sec = s.sec := rfl
@[simp] theorem zeroRange_pwr (a n : Nat) : (zeroRange s a n).pwr = s.pwr := rfl
@[simp] theorem zeroRange_boot (a n : Nat) : (zeroRange s a n).boot = s.boot := rfl
@[simp] theorem zeroRange_err (a n : Nat) : (zeroRange s a n).err = s.err := rfl
@[simp] theorem zeroRange_hp (a n : Nat) : (zeroRange s a n).hp = s.hp := rfl
@[simp] theorem zeroRange_mg (a n : Nat) : (zeroRange s a n).mg = s.mg := rfl
@[simp] theorem zeroRange_pins (a n : Nat) : (zeroRange s a n).pins = s.pins := rfl
@[simp] theorem zeroRange_free (a n : Nat) : (zeroRange s a n).free = s.free := rfl
@[simp] theorem zeroRange_out (a n : Nat) : (zeroRange s a n).out = s.out := rfl
@[simp] theorem zeroRange_pending (a n : Nat) : (zeroRange s a n).pending = s.pending := rfl

@[simp] theorem poisonLine_counter (n : Nat) : (poisonLine s n).counter = s.counter := by unfold poisonLine; split <;> rfl
@[simp] theorem poisonLine_ing (n : Nat) : (poisonLine s n).ing = s.ing := by unfold poisonLine; split <;> rfl
@[simp] theorem poisonLine_egr (n : Nat) : (poisonLine s n).egr = s.egr := by unfold poisonLine; split <;> rfl
@[simp] theorem poisonLine_cmb (n : Nat) : (poisonLine s n).cmb = s.cmb := by unfold poisonLine; split <;> rfl
@[simp] theorem poisonLine_coh (n : Nat) : (poisonLine s n).coh = s.coh := by unfold poisonLine; split <;> rfl
@[simp] theorem poisonLine_eng (n : Nat) : (poisonLine s n).eng = s.eng := by unfold poisonLine; split <;> rfl
@[simp] theorem poisonLine_acc (n : Nat) : (poisonLine s n).acc = s.acc := by unfold poisonLine; split <;> rfl
@[simp] theorem poisonLine_obj (n : Nat) : (poisonLine s n).obj = s.obj := by unfold poisonLine; split <;> rfl
@[simp] theorem poisonLine_ftl (n : Nat) : (poisonLine s n).ftl = s.ftl := by unfold poisonLine; split <;> rfl
@[simp] theorem poisonLine_dry (n : Nat) : (poisonLine s n).dry = s.dry := by unfold poisonLine; split <;> rfl
@[simp] theorem poisonLine_lse (n : Nat) : (poisonLine s n).lse = s.lse := by unfold poisonLine; split <;> rfl
@[simp] theorem poisonLine_lnk (n : Nat) : (poisonLine s n).lnk = s.lnk := by unfold poisonLine; split <;> rfl
@[simp] theorem poisonLine_swc (n : Nat) : (poisonLine s n).swc = s.swc := by unfold poisonLine; split <;> rfl
@[simp] theorem poisonLine_shp (n : Nat) : (poisonLine s n).shp = s.shp := by unfold poisonLine; split <;> rfl
@[simp] theorem poisonLine_sec (n : Nat) : (poisonLine s n).sec = s.sec := by unfold poisonLine; split <;> rfl
@[simp] theorem poisonLine_pwr (n : Nat) : (poisonLine s n).pwr = s.pwr := by unfold poisonLine; split <;> rfl
@[simp] theorem poisonLine_boot (n : Nat) : (poisonLine s n).boot = s.boot := by unfold poisonLine; split <;> rfl
@[simp] theorem poisonLine_err (n : Nat) : (poisonLine s n).err = s.err := by unfold poisonLine; split <;> rfl
@[simp] theorem poisonLine_hp (n : Nat) : (poisonLine s n).hp = s.hp := by unfold poisonLine; split <;> rfl
@[simp] theorem poisonLine_mg (n : Nat) : (poisonLine s n).mg = s.mg := by unfold poisonLine; split <;> rfl
@[simp] theorem poisonLine_pins (n : Nat) : (poisonLine s n).pins = s.pins := by unfold poisonLine; split <;> rfl
@[simp] theorem poisonLine_free (n : Nat) : (poisonLine s n).free = s.free := by unfold poisonLine; split <;> rfl
@[simp] theorem poisonLine_out (n : Nat) : (poisonLine s n).out = s.out := by unfold poisonLine; split <;> rfl
@[simp] theorem poisonLine_pending (n : Nat) : (poisonLine s n).pending = s.pending := by unfold poisonLine; split <;> rfl

@[simp] theorem modPort_counter (p : PortNo) (f : PortRec → PortRec) : (modPort s p f).counter = s.counter := by unfold modPort; split <;> rfl
@[simp] theorem modPort_ing (p : PortNo) (f : PortRec → PortRec) : (modPort s p f).ing = s.ing := by unfold modPort; split <;> rfl
@[simp] theorem modPort_egr (p : PortNo) (f : PortRec → PortRec) : (modPort s p f).egr = s.egr := by unfold modPort; split <;> rfl
@[simp] theorem modPort_cmb (p : PortNo) (f : PortRec → PortRec) : (modPort s p f).cmb = s.cmb := by unfold modPort; split <;> rfl
@[simp] theorem modPort_coh (p : PortNo) (f : PortRec → PortRec) : (modPort s p f).coh = s.coh := by unfold modPort; split <;> rfl
@[simp] theorem modPort_eng (p : PortNo) (f : PortRec → PortRec) : (modPort s p f).eng = s.eng := by unfold modPort; split <;> rfl
@[simp] theorem modPort_acc (p : PortNo) (f : PortRec → PortRec) : (modPort s p f).acc = s.acc := by unfold modPort; split <;> rfl
@[simp] theorem modPort_obj (p : PortNo) (f : PortRec → PortRec) : (modPort s p f).obj = s.obj := by unfold modPort; split <;> rfl
@[simp] theorem modPort_ftl (p : PortNo) (f : PortRec → PortRec) : (modPort s p f).ftl = s.ftl := by unfold modPort; split <;> rfl
@[simp] theorem modPort_dry (p : PortNo) (f : PortRec → PortRec) : (modPort s p f).dry = s.dry := by unfold modPort; split <;> rfl
@[simp] theorem modPort_lse (p : PortNo) (f : PortRec → PortRec) : (modPort s p f).lse = s.lse := by unfold modPort; split <;> rfl
@[simp] theorem modPort_swc (p : PortNo) (f : PortRec → PortRec) : (modPort s p f).swc = s.swc := by unfold modPort; split <;> rfl
@[simp] theorem modPort_shp (p : PortNo) (f : PortRec → PortRec) : (modPort s p f).shp = s.shp := by unfold modPort; split <;> rfl
@[simp] theorem modPort_sec (p : PortNo) (f : PortRec → PortRec) : (modPort s p f).sec = s.sec := by unfold modPort; split <;> rfl
@[simp] theorem modPort_pwr (p : PortNo) (f : PortRec → PortRec) : (modPort s p f).pwr = s.pwr := by unfold modPort; split <;> rfl
@[simp] theorem modPort_boot (p : PortNo) (f : PortRec → PortRec) : (modPort s p f).boot = s.boot := by unfold modPort; split <;> rfl
@[simp] theorem modPort_err (p : PortNo) (f : PortRec → PortRec) : (modPort s p f).err = s.err := by unfold modPort; split <;> rfl
@[simp] theorem modPort_hp (p : PortNo) (f : PortRec → PortRec) : (modPort s p f).hp = s.hp := by unfold modPort; split <;> rfl
@[simp] theorem modPort_mg (p : PortNo) (f : PortRec → PortRec) : (modPort s p f).mg = s.mg := by unfold modPort; split <;> rfl
@[simp] theorem modPort_pins (p : PortNo) (f : PortRec → PortRec) : (modPort s p f).pins = s.pins := by unfold modPort; split <;> rfl
@[simp] theorem modPort_mem (p : PortNo) (f : PortRec → PortRec) : (modPort s p f).mem = s.mem := by unfold modPort; split <;> rfl
@[simp] theorem modPort_free (p : PortNo) (f : PortRec → PortRec) : (modPort s p f).free = s.free := by unfold modPort; split <;> rfl
@[simp] theorem modPort_out (p : PortNo) (f : PortRec → PortRec) : (modPort s p f).out = s.out := by unfold modPort; split <;> rfl
@[simp] theorem modPort_pending (p : PortNo) (f : PortRec → PortRec) : (modPort s p f).pending = s.pending := by unfold modPort; split <;> rfl

@[simp] theorem modObj_counter (o : Oid) (f : Obj → Obj) : (modObj s o f).counter = s.counter := by unfold modObj; split <;> rfl
@[simp] theorem modObj_ing (o : Oid) (f : Obj → Obj) : (modObj s o f).ing = s.ing := by unfold modObj; split <;> rfl
@[simp] theorem modObj_egr (o : Oid) (f : Obj → Obj) : (modObj s o f).egr = s.egr := by unfold modObj; split <;> rfl
@[simp] theorem modObj_cmb (o : Oid) (f : Obj → Obj) : (modObj s o f).cmb = s.cmb := by unfold modObj; split <;> rfl
@[simp] theorem modObj_coh (o : Oid) (f : Obj → Obj) : (modObj s o f).coh = s.coh := by unfold modObj; split <;> rfl
@[simp] theorem modObj_eng (o : Oid) (f : Obj → Obj) : (modObj s o f).eng = s.eng := by unfold modObj; split <;> rfl
@[simp] theorem modObj_acc (o : Oid) (f : Obj → Obj) : (modObj s o f).acc = s.acc := by unfold modObj; split <;> rfl
@[simp] theorem modObj_ftl (o : Oid) (f : Obj → Obj) : (modObj s o f).ftl = s.ftl := by unfold modObj; split <;> rfl
@[simp] theorem modObj_dry (o : Oid) (f : Obj → Obj) : (modObj s o f).dry = s.dry := by unfold modObj; split <;> rfl
@[simp] theorem modObj_lse (o : Oid) (f : Obj → Obj) : (modObj s o f).lse = s.lse := by unfold modObj; split <;> rfl
@[simp] theorem modObj_lnk (o : Oid) (f : Obj → Obj) : (modObj s o f).lnk = s.lnk := by unfold modObj; split <;> rfl
@[simp] theorem modObj_swc (o : Oid) (f : Obj → Obj) : (modObj s o f).swc = s.swc := by unfold modObj; split <;> rfl
@[simp] theorem modObj_shp (o : Oid) (f : Obj → Obj) : (modObj s o f).shp = s.shp := by unfold modObj; split <;> rfl
@[simp] theorem modObj_sec (o : Oid) (f : Obj → Obj) : (modObj s o f).sec = s.sec := by unfold modObj; split <;> rfl
@[simp] theorem modObj_pwr (o : Oid) (f : Obj → Obj) : (modObj s o f).pwr = s.pwr := by unfold modObj; split <;> rfl
@[simp] theorem modObj_boot (o : Oid) (f : Obj → Obj) : (modObj s o f).boot = s.boot := by unfold modObj; split <;> rfl
@[simp] theorem modObj_err (o : Oid) (f : Obj → Obj) : (modObj s o f).err = s.err := by unfold modObj; split <;> rfl
@[simp] theorem modObj_hp (o : Oid) (f : Obj → Obj) : (modObj s o f).hp = s.hp := by unfold modObj; split <;> rfl
@[simp] theorem modObj_mg (o : Oid) (f : Obj → Obj) : (modObj s o f).mg = s.mg := by unfold modObj; split <;> rfl
@[simp] theorem modObj_pins (o : Oid) (f : Obj → Obj) : (modObj s o f).pins = s.pins := by unfold modObj; split <;> rfl
@[simp] theorem modObj_mem (o : Oid) (f : Obj → Obj) : (modObj s o f).mem = s.mem := by unfold modObj; split <;> rfl
@[simp] theorem modObj_free (o : Oid) (f : Obj → Obj) : (modObj s o f).free = s.free := by unfold modObj; split <;> rfl
@[simp] theorem modObj_out (o : Oid) (f : Obj → Obj) : (modObj s o f).out = s.out := by unfold modObj; split <;> rfl
@[simp] theorem modObj_pending (o : Oid) (f : Obj → Obj) : (modObj s o f).pending = s.pending := by unfold modObj; split <;> rfl

@[simp] theorem quotaAdd_counter (t : TenantId) (k : BitVec 2) (n : Nat) : (quotaAdd s t k n).counter = s.counter := rfl
@[simp] theorem quotaAdd_ing (t : TenantId) (k : BitVec 2) (n : Nat) : (quotaAdd s t k n).ing = s.ing := rfl
@[simp] theorem quotaAdd_egr (t : TenantId) (k : BitVec 2) (n : Nat) : (quotaAdd s t k n).egr = s.egr := rfl
@[simp] theorem quotaAdd_cmb (t : TenantId) (k : BitVec 2) (n : Nat) : (quotaAdd s t k n).cmb = s.cmb := rfl
@[simp] theorem quotaAdd_coh (t : TenantId) (k : BitVec 2) (n : Nat) : (quotaAdd s t k n).coh = s.coh := rfl
@[simp] theorem quotaAdd_eng (t : TenantId) (k : BitVec 2) (n : Nat) : (quotaAdd s t k n).eng = s.eng := rfl
@[simp] theorem quotaAdd_acc (t : TenantId) (k : BitVec 2) (n : Nat) : (quotaAdd s t k n).acc = s.acc := rfl
@[simp] theorem quotaAdd_ftl (t : TenantId) (k : BitVec 2) (n : Nat) : (quotaAdd s t k n).ftl = s.ftl := rfl
@[simp] theorem quotaAdd_dry (t : TenantId) (k : BitVec 2) (n : Nat) : (quotaAdd s t k n).dry = s.dry := rfl
@[simp] theorem quotaAdd_lse (t : TenantId) (k : BitVec 2) (n : Nat) : (quotaAdd s t k n).lse = s.lse := rfl
@[simp] theorem quotaAdd_lnk (t : TenantId) (k : BitVec 2) (n : Nat) : (quotaAdd s t k n).lnk = s.lnk := rfl
@[simp] theorem quotaAdd_swc (t : TenantId) (k : BitVec 2) (n : Nat) : (quotaAdd s t k n).swc = s.swc := rfl
@[simp] theorem quotaAdd_shp (t : TenantId) (k : BitVec 2) (n : Nat) : (quotaAdd s t k n).shp = s.shp := rfl
@[simp] theorem quotaAdd_sec (t : TenantId) (k : BitVec 2) (n : Nat) : (quotaAdd s t k n).sec = s.sec := rfl
@[simp] theorem quotaAdd_pwr (t : TenantId) (k : BitVec 2) (n : Nat) : (quotaAdd s t k n).pwr = s.pwr := rfl
@[simp] theorem quotaAdd_boot (t : TenantId) (k : BitVec 2) (n : Nat) : (quotaAdd s t k n).boot = s.boot := rfl
@[simp] theorem quotaAdd_err (t : TenantId) (k : BitVec 2) (n : Nat) : (quotaAdd s t k n).err = s.err := rfl
@[simp] theorem quotaAdd_hp (t : TenantId) (k : BitVec 2) (n : Nat) : (quotaAdd s t k n).hp = s.hp := rfl
@[simp] theorem quotaAdd_mg (t : TenantId) (k : BitVec 2) (n : Nat) : (quotaAdd s t k n).mg = s.mg := rfl
@[simp] theorem quotaAdd_pins (t : TenantId) (k : BitVec 2) (n : Nat) : (quotaAdd s t k n).pins = s.pins := rfl
@[simp] theorem quotaAdd_mem (t : TenantId) (k : BitVec 2) (n : Nat) : (quotaAdd s t k n).mem = s.mem := rfl
@[simp] theorem quotaAdd_free (t : TenantId) (k : BitVec 2) (n : Nat) : (quotaAdd s t k n).free = s.free := rfl
@[simp] theorem quotaAdd_out (t : TenantId) (k : BitVec 2) (n : Nat) : (quotaAdd s t k n).out = s.out := rfl
@[simp] theorem quotaAdd_pending (t : TenantId) (k : BitVec 2) (n : Nat) : (quotaAdd s t k n).pending = s.pending := rfl

@[simp] theorem quotaSub_counter (t : TenantId) (k : BitVec 2) (n : Nat) : (quotaSub s t k n).counter = s.counter := rfl
@[simp] theorem quotaSub_ing (t : TenantId) (k : BitVec 2) (n : Nat) : (quotaSub s t k n).ing = s.ing := rfl
@[simp] theorem quotaSub_egr (t : TenantId) (k : BitVec 2) (n : Nat) : (quotaSub s t k n).egr = s.egr := rfl
@[simp] theorem quotaSub_cmb (t : TenantId) (k : BitVec 2) (n : Nat) : (quotaSub s t k n).cmb = s.cmb := rfl
@[simp] theorem quotaSub_coh (t : TenantId) (k : BitVec 2) (n : Nat) : (quotaSub s t k n).coh = s.coh := rfl
@[simp] theorem quotaSub_eng (t : TenantId) (k : BitVec 2) (n : Nat) : (quotaSub s t k n).eng = s.eng := rfl
@[simp] theorem quotaSub_acc (t : TenantId) (k : BitVec 2) (n : Nat) : (quotaSub s t k n).acc = s.acc := rfl
@[simp] theorem quotaSub_ftl (t : TenantId) (k : BitVec 2) (n : Nat) : (quotaSub s t k n).ftl = s.ftl := rfl
@[simp] theorem quotaSub_dry (t : TenantId) (k : BitVec 2) (n : Nat) : (quotaSub s t k n).dry = s.dry := rfl
@[simp] theorem quotaSub_lse (t : TenantId) (k : BitVec 2) (n : Nat) : (quotaSub s t k n).lse = s.lse := rfl
@[simp] theorem quotaSub_lnk (t : TenantId) (k : BitVec 2) (n : Nat) : (quotaSub s t k n).lnk = s.lnk := rfl
@[simp] theorem quotaSub_swc (t : TenantId) (k : BitVec 2) (n : Nat) : (quotaSub s t k n).swc = s.swc := rfl
@[simp] theorem quotaSub_shp (t : TenantId) (k : BitVec 2) (n : Nat) : (quotaSub s t k n).shp = s.shp := rfl
@[simp] theorem quotaSub_sec (t : TenantId) (k : BitVec 2) (n : Nat) : (quotaSub s t k n).sec = s.sec := rfl
@[simp] theorem quotaSub_pwr (t : TenantId) (k : BitVec 2) (n : Nat) : (quotaSub s t k n).pwr = s.pwr := rfl
@[simp] theorem quotaSub_boot (t : TenantId) (k : BitVec 2) (n : Nat) : (quotaSub s t k n).boot = s.boot := rfl
@[simp] theorem quotaSub_err (t : TenantId) (k : BitVec 2) (n : Nat) : (quotaSub s t k n).err = s.err := rfl
@[simp] theorem quotaSub_hp (t : TenantId) (k : BitVec 2) (n : Nat) : (quotaSub s t k n).hp = s.hp := rfl
@[simp] theorem quotaSub_mg (t : TenantId) (k : BitVec 2) (n : Nat) : (quotaSub s t k n).mg = s.mg := rfl
@[simp] theorem quotaSub_pins (t : TenantId) (k : BitVec 2) (n : Nat) : (quotaSub s t k n).pins = s.pins := rfl
@[simp] theorem quotaSub_mem (t : TenantId) (k : BitVec 2) (n : Nat) : (quotaSub s t k n).mem = s.mem := rfl
@[simp] theorem quotaSub_free (t : TenantId) (k : BitVec 2) (n : Nat) : (quotaSub s t k n).free = s.free := rfl
@[simp] theorem quotaSub_out (t : TenantId) (k : BitVec 2) (n : Nat) : (quotaSub s t k n).out = s.out := rfl
@[simp] theorem quotaSub_pending (t : TenantId) (k : BitVec 2) (n : Nat) : (quotaSub s t k n).pending = s.pending := rfl

@[simp] theorem modBlk_counter (b : BlkAddr) (f : BlkRec → BlkRec) : (modBlk s b f).counter = s.counter := rfl
@[simp] theorem modBlk_ing (b : BlkAddr) (f : BlkRec → BlkRec) : (modBlk s b f).ing = s.ing := rfl
@[simp] theorem modBlk_egr (b : BlkAddr) (f : BlkRec → BlkRec) : (modBlk s b f).egr = s.egr := rfl
@[simp] theorem modBlk_cmb (b : BlkAddr) (f : BlkRec → BlkRec) : (modBlk s b f).cmb = s.cmb := rfl
@[simp] theorem modBlk_coh (b : BlkAddr) (f : BlkRec → BlkRec) : (modBlk s b f).coh = s.coh := rfl
@[simp] theorem modBlk_eng (b : BlkAddr) (f : BlkRec → BlkRec) : (modBlk s b f).eng = s.eng := rfl
@[simp] theorem modBlk_acc (b : BlkAddr) (f : BlkRec → BlkRec) : (modBlk s b f).acc = s.acc := rfl
@[simp] theorem modBlk_obj (b : BlkAddr) (f : BlkRec → BlkRec) : (modBlk s b f).obj = s.obj := rfl
@[simp] theorem modBlk_dry (b : BlkAddr) (f : BlkRec → BlkRec) : (modBlk s b f).dry = s.dry := rfl
@[simp] theorem modBlk_lse (b : BlkAddr) (f : BlkRec → BlkRec) : (modBlk s b f).lse = s.lse := rfl
@[simp] theorem modBlk_lnk (b : BlkAddr) (f : BlkRec → BlkRec) : (modBlk s b f).lnk = s.lnk := rfl
@[simp] theorem modBlk_swc (b : BlkAddr) (f : BlkRec → BlkRec) : (modBlk s b f).swc = s.swc := rfl
@[simp] theorem modBlk_shp (b : BlkAddr) (f : BlkRec → BlkRec) : (modBlk s b f).shp = s.shp := rfl
@[simp] theorem modBlk_sec (b : BlkAddr) (f : BlkRec → BlkRec) : (modBlk s b f).sec = s.sec := rfl
@[simp] theorem modBlk_pwr (b : BlkAddr) (f : BlkRec → BlkRec) : (modBlk s b f).pwr = s.pwr := rfl
@[simp] theorem modBlk_boot (b : BlkAddr) (f : BlkRec → BlkRec) : (modBlk s b f).boot = s.boot := rfl
@[simp] theorem modBlk_err (b : BlkAddr) (f : BlkRec → BlkRec) : (modBlk s b f).err = s.err := rfl
@[simp] theorem modBlk_hp (b : BlkAddr) (f : BlkRec → BlkRec) : (modBlk s b f).hp = s.hp := rfl
@[simp] theorem modBlk_mg (b : BlkAddr) (f : BlkRec → BlkRec) : (modBlk s b f).mg = s.mg := rfl
@[simp] theorem modBlk_pins (b : BlkAddr) (f : BlkRec → BlkRec) : (modBlk s b f).pins = s.pins := rfl
@[simp] theorem modBlk_mem (b : BlkAddr) (f : BlkRec → BlkRec) : (modBlk s b f).mem = s.mem := rfl
@[simp] theorem modBlk_free (b : BlkAddr) (f : BlkRec → BlkRec) : (modBlk s b f).free = s.free := rfl
@[simp] theorem modBlk_out (b : BlkAddr) (f : BlkRec → BlkRec) : (modBlk s b f).out = s.out := rfl
@[simp] theorem modBlk_pending (b : BlkAddr) (f : BlkRec → BlkRec) : (modBlk s b f).pending = s.pending := rfl

@[simp] theorem setMap_counter (n : Nat) (e : MapEnt) : (setMap s n e).counter = s.counter := rfl
@[simp] theorem setMap_ing (n : Nat) (e : MapEnt) : (setMap s n e).ing = s.ing := rfl
@[simp] theorem setMap_egr (n : Nat) (e : MapEnt) : (setMap s n e).egr = s.egr := rfl
@[simp] theorem setMap_cmb (n : Nat) (e : MapEnt) : (setMap s n e).cmb = s.cmb := rfl
@[simp] theorem setMap_coh (n : Nat) (e : MapEnt) : (setMap s n e).coh = s.coh := rfl
@[simp] theorem setMap_eng (n : Nat) (e : MapEnt) : (setMap s n e).eng = s.eng := rfl
@[simp] theorem setMap_acc (n : Nat) (e : MapEnt) : (setMap s n e).acc = s.acc := rfl
@[simp] theorem setMap_obj (n : Nat) (e : MapEnt) : (setMap s n e).obj = s.obj := rfl
@[simp] theorem setMap_dry (n : Nat) (e : MapEnt) : (setMap s n e).dry = s.dry := rfl
@[simp] theorem setMap_lse (n : Nat) (e : MapEnt) : (setMap s n e).lse = s.lse := rfl
@[simp] theorem setMap_lnk (n : Nat) (e : MapEnt) : (setMap s n e).lnk = s.lnk := rfl
@[simp] theorem setMap_swc (n : Nat) (e : MapEnt) : (setMap s n e).swc = s.swc := rfl
@[simp] theorem setMap_shp (n : Nat) (e : MapEnt) : (setMap s n e).shp = s.shp := rfl
@[simp] theorem setMap_sec (n : Nat) (e : MapEnt) : (setMap s n e).sec = s.sec := rfl
@[simp] theorem setMap_pwr (n : Nat) (e : MapEnt) : (setMap s n e).pwr = s.pwr := rfl
@[simp] theorem setMap_boot (n : Nat) (e : MapEnt) : (setMap s n e).boot = s.boot := rfl
@[simp] theorem setMap_hp (n : Nat) (e : MapEnt) : (setMap s n e).hp = s.hp := rfl
@[simp] theorem setMap_mg (n : Nat) (e : MapEnt) : (setMap s n e).mg = s.mg := rfl
@[simp] theorem setMap_pins (n : Nat) (e : MapEnt) : (setMap s n e).pins = s.pins := rfl
@[simp] theorem setMap_mem (n : Nat) (e : MapEnt) : (setMap s n e).mem = s.mem := rfl
@[simp] theorem setMap_free (n : Nat) (e : MapEnt) : (setMap s n e).free = s.free := rfl
@[simp] theorem setMap_out (n : Nat) (e : MapEnt) : (setMap s n e).out = s.out := rfl
@[simp] theorem setMap_pending (n : Nat) (e : MapEnt) : (setMap s n e).pending = s.pending := rfl

@[simp] theorem jAdd_counter (b : JBody) (a : List PageAddr) (r : Bool) (w : Option Req) : (jAdd s b a r w).counter = s.counter := rfl
@[simp] theorem jAdd_ing (b : JBody) (a : List PageAddr) (r : Bool) (w : Option Req) : (jAdd s b a r w).ing = s.ing := rfl
@[simp] theorem jAdd_egr (b : JBody) (a : List PageAddr) (r : Bool) (w : Option Req) : (jAdd s b a r w).egr = s.egr := rfl
@[simp] theorem jAdd_cmb (b : JBody) (a : List PageAddr) (r : Bool) (w : Option Req) : (jAdd s b a r w).cmb = s.cmb := rfl
@[simp] theorem jAdd_coh (b : JBody) (a : List PageAddr) (r : Bool) (w : Option Req) : (jAdd s b a r w).coh = s.coh := rfl
@[simp] theorem jAdd_eng (b : JBody) (a : List PageAddr) (r : Bool) (w : Option Req) : (jAdd s b a r w).eng = s.eng := rfl
@[simp] theorem jAdd_acc (b : JBody) (a : List PageAddr) (r : Bool) (w : Option Req) : (jAdd s b a r w).acc = s.acc := rfl
@[simp] theorem jAdd_obj (b : JBody) (a : List PageAddr) (r : Bool) (w : Option Req) : (jAdd s b a r w).obj = s.obj := rfl
@[simp] theorem jAdd_dry (b : JBody) (a : List PageAddr) (r : Bool) (w : Option Req) : (jAdd s b a r w).dry = s.dry := rfl
@[simp] theorem jAdd_lse (b : JBody) (a : List PageAddr) (r : Bool) (w : Option Req) : (jAdd s b a r w).lse = s.lse := rfl
@[simp] theorem jAdd_lnk (b : JBody) (a : List PageAddr) (r : Bool) (w : Option Req) : (jAdd s b a r w).lnk = s.lnk := rfl
@[simp] theorem jAdd_swc (b : JBody) (a : List PageAddr) (r : Bool) (w : Option Req) : (jAdd s b a r w).swc = s.swc := rfl
@[simp] theorem jAdd_shp (b : JBody) (a : List PageAddr) (r : Bool) (w : Option Req) : (jAdd s b a r w).shp = s.shp := rfl
@[simp] theorem jAdd_sec (b : JBody) (a : List PageAddr) (r : Bool) (w : Option Req) : (jAdd s b a r w).sec = s.sec := rfl
@[simp] theorem jAdd_pwr (b : JBody) (a : List PageAddr) (r : Bool) (w : Option Req) : (jAdd s b a r w).pwr = s.pwr := rfl
@[simp] theorem jAdd_boot (b : JBody) (a : List PageAddr) (r : Bool) (w : Option Req) : (jAdd s b a r w).boot = s.boot := rfl
@[simp] theorem jAdd_err (b : JBody) (a : List PageAddr) (r : Bool) (w : Option Req) : (jAdd s b a r w).err = s.err := rfl
@[simp] theorem jAdd_hp (b : JBody) (a : List PageAddr) (r : Bool) (w : Option Req) : (jAdd s b a r w).hp = s.hp := rfl
@[simp] theorem jAdd_mg (b : JBody) (a : List PageAddr) (r : Bool) (w : Option Req) : (jAdd s b a r w).mg = s.mg := rfl
@[simp] theorem jAdd_pins (b : JBody) (a : List PageAddr) (r : Bool) (w : Option Req) : (jAdd s b a r w).pins = s.pins := rfl
@[simp] theorem jAdd_mem (b : JBody) (a : List PageAddr) (r : Bool) (w : Option Req) : (jAdd s b a r w).mem = s.mem := rfl
@[simp] theorem jAdd_free (b : JBody) (a : List PageAddr) (r : Bool) (w : Option Req) : (jAdd s b a r w).free = s.free := rfl
@[simp] theorem jAdd_out (b : JBody) (a : List PageAddr) (r : Bool) (w : Option Req) : (jAdd s b a r w).out = s.out := rfl
@[simp] theorem jAdd_pending (b : JBody) (a : List PageAddr) (r : Bool) (w : Option Req) : (jAdd s b a r w).pending = s.pending := rfl

@[simp] theorem modJ_counter (j : Nat) (f : JRec → JRec) : (modJ s j f).counter = s.counter := rfl
@[simp] theorem modJ_ing (j : Nat) (f : JRec → JRec) : (modJ s j f).ing = s.ing := rfl
@[simp] theorem modJ_egr (j : Nat) (f : JRec → JRec) : (modJ s j f).egr = s.egr := rfl
@[simp] theorem modJ_cmb (j : Nat) (f : JRec → JRec) : (modJ s j f).cmb = s.cmb := rfl
@[simp] theorem modJ_coh (j : Nat) (f : JRec → JRec) : (modJ s j f).coh = s.coh := rfl
@[simp] theorem modJ_eng (j : Nat) (f : JRec → JRec) : (modJ s j f).eng = s.eng := rfl
@[simp] theorem modJ_acc (j : Nat) (f : JRec → JRec) : (modJ s j f).acc = s.acc := rfl
@[simp] theorem modJ_obj (j : Nat) (f : JRec → JRec) : (modJ s j f).obj = s.obj := rfl
@[simp] theorem modJ_dry (j : Nat) (f : JRec → JRec) : (modJ s j f).dry = s.dry := rfl
@[simp] theorem modJ_lse (j : Nat) (f : JRec → JRec) : (modJ s j f).lse = s.lse := rfl
@[simp] theorem modJ_lnk (j : Nat) (f : JRec → JRec) : (modJ s j f).lnk = s.lnk := rfl
@[simp] theorem modJ_swc (j : Nat) (f : JRec → JRec) : (modJ s j f).swc = s.swc := rfl
@[simp] theorem modJ_shp (j : Nat) (f : JRec → JRec) : (modJ s j f).shp = s.shp := rfl
@[simp] theorem modJ_sec (j : Nat) (f : JRec → JRec) : (modJ s j f).sec = s.sec := rfl
@[simp] theorem modJ_pwr (j : Nat) (f : JRec → JRec) : (modJ s j f).pwr = s.pwr := rfl
@[simp] theorem modJ_boot (j : Nat) (f : JRec → JRec) : (modJ s j f).boot = s.boot := rfl
@[simp] theorem modJ_err (j : Nat) (f : JRec → JRec) : (modJ s j f).err = s.err := rfl
@[simp] theorem modJ_hp (j : Nat) (f : JRec → JRec) : (modJ s j f).hp = s.hp := rfl
@[simp] theorem modJ_mg (j : Nat) (f : JRec → JRec) : (modJ s j f).mg = s.mg := rfl
@[simp] theorem modJ_pins (j : Nat) (f : JRec → JRec) : (modJ s j f).pins = s.pins := rfl
@[simp] theorem modJ_mem (j : Nat) (f : JRec → JRec) : (modJ s j f).mem = s.mem := rfl
@[simp] theorem modJ_free (j : Nat) (f : JRec → JRec) : (modJ s j f).free = s.free := rfl
@[simp] theorem modJ_out (j : Nat) (f : JRec → JRec) : (modJ s j f).out = s.out := rfl
@[simp] theorem modJ_pending (j : Nat) (f : JRec → JRec) : (modJ s j f).pending = s.pending := rfl

@[simp] theorem modHealth_counter (f : Health → Health) : (modHealth s f).counter = s.counter := rfl
@[simp] theorem modHealth_ing (f : Health → Health) : (modHealth s f).ing = s.ing := rfl
@[simp] theorem modHealth_egr (f : Health → Health) : (modHealth s f).egr = s.egr := rfl
@[simp] theorem modHealth_cmb (f : Health → Health) : (modHealth s f).cmb = s.cmb := rfl
@[simp] theorem modHealth_coh (f : Health → Health) : (modHealth s f).coh = s.coh := rfl
@[simp] theorem modHealth_eng (f : Health → Health) : (modHealth s f).eng = s.eng := rfl
@[simp] theorem modHealth_acc (f : Health → Health) : (modHealth s f).acc = s.acc := rfl
@[simp] theorem modHealth_obj (f : Health → Health) : (modHealth s f).obj = s.obj := rfl
@[simp] theorem modHealth_dry (f : Health → Health) : (modHealth s f).dry = s.dry := rfl
@[simp] theorem modHealth_lse (f : Health → Health) : (modHealth s f).lse = s.lse := rfl
@[simp] theorem modHealth_lnk (f : Health → Health) : (modHealth s f).lnk = s.lnk := rfl
@[simp] theorem modHealth_swc (f : Health → Health) : (modHealth s f).swc = s.swc := rfl
@[simp] theorem modHealth_shp (f : Health → Health) : (modHealth s f).shp = s.shp := rfl
@[simp] theorem modHealth_sec (f : Health → Health) : (modHealth s f).sec = s.sec := rfl
@[simp] theorem modHealth_pwr (f : Health → Health) : (modHealth s f).pwr = s.pwr := rfl
@[simp] theorem modHealth_boot (f : Health → Health) : (modHealth s f).boot = s.boot := rfl
@[simp] theorem modHealth_err (f : Health → Health) : (modHealth s f).err = s.err := rfl
@[simp] theorem modHealth_hp (f : Health → Health) : (modHealth s f).hp = s.hp := rfl
@[simp] theorem modHealth_mg (f : Health → Health) : (modHealth s f).mg = s.mg := rfl
@[simp] theorem modHealth_pins (f : Health → Health) : (modHealth s f).pins = s.pins := rfl
@[simp] theorem modHealth_mem (f : Health → Health) : (modHealth s f).mem = s.mem := rfl
@[simp] theorem modHealth_free (f : Health → Health) : (modHealth s f).free = s.free := rfl
@[simp] theorem modHealth_out (f : Health → Health) : (modHealth s f).out = s.out := rfl
@[simp] theorem modHealth_pending (f : Health → Health) : (modHealth s f).pending = s.pending := rfl

@[simp] theorem modLease_counter (n : BitVec 16) (f : Lease → Lease) : (modLease s n f).counter = s.counter := rfl
@[simp] theorem modLease_ing (n : BitVec 16) (f : Lease → Lease) : (modLease s n f).ing = s.ing := rfl
@[simp] theorem modLease_egr (n : BitVec 16) (f : Lease → Lease) : (modLease s n f).egr = s.egr := rfl
@[simp] theorem modLease_cmb (n : BitVec 16) (f : Lease → Lease) : (modLease s n f).cmb = s.cmb := rfl
@[simp] theorem modLease_coh (n : BitVec 16) (f : Lease → Lease) : (modLease s n f).coh = s.coh := rfl
@[simp] theorem modLease_eng (n : BitVec 16) (f : Lease → Lease) : (modLease s n f).eng = s.eng := rfl
@[simp] theorem modLease_acc (n : BitVec 16) (f : Lease → Lease) : (modLease s n f).acc = s.acc := rfl
@[simp] theorem modLease_obj (n : BitVec 16) (f : Lease → Lease) : (modLease s n f).obj = s.obj := rfl
@[simp] theorem modLease_ftl (n : BitVec 16) (f : Lease → Lease) : (modLease s n f).ftl = s.ftl := rfl
@[simp] theorem modLease_dry (n : BitVec 16) (f : Lease → Lease) : (modLease s n f).dry = s.dry := rfl
@[simp] theorem modLease_lnk (n : BitVec 16) (f : Lease → Lease) : (modLease s n f).lnk = s.lnk := rfl
@[simp] theorem modLease_swc (n : BitVec 16) (f : Lease → Lease) : (modLease s n f).swc = s.swc := rfl
@[simp] theorem modLease_shp (n : BitVec 16) (f : Lease → Lease) : (modLease s n f).shp = s.shp := rfl
@[simp] theorem modLease_sec (n : BitVec 16) (f : Lease → Lease) : (modLease s n f).sec = s.sec := rfl
@[simp] theorem modLease_pwr (n : BitVec 16) (f : Lease → Lease) : (modLease s n f).pwr = s.pwr := rfl
@[simp] theorem modLease_boot (n : BitVec 16) (f : Lease → Lease) : (modLease s n f).boot = s.boot := rfl
@[simp] theorem modLease_err (n : BitVec 16) (f : Lease → Lease) : (modLease s n f).err = s.err := rfl
@[simp] theorem modLease_hp (n : BitVec 16) (f : Lease → Lease) : (modLease s n f).hp = s.hp := rfl
@[simp] theorem modLease_mg (n : BitVec 16) (f : Lease → Lease) : (modLease s n f).mg = s.mg := rfl
@[simp] theorem modLease_pins (n : BitVec 16) (f : Lease → Lease) : (modLease s n f).pins = s.pins := rfl
@[simp] theorem modLease_mem (n : BitVec 16) (f : Lease → Lease) : (modLease s n f).mem = s.mem := rfl
@[simp] theorem modLease_free (n : BitVec 16) (f : Lease → Lease) : (modLease s n f).free = s.free := rfl
@[simp] theorem modLease_out (n : BitVec 16) (f : Lease → Lease) : (modLease s n f).out = s.out := rfl
@[simp] theorem modLease_pending (n : BitVec 16) (f : Lease → Lease) : (modLease s n f).pending = s.pending := rfl

@[simp] theorem setAcc_counter (n : BitVec 12) (a : Accord) : (setAcc s n a).counter = s.counter := rfl
@[simp] theorem setAcc_ing (n : BitVec 12) (a : Accord) : (setAcc s n a).ing = s.ing := rfl
@[simp] theorem setAcc_egr (n : BitVec 12) (a : Accord) : (setAcc s n a).egr = s.egr := rfl
@[simp] theorem setAcc_cmb (n : BitVec 12) (a : Accord) : (setAcc s n a).cmb = s.cmb := rfl
@[simp] theorem setAcc_coh (n : BitVec 12) (a : Accord) : (setAcc s n a).coh = s.coh := rfl
@[simp] theorem setAcc_eng (n : BitVec 12) (a : Accord) : (setAcc s n a).eng = s.eng := rfl
@[simp] theorem setAcc_obj (n : BitVec 12) (a : Accord) : (setAcc s n a).obj = s.obj := rfl
@[simp] theorem setAcc_ftl (n : BitVec 12) (a : Accord) : (setAcc s n a).ftl = s.ftl := rfl
@[simp] theorem setAcc_dry (n : BitVec 12) (a : Accord) : (setAcc s n a).dry = s.dry := rfl
@[simp] theorem setAcc_lse (n : BitVec 12) (a : Accord) : (setAcc s n a).lse = s.lse := rfl
@[simp] theorem setAcc_lnk (n : BitVec 12) (a : Accord) : (setAcc s n a).lnk = s.lnk := rfl
@[simp] theorem setAcc_swc (n : BitVec 12) (a : Accord) : (setAcc s n a).swc = s.swc := rfl
@[simp] theorem setAcc_shp (n : BitVec 12) (a : Accord) : (setAcc s n a).shp = s.shp := rfl
@[simp] theorem setAcc_sec (n : BitVec 12) (a : Accord) : (setAcc s n a).sec = s.sec := rfl
@[simp] theorem setAcc_pwr (n : BitVec 12) (a : Accord) : (setAcc s n a).pwr = s.pwr := rfl
@[simp] theorem setAcc_boot (n : BitVec 12) (a : Accord) : (setAcc s n a).boot = s.boot := rfl
@[simp] theorem setAcc_err (n : BitVec 12) (a : Accord) : (setAcc s n a).err = s.err := rfl
@[simp] theorem setAcc_hp (n : BitVec 12) (a : Accord) : (setAcc s n a).hp = s.hp := rfl
@[simp] theorem setAcc_mg (n : BitVec 12) (a : Accord) : (setAcc s n a).mg = s.mg := rfl
@[simp] theorem setAcc_pins (n : BitVec 12) (a : Accord) : (setAcc s n a).pins = s.pins := rfl
@[simp] theorem setAcc_mem (n : BitVec 12) (a : Accord) : (setAcc s n a).mem = s.mem := rfl
@[simp] theorem setAcc_free (n : BitVec 12) (a : Accord) : (setAcc s n a).free = s.free := rfl
@[simp] theorem setAcc_out (n : BitVec 12) (a : Accord) : (setAcc s n a).out = s.out := rfl
@[simp] theorem setAcc_pending (n : BitVec 12) (a : Accord) : (setAcc s n a).pending = s.pending := rfl

@[simp] theorem modPart_counter (p : PortNo) (f : Part → Part) : (modPart s p f).counter = s.counter := rfl
@[simp] theorem modPart_ing (p : PortNo) (f : Part → Part) : (modPart s p f).ing = s.ing := rfl
@[simp] theorem modPart_egr (p : PortNo) (f : Part → Part) : (modPart s p f).egr = s.egr := rfl
@[simp] theorem modPart_cmb (p : PortNo) (f : Part → Part) : (modPart s p f).cmb = s.cmb := rfl
@[simp] theorem modPart_eng (p : PortNo) (f : Part → Part) : (modPart s p f).eng = s.eng := rfl
@[simp] theorem modPart_acc (p : PortNo) (f : Part → Part) : (modPart s p f).acc = s.acc := rfl
@[simp] theorem modPart_obj (p : PortNo) (f : Part → Part) : (modPart s p f).obj = s.obj := rfl
@[simp] theorem modPart_ftl (p : PortNo) (f : Part → Part) : (modPart s p f).ftl = s.ftl := rfl
@[simp] theorem modPart_dry (p : PortNo) (f : Part → Part) : (modPart s p f).dry = s.dry := rfl
@[simp] theorem modPart_lse (p : PortNo) (f : Part → Part) : (modPart s p f).lse = s.lse := rfl
@[simp] theorem modPart_lnk (p : PortNo) (f : Part → Part) : (modPart s p f).lnk = s.lnk := rfl
@[simp] theorem modPart_swc (p : PortNo) (f : Part → Part) : (modPart s p f).swc = s.swc := rfl
@[simp] theorem modPart_shp (p : PortNo) (f : Part → Part) : (modPart s p f).shp = s.shp := rfl
@[simp] theorem modPart_sec (p : PortNo) (f : Part → Part) : (modPart s p f).sec = s.sec := rfl
@[simp] theorem modPart_pwr (p : PortNo) (f : Part → Part) : (modPart s p f).pwr = s.pwr := rfl
@[simp] theorem modPart_boot (p : PortNo) (f : Part → Part) : (modPart s p f).boot = s.boot := rfl
@[simp] theorem modPart_err (p : PortNo) (f : Part → Part) : (modPart s p f).err = s.err := rfl
@[simp] theorem modPart_hp (p : PortNo) (f : Part → Part) : (modPart s p f).hp = s.hp := rfl
@[simp] theorem modPart_mg (p : PortNo) (f : Part → Part) : (modPart s p f).mg = s.mg := rfl
@[simp] theorem modPart_pins (p : PortNo) (f : Part → Part) : (modPart s p f).pins = s.pins := rfl
@[simp] theorem modPart_mem (p : PortNo) (f : Part → Part) : (modPart s p f).mem = s.mem := rfl
@[simp] theorem modPart_free (p : PortNo) (f : Part → Part) : (modPart s p f).free = s.free := rfl
@[simp] theorem modPart_out (p : PortNo) (f : Part → Part) : (modPart s p f).out = s.out := rfl
@[simp] theorem modPart_pending (p : PortNo) (f : Part → Part) : (modPart s p f).pending = s.pending := rfl

@[simp] theorem modTxn_counter (n : Nat) (f : Txn → Txn) : (modTxn s n f).counter = s.counter := rfl
@[simp] theorem modTxn_ing (n : Nat) (f : Txn → Txn) : (modTxn s n f).ing = s.ing := rfl
@[simp] theorem modTxn_egr (n : Nat) (f : Txn → Txn) : (modTxn s n f).egr = s.egr := rfl
@[simp] theorem modTxn_cmb (n : Nat) (f : Txn → Txn) : (modTxn s n f).cmb = s.cmb := rfl
@[simp] theorem modTxn_eng (n : Nat) (f : Txn → Txn) : (modTxn s n f).eng = s.eng := rfl
@[simp] theorem modTxn_acc (n : Nat) (f : Txn → Txn) : (modTxn s n f).acc = s.acc := rfl
@[simp] theorem modTxn_obj (n : Nat) (f : Txn → Txn) : (modTxn s n f).obj = s.obj := rfl
@[simp] theorem modTxn_ftl (n : Nat) (f : Txn → Txn) : (modTxn s n f).ftl = s.ftl := rfl
@[simp] theorem modTxn_dry (n : Nat) (f : Txn → Txn) : (modTxn s n f).dry = s.dry := rfl
@[simp] theorem modTxn_lse (n : Nat) (f : Txn → Txn) : (modTxn s n f).lse = s.lse := rfl
@[simp] theorem modTxn_lnk (n : Nat) (f : Txn → Txn) : (modTxn s n f).lnk = s.lnk := rfl
@[simp] theorem modTxn_swc (n : Nat) (f : Txn → Txn) : (modTxn s n f).swc = s.swc := rfl
@[simp] theorem modTxn_shp (n : Nat) (f : Txn → Txn) : (modTxn s n f).shp = s.shp := rfl
@[simp] theorem modTxn_sec (n : Nat) (f : Txn → Txn) : (modTxn s n f).sec = s.sec := rfl
@[simp] theorem modTxn_pwr (n : Nat) (f : Txn → Txn) : (modTxn s n f).pwr = s.pwr := rfl
@[simp] theorem modTxn_boot (n : Nat) (f : Txn → Txn) : (modTxn s n f).boot = s.boot := rfl
@[simp] theorem modTxn_err (n : Nat) (f : Txn → Txn) : (modTxn s n f).err = s.err := rfl
@[simp] theorem modTxn_hp (n : Nat) (f : Txn → Txn) : (modTxn s n f).hp = s.hp := rfl
@[simp] theorem modTxn_mg (n : Nat) (f : Txn → Txn) : (modTxn s n f).mg = s.mg := rfl
@[simp] theorem modTxn_pins (n : Nat) (f : Txn → Txn) : (modTxn s n f).pins = s.pins := rfl
@[simp] theorem modTxn_mem (n : Nat) (f : Txn → Txn) : (modTxn s n f).mem = s.mem := rfl
@[simp] theorem modTxn_free (n : Nat) (f : Txn → Txn) : (modTxn s n f).free = s.free := rfl
@[simp] theorem modTxn_out (n : Nat) (f : Txn → Txn) : (modTxn s n f).out = s.out := rfl
@[simp] theorem modTxn_pending (n : Nat) (f : Txn → Txn) : (modTxn s n f).pending = s.pending := rfl

@[simp] theorem modEnt_counter (n : Nat) (f : CEntry → CEntry) : (modEnt s n f).counter = s.counter := rfl
@[simp] theorem modEnt_ing (n : Nat) (f : CEntry → CEntry) : (modEnt s n f).ing = s.ing := rfl
@[simp] theorem modEnt_egr (n : Nat) (f : CEntry → CEntry) : (modEnt s n f).egr = s.egr := rfl
@[simp] theorem modEnt_coh (n : Nat) (f : CEntry → CEntry) : (modEnt s n f).coh = s.coh := rfl
@[simp] theorem modEnt_eng (n : Nat) (f : CEntry → CEntry) : (modEnt s n f).eng = s.eng := rfl
@[simp] theorem modEnt_acc (n : Nat) (f : CEntry → CEntry) : (modEnt s n f).acc = s.acc := rfl
@[simp] theorem modEnt_obj (n : Nat) (f : CEntry → CEntry) : (modEnt s n f).obj = s.obj := rfl
@[simp] theorem modEnt_ftl (n : Nat) (f : CEntry → CEntry) : (modEnt s n f).ftl = s.ftl := rfl
@[simp] theorem modEnt_dry (n : Nat) (f : CEntry → CEntry) : (modEnt s n f).dry = s.dry := rfl
@[simp] theorem modEnt_lse (n : Nat) (f : CEntry → CEntry) : (modEnt s n f).lse = s.lse := rfl
@[simp] theorem modEnt_lnk (n : Nat) (f : CEntry → CEntry) : (modEnt s n f).lnk = s.lnk := rfl
@[simp] theorem modEnt_swc (n : Nat) (f : CEntry → CEntry) : (modEnt s n f).swc = s.swc := rfl
@[simp] theorem modEnt_shp (n : Nat) (f : CEntry → CEntry) : (modEnt s n f).shp = s.shp := rfl
@[simp] theorem modEnt_sec (n : Nat) (f : CEntry → CEntry) : (modEnt s n f).sec = s.sec := rfl
@[simp] theorem modEnt_pwr (n : Nat) (f : CEntry → CEntry) : (modEnt s n f).pwr = s.pwr := rfl
@[simp] theorem modEnt_boot (n : Nat) (f : CEntry → CEntry) : (modEnt s n f).boot = s.boot := rfl
@[simp] theorem modEnt_err (n : Nat) (f : CEntry → CEntry) : (modEnt s n f).err = s.err := rfl
@[simp] theorem modEnt_hp (n : Nat) (f : CEntry → CEntry) : (modEnt s n f).hp = s.hp := rfl
@[simp] theorem modEnt_mg (n : Nat) (f : CEntry → CEntry) : (modEnt s n f).mg = s.mg := rfl
@[simp] theorem modEnt_pins (n : Nat) (f : CEntry → CEntry) : (modEnt s n f).pins = s.pins := rfl
@[simp] theorem modEnt_mem (n : Nat) (f : CEntry → CEntry) : (modEnt s n f).mem = s.mem := rfl
@[simp] theorem modEnt_free (n : Nat) (f : CEntry → CEntry) : (modEnt s n f).free = s.free := rfl
@[simp] theorem modEnt_out (n : Nat) (f : CEntry → CEntry) : (modEnt s n f).out = s.out := rfl
@[simp] theorem modEnt_pending (n : Nat) (f : CEntry → CEntry) : (modEnt s n f).pending = s.pending := rfl

@[simp] theorem modSrc_counter (e : Ep) (f : SrcRec → SrcRec) : (modSrc s e f).counter = s.counter := rfl
@[simp] theorem modSrc_egr (e : Ep) (f : SrcRec → SrcRec) : (modSrc s e f).egr = s.egr := rfl
@[simp] theorem modSrc_cmb (e : Ep) (f : SrcRec → SrcRec) : (modSrc s e f).cmb = s.cmb := rfl
@[simp] theorem modSrc_coh (e : Ep) (f : SrcRec → SrcRec) : (modSrc s e f).coh = s.coh := rfl
@[simp] theorem modSrc_eng (e : Ep) (f : SrcRec → SrcRec) : (modSrc s e f).eng = s.eng := rfl
@[simp] theorem modSrc_acc (e : Ep) (f : SrcRec → SrcRec) : (modSrc s e f).acc = s.acc := rfl
@[simp] theorem modSrc_obj (e : Ep) (f : SrcRec → SrcRec) : (modSrc s e f).obj = s.obj := rfl
@[simp] theorem modSrc_ftl (e : Ep) (f : SrcRec → SrcRec) : (modSrc s e f).ftl = s.ftl := rfl
@[simp] theorem modSrc_dry (e : Ep) (f : SrcRec → SrcRec) : (modSrc s e f).dry = s.dry := rfl
@[simp] theorem modSrc_lse (e : Ep) (f : SrcRec → SrcRec) : (modSrc s e f).lse = s.lse := rfl
@[simp] theorem modSrc_lnk (e : Ep) (f : SrcRec → SrcRec) : (modSrc s e f).lnk = s.lnk := rfl
@[simp] theorem modSrc_swc (e : Ep) (f : SrcRec → SrcRec) : (modSrc s e f).swc = s.swc := rfl
@[simp] theorem modSrc_shp (e : Ep) (f : SrcRec → SrcRec) : (modSrc s e f).shp = s.shp := rfl
@[simp] theorem modSrc_sec (e : Ep) (f : SrcRec → SrcRec) : (modSrc s e f).sec = s.sec := rfl
@[simp] theorem modSrc_pwr (e : Ep) (f : SrcRec → SrcRec) : (modSrc s e f).pwr = s.pwr := rfl
@[simp] theorem modSrc_boot (e : Ep) (f : SrcRec → SrcRec) : (modSrc s e f).boot = s.boot := rfl
@[simp] theorem modSrc_err (e : Ep) (f : SrcRec → SrcRec) : (modSrc s e f).err = s.err := rfl
@[simp] theorem modSrc_hp (e : Ep) (f : SrcRec → SrcRec) : (modSrc s e f).hp = s.hp := rfl
@[simp] theorem modSrc_mg (e : Ep) (f : SrcRec → SrcRec) : (modSrc s e f).mg = s.mg := rfl
@[simp] theorem modSrc_pins (e : Ep) (f : SrcRec → SrcRec) : (modSrc s e f).pins = s.pins := rfl
@[simp] theorem modSrc_mem (e : Ep) (f : SrcRec → SrcRec) : (modSrc s e f).mem = s.mem := rfl
@[simp] theorem modSrc_free (e : Ep) (f : SrcRec → SrcRec) : (modSrc s e f).free = s.free := rfl
@[simp] theorem modSrc_out (e : Ep) (f : SrcRec → SrcRec) : (modSrc s e f).out = s.out := rfl
@[simp] theorem modSrc_pending (e : Ep) (f : SrcRec → SrcRec) : (modSrc s e f).pending = s.pending := rfl

@[simp] theorem modTrack_counter (e : Ep) (t : Tag) (f : Track → Track) : (modTrack s e t f).counter = s.counter := rfl
@[simp] theorem modTrack_egr (e : Ep) (t : Tag) (f : Track → Track) : (modTrack s e t f).egr = s.egr := rfl
@[simp] theorem modTrack_cmb (e : Ep) (t : Tag) (f : Track → Track) : (modTrack s e t f).cmb = s.cmb := rfl
@[simp] theorem modTrack_coh (e : Ep) (t : Tag) (f : Track → Track) : (modTrack s e t f).coh = s.coh := rfl
@[simp] theorem modTrack_eng (e : Ep) (t : Tag) (f : Track → Track) : (modTrack s e t f).eng = s.eng := rfl
@[simp] theorem modTrack_acc (e : Ep) (t : Tag) (f : Track → Track) : (modTrack s e t f).acc = s.acc := rfl
@[simp] theorem modTrack_obj (e : Ep) (t : Tag) (f : Track → Track) : (modTrack s e t f).obj = s.obj := rfl
@[simp] theorem modTrack_ftl (e : Ep) (t : Tag) (f : Track → Track) : (modTrack s e t f).ftl = s.ftl := rfl
@[simp] theorem modTrack_dry (e : Ep) (t : Tag) (f : Track → Track) : (modTrack s e t f).dry = s.dry := rfl
@[simp] theorem modTrack_lse (e : Ep) (t : Tag) (f : Track → Track) : (modTrack s e t f).lse = s.lse := rfl
@[simp] theorem modTrack_lnk (e : Ep) (t : Tag) (f : Track → Track) : (modTrack s e t f).lnk = s.lnk := rfl
@[simp] theorem modTrack_swc (e : Ep) (t : Tag) (f : Track → Track) : (modTrack s e t f).swc = s.swc := rfl
@[simp] theorem modTrack_shp (e : Ep) (t : Tag) (f : Track → Track) : (modTrack s e t f).shp = s.shp := rfl
@[simp] theorem modTrack_sec (e : Ep) (t : Tag) (f : Track → Track) : (modTrack s e t f).sec = s.sec := rfl
@[simp] theorem modTrack_pwr (e : Ep) (t : Tag) (f : Track → Track) : (modTrack s e t f).pwr = s.pwr := rfl
@[simp] theorem modTrack_boot (e : Ep) (t : Tag) (f : Track → Track) : (modTrack s e t f).boot = s.boot := rfl
@[simp] theorem modTrack_err (e : Ep) (t : Tag) (f : Track → Track) : (modTrack s e t f).err = s.err := rfl
@[simp] theorem modTrack_hp (e : Ep) (t : Tag) (f : Track → Track) : (modTrack s e t f).hp = s.hp := rfl
@[simp] theorem modTrack_mg (e : Ep) (t : Tag) (f : Track → Track) : (modTrack s e t f).mg = s.mg := rfl
@[simp] theorem modTrack_pins (e : Ep) (t : Tag) (f : Track → Track) : (modTrack s e t f).pins = s.pins := rfl
@[simp] theorem modTrack_mem (e : Ep) (t : Tag) (f : Track → Track) : (modTrack s e t f).mem = s.mem := rfl
@[simp] theorem modTrack_free (e : Ep) (t : Tag) (f : Track → Track) : (modTrack s e t f).free = s.free := rfl
@[simp] theorem modTrack_out (e : Ep) (t : Tag) (f : Track → Track) : (modTrack s e t f).out = s.out := rfl
@[simp] theorem modTrack_pending (e : Ep) (t : Tag) (f : Track → Track) : (modTrack s e t f).pending = s.pending := rfl

@[simp] theorem setEng_counter (r : EngReq) : (setEng s r).counter = s.counter := rfl
@[simp] theorem setEng_ing (r : EngReq) : (setEng s r).ing = s.ing := rfl
@[simp] theorem setEng_egr (r : EngReq) : (setEng s r).egr = s.egr := rfl
@[simp] theorem setEng_cmb (r : EngReq) : (setEng s r).cmb = s.cmb := rfl
@[simp] theorem setEng_coh (r : EngReq) : (setEng s r).coh = s.coh := rfl
@[simp] theorem setEng_acc (r : EngReq) : (setEng s r).acc = s.acc := rfl
@[simp] theorem setEng_obj (r : EngReq) : (setEng s r).obj = s.obj := rfl
@[simp] theorem setEng_ftl (r : EngReq) : (setEng s r).ftl = s.ftl := rfl
@[simp] theorem setEng_dry (r : EngReq) : (setEng s r).dry = s.dry := rfl
@[simp] theorem setEng_lse (r : EngReq) : (setEng s r).lse = s.lse := rfl
@[simp] theorem setEng_lnk (r : EngReq) : (setEng s r).lnk = s.lnk := rfl
@[simp] theorem setEng_swc (r : EngReq) : (setEng s r).swc = s.swc := rfl
@[simp] theorem setEng_shp (r : EngReq) : (setEng s r).shp = s.shp := rfl
@[simp] theorem setEng_sec (r : EngReq) : (setEng s r).sec = s.sec := rfl
@[simp] theorem setEng_pwr (r : EngReq) : (setEng s r).pwr = s.pwr := rfl
@[simp] theorem setEng_boot (r : EngReq) : (setEng s r).boot = s.boot := rfl
@[simp] theorem setEng_err (r : EngReq) : (setEng s r).err = s.err := rfl
@[simp] theorem setEng_hp (r : EngReq) : (setEng s r).hp = s.hp := rfl
@[simp] theorem setEng_mg (r : EngReq) : (setEng s r).mg = s.mg := rfl
@[simp] theorem setEng_pins (r : EngReq) : (setEng s r).pins = s.pins := rfl
@[simp] theorem setEng_mem (r : EngReq) : (setEng s r).mem = s.mem := rfl
@[simp] theorem setEng_free (r : EngReq) : (setEng s r).free = s.free := rfl
@[simp] theorem setEng_out (r : EngReq) : (setEng s r).out = s.out := rfl
@[simp] theorem setEng_pending (r : EngReq) : (setEng s r).pending = s.pending := rfl

@[simp] theorem dropFlushed_counter (n : Nat) : (dropFlushed s n).counter = s.counter := rfl
@[simp] theorem dropFlushed_ing (n : Nat) : (dropFlushed s n).ing = s.ing := rfl
@[simp] theorem dropFlushed_egr (n : Nat) : (dropFlushed s n).egr = s.egr := rfl
@[simp] theorem dropFlushed_cmb (n : Nat) : (dropFlushed s n).cmb = s.cmb := rfl
@[simp] theorem dropFlushed_coh (n : Nat) : (dropFlushed s n).coh = s.coh := rfl
@[simp] theorem dropFlushed_eng (n : Nat) : (dropFlushed s n).eng = s.eng := rfl
@[simp] theorem dropFlushed_acc (n : Nat) : (dropFlushed s n).acc = s.acc := rfl
@[simp] theorem dropFlushed_obj (n : Nat) : (dropFlushed s n).obj = s.obj := rfl
@[simp] theorem dropFlushed_ftl (n : Nat) : (dropFlushed s n).ftl = s.ftl := rfl
@[simp] theorem dropFlushed_dry (n : Nat) : (dropFlushed s n).dry = s.dry := rfl
@[simp] theorem dropFlushed_lse (n : Nat) : (dropFlushed s n).lse = s.lse := rfl
@[simp] theorem dropFlushed_lnk (n : Nat) : (dropFlushed s n).lnk = s.lnk := rfl
@[simp] theorem dropFlushed_shp (n : Nat) : (dropFlushed s n).shp = s.shp := rfl
@[simp] theorem dropFlushed_sec (n : Nat) : (dropFlushed s n).sec = s.sec := rfl
@[simp] theorem dropFlushed_pwr (n : Nat) : (dropFlushed s n).pwr = s.pwr := rfl
@[simp] theorem dropFlushed_boot (n : Nat) : (dropFlushed s n).boot = s.boot := rfl
@[simp] theorem dropFlushed_err (n : Nat) : (dropFlushed s n).err = s.err := rfl
@[simp] theorem dropFlushed_hp (n : Nat) : (dropFlushed s n).hp = s.hp := rfl
@[simp] theorem dropFlushed_mg (n : Nat) : (dropFlushed s n).mg = s.mg := rfl
@[simp] theorem dropFlushed_pins (n : Nat) : (dropFlushed s n).pins = s.pins := rfl
@[simp] theorem dropFlushed_mem (n : Nat) : (dropFlushed s n).mem = s.mem := rfl
@[simp] theorem dropFlushed_free (n : Nat) : (dropFlushed s n).free = s.free := rfl
@[simp] theorem dropFlushed_out (n : Nat) : (dropFlushed s n).out = s.out := rfl
@[simp] theorem dropFlushed_pending (n : Nat) : (dropFlushed s n).pending = s.pending := rfl

@[simp] theorem modTile_counter (n : TileNo) (f : TileRec → TileRec) : (modTile s n f).counter = s.counter := rfl
@[simp] theorem modTile_ing (n : TileNo) (f : TileRec → TileRec) : (modTile s n f).ing = s.ing := rfl
@[simp] theorem modTile_egr (n : TileNo) (f : TileRec → TileRec) : (modTile s n f).egr = s.egr := rfl
@[simp] theorem modTile_cmb (n : TileNo) (f : TileRec → TileRec) : (modTile s n f).cmb = s.cmb := rfl
@[simp] theorem modTile_coh (n : TileNo) (f : TileRec → TileRec) : (modTile s n f).coh = s.coh := rfl
@[simp] theorem modTile_acc (n : TileNo) (f : TileRec → TileRec) : (modTile s n f).acc = s.acc := rfl
@[simp] theorem modTile_obj (n : TileNo) (f : TileRec → TileRec) : (modTile s n f).obj = s.obj := rfl
@[simp] theorem modTile_ftl (n : TileNo) (f : TileRec → TileRec) : (modTile s n f).ftl = s.ftl := rfl
@[simp] theorem modTile_dry (n : TileNo) (f : TileRec → TileRec) : (modTile s n f).dry = s.dry := rfl
@[simp] theorem modTile_lse (n : TileNo) (f : TileRec → TileRec) : (modTile s n f).lse = s.lse := rfl
@[simp] theorem modTile_lnk (n : TileNo) (f : TileRec → TileRec) : (modTile s n f).lnk = s.lnk := rfl
@[simp] theorem modTile_swc (n : TileNo) (f : TileRec → TileRec) : (modTile s n f).swc = s.swc := rfl
@[simp] theorem modTile_shp (n : TileNo) (f : TileRec → TileRec) : (modTile s n f).shp = s.shp := rfl
@[simp] theorem modTile_sec (n : TileNo) (f : TileRec → TileRec) : (modTile s n f).sec = s.sec := rfl
@[simp] theorem modTile_pwr (n : TileNo) (f : TileRec → TileRec) : (modTile s n f).pwr = s.pwr := rfl
@[simp] theorem modTile_boot (n : TileNo) (f : TileRec → TileRec) : (modTile s n f).boot = s.boot := rfl
@[simp] theorem modTile_err (n : TileNo) (f : TileRec → TileRec) : (modTile s n f).err = s.err := rfl
@[simp] theorem modTile_hp (n : TileNo) (f : TileRec → TileRec) : (modTile s n f).hp = s.hp := rfl
@[simp] theorem modTile_mg (n : TileNo) (f : TileRec → TileRec) : (modTile s n f).mg = s.mg := rfl
@[simp] theorem modTile_pins (n : TileNo) (f : TileRec → TileRec) : (modTile s n f).pins = s.pins := rfl
@[simp] theorem modTile_mem (n : TileNo) (f : TileRec → TileRec) : (modTile s n f).mem = s.mem := rfl
@[simp] theorem modTile_free (n : TileNo) (f : TileRec → TileRec) : (modTile s n f).free = s.free := rfl
@[simp] theorem modTile_out (n : TileNo) (f : TileRec → TileRec) : (modTile s n f).out = s.out := rfl
@[simp] theorem modTile_pending (n : TileNo) (f : TileRec → TileRec) : (modTile s n f).pending = s.pending := rfl

@[simp] theorem bothWritten_counter (p : StackPlace) : (bothWritten s p).counter = s.counter := rfl
@[simp] theorem bothWritten_ing (p : StackPlace) : (bothWritten s p).ing = s.ing := rfl
@[simp] theorem bothWritten_egr (p : StackPlace) : (bothWritten s p).egr = s.egr := rfl
@[simp] theorem bothWritten_cmb (p : StackPlace) : (bothWritten s p).cmb = s.cmb := rfl
@[simp] theorem bothWritten_coh (p : StackPlace) : (bothWritten s p).coh = s.coh := rfl
@[simp] theorem bothWritten_eng (p : StackPlace) : (bothWritten s p).eng = s.eng := rfl
@[simp] theorem bothWritten_acc (p : StackPlace) : (bothWritten s p).acc = s.acc := rfl
@[simp] theorem bothWritten_obj (p : StackPlace) : (bothWritten s p).obj = s.obj := rfl
@[simp] theorem bothWritten_ftl (p : StackPlace) : (bothWritten s p).ftl = s.ftl := rfl
@[simp] theorem bothWritten_dry (p : StackPlace) : (bothWritten s p).dry = s.dry := rfl
@[simp] theorem bothWritten_lse (p : StackPlace) : (bothWritten s p).lse = s.lse := rfl
@[simp] theorem bothWritten_lnk (p : StackPlace) : (bothWritten s p).lnk = s.lnk := rfl
@[simp] theorem bothWritten_swc (p : StackPlace) : (bothWritten s p).swc = s.swc := rfl
@[simp] theorem bothWritten_shp (p : StackPlace) : (bothWritten s p).shp = s.shp := rfl
@[simp] theorem bothWritten_sec (p : StackPlace) : (bothWritten s p).sec = s.sec := rfl
@[simp] theorem bothWritten_pwr (p : StackPlace) : (bothWritten s p).pwr = s.pwr := rfl
@[simp] theorem bothWritten_boot (p : StackPlace) : (bothWritten s p).boot = s.boot := rfl
@[simp] theorem bothWritten_hp (p : StackPlace) : (bothWritten s p).hp = s.hp := rfl
@[simp] theorem bothWritten_mg (p : StackPlace) : (bothWritten s p).mg = s.mg := rfl
@[simp] theorem bothWritten_pins (p : StackPlace) : (bothWritten s p).pins = s.pins := rfl
@[simp] theorem bothWritten_mem (p : StackPlace) : (bothWritten s p).mem = s.mem := rfl
@[simp] theorem bothWritten_free (p : StackPlace) : (bothWritten s p).free = s.free := rfl
@[simp] theorem bothWritten_out (p : StackPlace) : (bothWritten s p).out = s.out := rfl
@[simp] theorem bothWritten_pending (p : StackPlace) : (bothWritten s p).pending = s.pending := rfl

@[simp] theorem setPlan_counter (k : BitVec 8) (p : Plan) : (setPlan s k p).counter = s.counter := rfl
@[simp] theorem setPlan_ing (k : BitVec 8) (p : Plan) : (setPlan s k p).ing = s.ing := rfl
@[simp] theorem setPlan_egr (k : BitVec 8) (p : Plan) : (setPlan s k p).egr = s.egr := rfl
@[simp] theorem setPlan_cmb (k : BitVec 8) (p : Plan) : (setPlan s k p).cmb = s.cmb := rfl
@[simp] theorem setPlan_coh (k : BitVec 8) (p : Plan) : (setPlan s k p).coh = s.coh := rfl
@[simp] theorem setPlan_eng (k : BitVec 8) (p : Plan) : (setPlan s k p).eng = s.eng := rfl
@[simp] theorem setPlan_acc (k : BitVec 8) (p : Plan) : (setPlan s k p).acc = s.acc := rfl
@[simp] theorem setPlan_ftl (k : BitVec 8) (p : Plan) : (setPlan s k p).ftl = s.ftl := rfl
@[simp] theorem setPlan_dry (k : BitVec 8) (p : Plan) : (setPlan s k p).dry = s.dry := rfl
@[simp] theorem setPlan_lse (k : BitVec 8) (p : Plan) : (setPlan s k p).lse = s.lse := rfl
@[simp] theorem setPlan_lnk (k : BitVec 8) (p : Plan) : (setPlan s k p).lnk = s.lnk := rfl
@[simp] theorem setPlan_swc (k : BitVec 8) (p : Plan) : (setPlan s k p).swc = s.swc := rfl
@[simp] theorem setPlan_shp (k : BitVec 8) (p : Plan) : (setPlan s k p).shp = s.shp := rfl
@[simp] theorem setPlan_sec (k : BitVec 8) (p : Plan) : (setPlan s k p).sec = s.sec := rfl
@[simp] theorem setPlan_pwr (k : BitVec 8) (p : Plan) : (setPlan s k p).pwr = s.pwr := rfl
@[simp] theorem setPlan_boot (k : BitVec 8) (p : Plan) : (setPlan s k p).boot = s.boot := rfl
@[simp] theorem setPlan_err (k : BitVec 8) (p : Plan) : (setPlan s k p).err = s.err := rfl
@[simp] theorem setPlan_hp (k : BitVec 8) (p : Plan) : (setPlan s k p).hp = s.hp := rfl
@[simp] theorem setPlan_mg (k : BitVec 8) (p : Plan) : (setPlan s k p).mg = s.mg := rfl
@[simp] theorem setPlan_pins (k : BitVec 8) (p : Plan) : (setPlan s k p).pins = s.pins := rfl
@[simp] theorem setPlan_mem (k : BitVec 8) (p : Plan) : (setPlan s k p).mem = s.mem := rfl
@[simp] theorem setPlan_free (k : BitVec 8) (p : Plan) : (setPlan s k p).free = s.free := rfl
@[simp] theorem setPlan_out (k : BitVec 8) (p : Plan) : (setPlan s k p).out = s.out := rfl
@[simp] theorem setPlan_pending (k : BitVec 8) (p : Plan) : (setPlan s k p).pending = s.pending := rfl

@[simp] theorem setRead_counter (r : ObjRead) : (setRead s r).counter = s.counter := rfl
@[simp] theorem setRead_ing (r : ObjRead) : (setRead s r).ing = s.ing := rfl
@[simp] theorem setRead_egr (r : ObjRead) : (setRead s r).egr = s.egr := rfl
@[simp] theorem setRead_cmb (r : ObjRead) : (setRead s r).cmb = s.cmb := rfl
@[simp] theorem setRead_coh (r : ObjRead) : (setRead s r).coh = s.coh := rfl
@[simp] theorem setRead_eng (r : ObjRead) : (setRead s r).eng = s.eng := rfl
@[simp] theorem setRead_acc (r : ObjRead) : (setRead s r).acc = s.acc := rfl
@[simp] theorem setRead_ftl (r : ObjRead) : (setRead s r).ftl = s.ftl := rfl
@[simp] theorem setRead_dry (r : ObjRead) : (setRead s r).dry = s.dry := rfl
@[simp] theorem setRead_lse (r : ObjRead) : (setRead s r).lse = s.lse := rfl
@[simp] theorem setRead_lnk (r : ObjRead) : (setRead s r).lnk = s.lnk := rfl
@[simp] theorem setRead_swc (r : ObjRead) : (setRead s r).swc = s.swc := rfl
@[simp] theorem setRead_shp (r : ObjRead) : (setRead s r).shp = s.shp := rfl
@[simp] theorem setRead_sec (r : ObjRead) : (setRead s r).sec = s.sec := rfl
@[simp] theorem setRead_pwr (r : ObjRead) : (setRead s r).pwr = s.pwr := rfl
@[simp] theorem setRead_boot (r : ObjRead) : (setRead s r).boot = s.boot := rfl
@[simp] theorem setRead_err (r : ObjRead) : (setRead s r).err = s.err := rfl
@[simp] theorem setRead_hp (r : ObjRead) : (setRead s r).hp = s.hp := rfl
@[simp] theorem setRead_mg (r : ObjRead) : (setRead s r).mg = s.mg := rfl
@[simp] theorem setRead_pins (r : ObjRead) : (setRead s r).pins = s.pins := rfl
@[simp] theorem setRead_mem (r : ObjRead) : (setRead s r).mem = s.mem := rfl
@[simp] theorem setRead_free (r : ObjRead) : (setRead s r).free = s.free := rfl
@[simp] theorem setRead_out (r : ObjRead) : (setRead s r).out = s.out := rfl
@[simp] theorem setRead_pending (r : ObjRead) : (setRead s r).pending = s.pending := rfl

@[simp] theorem giveUp_counter (o : Oid) : (giveUp s o).counter = s.counter := rfl
@[simp] theorem giveUp_ing (o : Oid) : (giveUp s o).ing = s.ing := rfl
@[simp] theorem giveUp_egr (o : Oid) : (giveUp s o).egr = s.egr := rfl
@[simp] theorem giveUp_cmb (o : Oid) : (giveUp s o).cmb = s.cmb := rfl
@[simp] theorem giveUp_coh (o : Oid) : (giveUp s o).coh = s.coh := rfl
@[simp] theorem giveUp_eng (o : Oid) : (giveUp s o).eng = s.eng := rfl
@[simp] theorem giveUp_acc (o : Oid) : (giveUp s o).acc = s.acc := rfl
@[simp] theorem giveUp_ftl (o : Oid) : (giveUp s o).ftl = s.ftl := rfl
@[simp] theorem giveUp_dry (o : Oid) : (giveUp s o).dry = s.dry := rfl
@[simp] theorem giveUp_lse (o : Oid) : (giveUp s o).lse = s.lse := rfl
@[simp] theorem giveUp_lnk (o : Oid) : (giveUp s o).lnk = s.lnk := rfl
@[simp] theorem giveUp_swc (o : Oid) : (giveUp s o).swc = s.swc := rfl
@[simp] theorem giveUp_shp (o : Oid) : (giveUp s o).shp = s.shp := rfl
@[simp] theorem giveUp_sec (o : Oid) : (giveUp s o).sec = s.sec := rfl
@[simp] theorem giveUp_pwr (o : Oid) : (giveUp s o).pwr = s.pwr := rfl
@[simp] theorem giveUp_boot (o : Oid) : (giveUp s o).boot = s.boot := rfl
@[simp] theorem giveUp_err (o : Oid) : (giveUp s o).err = s.err := rfl
@[simp] theorem giveUp_hp (o : Oid) : (giveUp s o).hp = s.hp := rfl
@[simp] theorem giveUp_mg (o : Oid) : (giveUp s o).mg = s.mg := rfl
@[simp] theorem giveUp_pins (o : Oid) : (giveUp s o).pins = s.pins := rfl
@[simp] theorem giveUp_mem (o : Oid) : (giveUp s o).mem = s.mem := rfl
@[simp] theorem giveUp_free (o : Oid) : (giveUp s o).free = s.free := rfl
@[simp] theorem giveUp_out (o : Oid) : (giveUp s o).out = s.out := rfl
@[simp] theorem giveUp_pending (o : Oid) : (giveUp s o).pending = s.pending := rfl

@[simp] theorem endPlan_counter (k : BitVec 8) : (endPlan s k).counter = s.counter := by unfold endPlan; split <;> rfl
@[simp] theorem endPlan_ing (k : BitVec 8) : (endPlan s k).ing = s.ing := by unfold endPlan; split <;> rfl
@[simp] theorem endPlan_egr (k : BitVec 8) : (endPlan s k).egr = s.egr := by unfold endPlan; split <;> rfl
@[simp] theorem endPlan_cmb (k : BitVec 8) : (endPlan s k).cmb = s.cmb := by unfold endPlan; split <;> rfl
@[simp] theorem endPlan_coh (k : BitVec 8) : (endPlan s k).coh = s.coh := by unfold endPlan; split <;> rfl
@[simp] theorem endPlan_eng (k : BitVec 8) : (endPlan s k).eng = s.eng := by unfold endPlan; split <;> rfl
@[simp] theorem endPlan_acc (k : BitVec 8) : (endPlan s k).acc = s.acc := by unfold endPlan; split <;> rfl
@[simp] theorem endPlan_ftl (k : BitVec 8) : (endPlan s k).ftl = s.ftl := by unfold endPlan; split <;> rfl
@[simp] theorem endPlan_dry (k : BitVec 8) : (endPlan s k).dry = s.dry := by unfold endPlan; split <;> rfl
@[simp] theorem endPlan_lse (k : BitVec 8) : (endPlan s k).lse = s.lse := by unfold endPlan; split <;> rfl
@[simp] theorem endPlan_lnk (k : BitVec 8) : (endPlan s k).lnk = s.lnk := by unfold endPlan; split <;> rfl
@[simp] theorem endPlan_swc (k : BitVec 8) : (endPlan s k).swc = s.swc := by unfold endPlan; split <;> rfl
@[simp] theorem endPlan_shp (k : BitVec 8) : (endPlan s k).shp = s.shp := by unfold endPlan; split <;> rfl
@[simp] theorem endPlan_sec (k : BitVec 8) : (endPlan s k).sec = s.sec := by unfold endPlan; split <;> rfl
@[simp] theorem endPlan_pwr (k : BitVec 8) : (endPlan s k).pwr = s.pwr := by unfold endPlan; split <;> rfl
@[simp] theorem endPlan_boot (k : BitVec 8) : (endPlan s k).boot = s.boot := by unfold endPlan; split <;> rfl
@[simp] theorem endPlan_err (k : BitVec 8) : (endPlan s k).err = s.err := by unfold endPlan; split <;> rfl
@[simp] theorem endPlan_hp (k : BitVec 8) : (endPlan s k).hp = s.hp := by unfold endPlan; split <;> rfl
@[simp] theorem endPlan_mg (k : BitVec 8) : (endPlan s k).mg = s.mg := by unfold endPlan; split <;> rfl
@[simp] theorem endPlan_pins (k : BitVec 8) : (endPlan s k).pins = s.pins := by unfold endPlan; split <;> rfl
@[simp] theorem endPlan_mem (k : BitVec 8) : (endPlan s k).mem = s.mem := by unfold endPlan; split <;> rfl
@[simp] theorem endPlan_free (k : BitVec 8) : (endPlan s k).free = s.free := by unfold endPlan; split <;> rfl
@[simp] theorem endPlan_out (k : BitVec 8) : (endPlan s k).out = s.out := by unfold endPlan; split <;> rfl
@[simp] theorem endPlan_pending (k : BitVec 8) : (endPlan s k).pending = s.pending := by unfold endPlan; split <;> rfl

@[simp] theorem modFill_counter (o : Oid) (f : Fill → Fill) : (modFill s o f).counter = s.counter := rfl
@[simp] theorem modFill_ing (o : Oid) (f : Fill → Fill) : (modFill s o f).ing = s.ing := rfl
@[simp] theorem modFill_egr (o : Oid) (f : Fill → Fill) : (modFill s o f).egr = s.egr := rfl
@[simp] theorem modFill_cmb (o : Oid) (f : Fill → Fill) : (modFill s o f).cmb = s.cmb := rfl
@[simp] theorem modFill_coh (o : Oid) (f : Fill → Fill) : (modFill s o f).coh = s.coh := rfl
@[simp] theorem modFill_eng (o : Oid) (f : Fill → Fill) : (modFill s o f).eng = s.eng := rfl
@[simp] theorem modFill_acc (o : Oid) (f : Fill → Fill) : (modFill s o f).acc = s.acc := rfl
@[simp] theorem modFill_ftl (o : Oid) (f : Fill → Fill) : (modFill s o f).ftl = s.ftl := rfl
@[simp] theorem modFill_dry (o : Oid) (f : Fill → Fill) : (modFill s o f).dry = s.dry := rfl
@[simp] theorem modFill_lse (o : Oid) (f : Fill → Fill) : (modFill s o f).lse = s.lse := rfl
@[simp] theorem modFill_lnk (o : Oid) (f : Fill → Fill) : (modFill s o f).lnk = s.lnk := rfl
@[simp] theorem modFill_swc (o : Oid) (f : Fill → Fill) : (modFill s o f).swc = s.swc := rfl
@[simp] theorem modFill_shp (o : Oid) (f : Fill → Fill) : (modFill s o f).shp = s.shp := rfl
@[simp] theorem modFill_sec (o : Oid) (f : Fill → Fill) : (modFill s o f).sec = s.sec := rfl
@[simp] theorem modFill_pwr (o : Oid) (f : Fill → Fill) : (modFill s o f).pwr = s.pwr := rfl
@[simp] theorem modFill_boot (o : Oid) (f : Fill → Fill) : (modFill s o f).boot = s.boot := rfl
@[simp] theorem modFill_err (o : Oid) (f : Fill → Fill) : (modFill s o f).err = s.err := rfl
@[simp] theorem modFill_hp (o : Oid) (f : Fill → Fill) : (modFill s o f).hp = s.hp := rfl
@[simp] theorem modFill_mg (o : Oid) (f : Fill → Fill) : (modFill s o f).mg = s.mg := rfl
@[simp] theorem modFill_pins (o : Oid) (f : Fill → Fill) : (modFill s o f).pins = s.pins := rfl
@[simp] theorem modFill_mem (o : Oid) (f : Fill → Fill) : (modFill s o f).mem = s.mem := rfl
@[simp] theorem modFill_free (o : Oid) (f : Fill → Fill) : (modFill s o f).free = s.free := rfl
@[simp] theorem modFill_out (o : Oid) (f : Fill → Fill) : (modFill s o f).out = s.out := rfl
@[simp] theorem modFill_pending (o : Oid) (f : Fill → Fill) : (modFill s o f).pending = s.pending := rfl

@[simp] theorem setSource_counter (x : Source) : (setSource s x).counter = s.counter := rfl
@[simp] theorem setSource_ing (x : Source) : (setSource s x).ing = s.ing := rfl
@[simp] theorem setSource_egr (x : Source) : (setSource s x).egr = s.egr := rfl
@[simp] theorem setSource_cmb (x : Source) : (setSource s x).cmb = s.cmb := rfl
@[simp] theorem setSource_coh (x : Source) : (setSource s x).coh = s.coh := rfl
@[simp] theorem setSource_eng (x : Source) : (setSource s x).eng = s.eng := rfl
@[simp] theorem setSource_acc (x : Source) : (setSource s x).acc = s.acc := rfl
@[simp] theorem setSource_obj (x : Source) : (setSource s x).obj = s.obj := rfl
@[simp] theorem setSource_ftl (x : Source) : (setSource s x).ftl = s.ftl := rfl
@[simp] theorem setSource_dry (x : Source) : (setSource s x).dry = s.dry := rfl
@[simp] theorem setSource_lse (x : Source) : (setSource s x).lse = s.lse := rfl
@[simp] theorem setSource_lnk (x : Source) : (setSource s x).lnk = s.lnk := rfl
@[simp] theorem setSource_swc (x : Source) : (setSource s x).swc = s.swc := rfl
@[simp] theorem setSource_shp (x : Source) : (setSource s x).shp = s.shp := rfl
@[simp] theorem setSource_sec (x : Source) : (setSource s x).sec = s.sec := rfl
@[simp] theorem setSource_pwr (x : Source) : (setSource s x).pwr = s.pwr := rfl
@[simp] theorem setSource_boot (x : Source) : (setSource s x).boot = s.boot := rfl
@[simp] theorem setSource_err (x : Source) : (setSource s x).err = s.err := rfl
@[simp] theorem setSource_hp (x : Source) : (setSource s x).hp = s.hp := rfl
@[simp] theorem setSource_pins (x : Source) : (setSource s x).pins = s.pins := rfl
@[simp] theorem setSource_mem (x : Source) : (setSource s x).mem = s.mem := rfl
@[simp] theorem setSource_free (x : Source) : (setSource s x).free = s.free := rfl
@[simp] theorem setSource_out (x : Source) : (setSource s x).out = s.out := rfl
@[simp] theorem setSource_pending (x : Source) : (setSource s x).pending = s.pending := rfl

@[simp] theorem modPriv_counter (w : Who) (f : Priv → Priv) : (modPriv s w f).counter = s.counter := by unfold modPriv; split <;> rfl
@[simp] theorem modPriv_ing (w : Who) (f : Priv → Priv) : (modPriv s w f).ing = s.ing := by unfold modPriv; split <;> rfl
@[simp] theorem modPriv_egr (w : Who) (f : Priv → Priv) : (modPriv s w f).egr = s.egr := by unfold modPriv; split <;> rfl
@[simp] theorem modPriv_cmb (w : Who) (f : Priv → Priv) : (modPriv s w f).cmb = s.cmb := by unfold modPriv; split <;> rfl
@[simp] theorem modPriv_coh (w : Who) (f : Priv → Priv) : (modPriv s w f).coh = s.coh := by unfold modPriv; split <;> rfl
@[simp] theorem modPriv_eng (w : Who) (f : Priv → Priv) : (modPriv s w f).eng = s.eng := by unfold modPriv; split <;> rfl
@[simp] theorem modPriv_acc (w : Who) (f : Priv → Priv) : (modPriv s w f).acc = s.acc := by unfold modPriv; split <;> rfl
@[simp] theorem modPriv_obj (w : Who) (f : Priv → Priv) : (modPriv s w f).obj = s.obj := by unfold modPriv; split <;> rfl
@[simp] theorem modPriv_ftl (w : Who) (f : Priv → Priv) : (modPriv s w f).ftl = s.ftl := by unfold modPriv; split <;> rfl
@[simp] theorem modPriv_dry (w : Who) (f : Priv → Priv) : (modPriv s w f).dry = s.dry := by unfold modPriv; split <;> rfl
@[simp] theorem modPriv_lse (w : Who) (f : Priv → Priv) : (modPriv s w f).lse = s.lse := by unfold modPriv; split <;> rfl
@[simp] theorem modPriv_lnk (w : Who) (f : Priv → Priv) : (modPriv s w f).lnk = s.lnk := by unfold modPriv; split <;> rfl
@[simp] theorem modPriv_swc (w : Who) (f : Priv → Priv) : (modPriv s w f).swc = s.swc := by unfold modPriv; split <;> rfl
@[simp] theorem modPriv_shp (w : Who) (f : Priv → Priv) : (modPriv s w f).shp = s.shp := by unfold modPriv; split <;> rfl
@[simp] theorem modPriv_sec (w : Who) (f : Priv → Priv) : (modPriv s w f).sec = s.sec := by unfold modPriv; split <;> rfl
@[simp] theorem modPriv_pwr (w : Who) (f : Priv → Priv) : (modPriv s w f).pwr = s.pwr := by unfold modPriv; split <;> rfl
@[simp] theorem modPriv_boot (w : Who) (f : Priv → Priv) : (modPriv s w f).boot = s.boot := by unfold modPriv; split <;> rfl
@[simp] theorem modPriv_err (w : Who) (f : Priv → Priv) : (modPriv s w f).err = s.err := by unfold modPriv; split <;> rfl
@[simp] theorem modPriv_hp (w : Who) (f : Priv → Priv) : (modPriv s w f).hp = s.hp := by unfold modPriv; split <;> rfl
@[simp] theorem modPriv_pins (w : Who) (f : Priv → Priv) : (modPriv s w f).pins = s.pins := by unfold modPriv; split <;> rfl
@[simp] theorem modPriv_mem (w : Who) (f : Priv → Priv) : (modPriv s w f).mem = s.mem := by unfold modPriv; split <;> rfl
@[simp] theorem modPriv_free (w : Who) (f : Priv → Priv) : (modPriv s w f).free = s.free := by unfold modPriv; split <;> rfl
@[simp] theorem modPriv_out (w : Who) (f : Priv → Priv) : (modPriv s w f).out = s.out := by unfold modPriv; split <;> rfl
@[simp] theorem modPriv_pending (w : Who) (f : Priv → Priv) : (modPriv s w f).pending = s.pending := by unfold modPriv; split <;> rfl

@[simp] theorem setCmdStat_counter (w : Who) (b : BitVec 16) (st : Status) : (setCmdStat s w b st).counter = s.counter := modPriv_counter ..
@[simp] theorem setCmdStat_ing (w : Who) (b : BitVec 16) (st : Status) : (setCmdStat s w b st).ing = s.ing := modPriv_ing ..
@[simp] theorem setCmdStat_egr (w : Who) (b : BitVec 16) (st : Status) : (setCmdStat s w b st).egr = s.egr := modPriv_egr ..
@[simp] theorem setCmdStat_cmb (w : Who) (b : BitVec 16) (st : Status) : (setCmdStat s w b st).cmb = s.cmb := modPriv_cmb ..
@[simp] theorem setCmdStat_coh (w : Who) (b : BitVec 16) (st : Status) : (setCmdStat s w b st).coh = s.coh := modPriv_coh ..
@[simp] theorem setCmdStat_eng (w : Who) (b : BitVec 16) (st : Status) : (setCmdStat s w b st).eng = s.eng := modPriv_eng ..
@[simp] theorem setCmdStat_acc (w : Who) (b : BitVec 16) (st : Status) : (setCmdStat s w b st).acc = s.acc := modPriv_acc ..
@[simp] theorem setCmdStat_obj (w : Who) (b : BitVec 16) (st : Status) : (setCmdStat s w b st).obj = s.obj := modPriv_obj ..
@[simp] theorem setCmdStat_ftl (w : Who) (b : BitVec 16) (st : Status) : (setCmdStat s w b st).ftl = s.ftl := modPriv_ftl ..
@[simp] theorem setCmdStat_dry (w : Who) (b : BitVec 16) (st : Status) : (setCmdStat s w b st).dry = s.dry := modPriv_dry ..
@[simp] theorem setCmdStat_lse (w : Who) (b : BitVec 16) (st : Status) : (setCmdStat s w b st).lse = s.lse := modPriv_lse ..
@[simp] theorem setCmdStat_lnk (w : Who) (b : BitVec 16) (st : Status) : (setCmdStat s w b st).lnk = s.lnk := modPriv_lnk ..
@[simp] theorem setCmdStat_swc (w : Who) (b : BitVec 16) (st : Status) : (setCmdStat s w b st).swc = s.swc := modPriv_swc ..
@[simp] theorem setCmdStat_shp (w : Who) (b : BitVec 16) (st : Status) : (setCmdStat s w b st).shp = s.shp := modPriv_shp ..
@[simp] theorem setCmdStat_sec (w : Who) (b : BitVec 16) (st : Status) : (setCmdStat s w b st).sec = s.sec := modPriv_sec ..
@[simp] theorem setCmdStat_pwr (w : Who) (b : BitVec 16) (st : Status) : (setCmdStat s w b st).pwr = s.pwr := modPriv_pwr ..
@[simp] theorem setCmdStat_boot (w : Who) (b : BitVec 16) (st : Status) : (setCmdStat s w b st).boot = s.boot := modPriv_boot ..
@[simp] theorem setCmdStat_err (w : Who) (b : BitVec 16) (st : Status) : (setCmdStat s w b st).err = s.err := modPriv_err ..
@[simp] theorem setCmdStat_hp (w : Who) (b : BitVec 16) (st : Status) : (setCmdStat s w b st).hp = s.hp := modPriv_hp ..
@[simp] theorem setCmdStat_pins (w : Who) (b : BitVec 16) (st : Status) : (setCmdStat s w b st).pins = s.pins := modPriv_pins ..
@[simp] theorem setCmdStat_mem (w : Who) (b : BitVec 16) (st : Status) : (setCmdStat s w b st).mem = s.mem := modPriv_mem ..
@[simp] theorem setCmdStat_free (w : Who) (b : BitVec 16) (st : Status) : (setCmdStat s w b st).free = s.free := modPriv_free ..
@[simp] theorem setCmdStat_out (w : Who) (b : BitVec 16) (st : Status) : (setCmdStat s w b st).out = s.out := modPriv_out ..
@[simp] theorem setCmdStat_pending (w : Who) (b : BitVec 16) (st : Status) : (setCmdStat s w b st).pending = s.pending := modPriv_pending ..

@[simp] theorem killRecs_counter (p : DryRec → Bool) : (killRecs s p).counter = s.counter := rfl
@[simp] theorem killRecs_ing (p : DryRec → Bool) : (killRecs s p).ing = s.ing := rfl
@[simp] theorem killRecs_egr (p : DryRec → Bool) : (killRecs s p).egr = s.egr := rfl
@[simp] theorem killRecs_cmb (p : DryRec → Bool) : (killRecs s p).cmb = s.cmb := rfl
@[simp] theorem killRecs_coh (p : DryRec → Bool) : (killRecs s p).coh = s.coh := rfl
@[simp] theorem killRecs_eng (p : DryRec → Bool) : (killRecs s p).eng = s.eng := rfl
@[simp] theorem killRecs_acc (p : DryRec → Bool) : (killRecs s p).acc = s.acc := rfl
@[simp] theorem killRecs_obj (p : DryRec → Bool) : (killRecs s p).obj = s.obj := rfl
@[simp] theorem killRecs_ftl (p : DryRec → Bool) : (killRecs s p).ftl = s.ftl := rfl
@[simp] theorem killRecs_lse (p : DryRec → Bool) : (killRecs s p).lse = s.lse := rfl
@[simp] theorem killRecs_lnk (p : DryRec → Bool) : (killRecs s p).lnk = s.lnk := rfl
@[simp] theorem killRecs_swc (p : DryRec → Bool) : (killRecs s p).swc = s.swc := rfl
@[simp] theorem killRecs_shp (p : DryRec → Bool) : (killRecs s p).shp = s.shp := rfl
@[simp] theorem killRecs_sec (p : DryRec → Bool) : (killRecs s p).sec = s.sec := rfl
@[simp] theorem killRecs_pwr (p : DryRec → Bool) : (killRecs s p).pwr = s.pwr := rfl
@[simp] theorem killRecs_boot (p : DryRec → Bool) : (killRecs s p).boot = s.boot := rfl
@[simp] theorem killRecs_err (p : DryRec → Bool) : (killRecs s p).err = s.err := rfl
@[simp] theorem killRecs_hp (p : DryRec → Bool) : (killRecs s p).hp = s.hp := rfl
@[simp] theorem killRecs_mg (p : DryRec → Bool) : (killRecs s p).mg = s.mg := rfl
@[simp] theorem killRecs_pins (p : DryRec → Bool) : (killRecs s p).pins = s.pins := rfl
@[simp] theorem killRecs_mem (p : DryRec → Bool) : (killRecs s p).mem = s.mem := rfl
@[simp] theorem killRecs_free (p : DryRec → Bool) : (killRecs s p).free = s.free := rfl
@[simp] theorem killRecs_out (p : DryRec → Bool) : (killRecs s p).out = s.out := rfl
@[simp] theorem killRecs_pending (p : DryRec → Bool) : (killRecs s p).pending = s.pending := rfl

@[simp] theorem emit_out (o : Out) : (emit s o).out = s.out ++ [o] := rfl
@[simp] theorem emits_out (os : List Out) : (emits s os).out = s.out ++ os := rfl
@[simp] theorem notify_out (d : DevId) (n : Notice) : (notify s d n).out = s.out ++ [.notice d n] := rfl
@[simp] theorem takeFree_free (n : Nat) : (takeFree s n).free = s.free + n := rfl
@[simp] theorem setAlert_log (k : Nat) : (setAlert s k).err.log = s.err.log := rfl
@[simp] theorem setAlert_nextSeq (k : Nat) : (setAlert s k).err.nextSeq = s.err.nextSeq := rfl

end Sys2Proof.Machine
end

