-- ==== Sys2Proof/Laws/Tbl.lean ====
section
/-! SUPPORT. Laws of tables: what a key reads as after a write, a removal, a change of every entry. -/

namespace Sys2Proof.Machine
variable {κ α : Type} [DecidableEq κ]

@[simp] theorem tget_nil (k : κ) : tget ([] : Tbl κ α) k = none := rfl

@[simp] theorem tget_tset_same (t : Tbl κ α) (k : κ) (v : α) : tget (tset t k v) k = some v := by
  induction t with
  | nil => simp [tset, tget]
  | cons e t ih =>
    obtain ⟨k', v'⟩ := e
    by_cases h : k' = k <;> simp [tset, tget, h, ih]

@[simp] theorem tget_tset_ne (t : Tbl κ α) {k j : κ} (v : α) (h : j ≠ k) : tget (tset t k v) j = tget t j := by
  induction t with
  | nil => simp [tset, tget, Ne.symm h]
  | cons e t ih =>
    obtain ⟨k', v'⟩ := e
    by_cases hk : k' = k
    · subst hk; simp [tset, tget, Ne.symm h]
    · simp only [tset, hk, if_false, tget]
      split <;> simp [ih]

@[simp] theorem tget_tdel_same (t : Tbl κ α) (k : κ) : tget (tdel t k) k = none := by
  induction t with
  | nil => rfl
  | cons e t ih =>
    obtain ⟨k', v'⟩ := e
    by_cases h : k' = k
    · simpa [tdel, h] using ih
    · simp only [tdel, List.filter, h, decide_false, Bool.not_false, tget, if_false]
      simpa [tdel] using ih

@[simp] theorem tget_tdel_ne (t : Tbl κ α) {k j : κ} (h : j ≠ k) : tget (tdel t k) j = tget t j := by
  induction t with
  | nil => rfl
  | cons e t ih =>
    obtain ⟨k', v'⟩ := e
    by_cases hk : k' = k
    · subst hk; simpa [tdel, tget, Ne.symm h] using ih
    · simp only [tdel, List.filter, hk, decide_false, Bool.not_false, tget]
      split
      · rfl
      · simpa [tdel] using ih

@[simp] theorem tgetD_tset_same (t : Tbl κ α) (k : κ) (v d : α) : tgetD (tset t k v) k d = v := by simp [tgetD]

@[simp] theorem tgetD_tset_ne (t : Tbl κ α) {k j : κ} (v d : α) (h : j ≠ k) : tgetD (tset t k v) j d = tgetD t j d := by
  simp [tgetD, h]

@[simp] theorem tgetD_tdel_same (t : Tbl κ α) (k : κ) (d : α) : tgetD (tdel t k) k d = d := by simp [tgetD]

@[simp] theorem tgetD_tdel_ne (t : Tbl κ α) {k j : κ} (d : α) (h : j ≠ k) : tgetD (tdel t k) j d = tgetD t j d := by simp [tgetD, h]

theorem tget_tmap (t : Tbl κ α) (f : κ → α → α) (k : κ) : tget (tmap t f) k = (tget t k).map (f k) := by
  induction t with
  | nil => rfl
  | cons e t ih =>
    obtain ⟨k', v'⟩ := e
    by_cases h : k' = k
    · subst h; simp [tmap, tget]
    · simpa [tmap, tget, h] using ih

omit [DecidableEq κ] in
theorem tmap_id (t : Tbl κ α) (f : κ → α → α) (h : ∀ k v, f k v = v) : tmap t f = t := by
  induction t with
  | nil => rfl
  | cons e t ih =>
    obtain ⟨k', v'⟩ := e
    have ht : List.map (fun e : κ × α => (e.1, f e.1 e.2)) t = t := ih
    simp only [tmap, List.map_cons, h, List.cons.injEq, true_and]
    simp only [h] at ht
    exact ht

@[simp] theorem length_modWhere (l : List α) (p : α → Bool) (f : α → α) : (modWhere l p f).length = l.length := by simp [modWhere]

theorem mem_modWhere {l : List α} {p : α → Bool} {f : α → α} {x : α} :
    x ∈ modWhere l p f ↔ ∃ a ∈ l, (if p a then f a else a) = x := by simp [modWhere]

end Sys2Proof.Machine
end

