-- ==== Sys2Proof/Laws/Flags.lean ====
section
/-! SUPPORT. What raising an error event can do (R676): the error log and its alert, and nothing else. -/

namespace Sys2Proof.Machine

/-- Raising an event changes only the state of the error log and of ERR_ALERT. -/
theorem raise_only (s : State) (e : Event) : raise s e = { s with err := (raise s e).err } := by
  unfold raise
  have hu : ∃ x, (if e.action.toNat ≥ 2 then setAlert s alertRecord else s) = { s with err := x } := by
    split
    · exact ⟨_, rfl⟩
    · exact ⟨s.err, rfl⟩
  obtain ⟨x, hx⟩ := hu
  rw [hx]
  dsimp only
  split
  · rfl
  · split <;> rfl

theorem raise_merges {s : State} {e : Event} (h : s.err.log.any (recMatches s.counter e) = true) :
    (raise s e).err.log = modWhere s.err.log (recMatches s.counter e) (fun r => { r with repeats := satInc 16 r.repeats }) := by
  unfold raise
  split <;> simp [h]

theorem raise_appends {s : State} {e : Event} (h : s.err.log.any (recMatches s.counter e) = false) (hl : s.err.log.length < 4096) :
    ∃ r, (raise s e).err.log = s.err.log ++ [r] ∧ r.rseq = s.err.nextSeq ∧ r.source = e.source ∧ r.action = e.action ∧
      r.subject = e.subject ∧ r.loc = e.loc := by
  unfold raise
  split <;> simp [h, hl]

theorem raise_log_length {s : State} {e : Event} (h : s.err.log.length ≤ 4096) : (raise s e).err.log.length ≤ 4096 := by
  unfold raise
  generalize hs : (if e.action.toNat ≥ 2 then setAlert s alertRecord else s) = u
  have hu : u.err.log = s.err.log := by subst hs; split <;> rfl
  have hc : u.counter = s.counter := by subst hs; split <;> rfl
  dsimp only
  simp only [hu, hc]
  split
  · simpa using h
  · split
    · simp; omega
    · simp; omega

@[simp] theorem raise_mem (s : State) (e : Event) : (raise s e).mem = s.mem := by rw [raise_only]
@[simp] theorem raise_obj (s : State) (e : Event) : (raise s e).obj = s.obj := by rw [raise_only]
@[simp] theorem raise_ftl (s : State) (e : Event) : (raise s e).ftl = s.ftl := by rw [raise_only]
@[simp] theorem raise_lnk (s : State) (e : Event) : (raise s e).lnk = s.lnk := by rw [raise_only]
@[simp] theorem raise_mg (s : State) (e : Event) : (raise s e).mg = s.mg := by rw [raise_only]
@[simp] theorem raise_out (s : State) (e : Event) : (raise s e).out = s.out := by rw [raise_only]
@[simp] theorem raise_boot (s : State) (e : Event) : (raise s e).boot = s.boot := by rw [raise_only]
@[simp] theorem raise_dry (s : State) (e : Event) : (raise s e).dry = s.dry := by rw [raise_only]
@[simp] theorem raise_counter (s : State) (e : Event) : (raise s e).counter = s.counter := by rw [raise_only]
@[simp] theorem raise_pending (s : State) (e : Event) : (raise s e).pending = s.pending := by rw [raise_only]

end Sys2Proof.Machine
end

