-- ==== Sys2Proof/Laws/Memory.lean ====
section
/-! SUPPORT. Laws of the stacks' memory: a byte reads as it was last written, and every operation keeps the canonical form. -/

namespace Sys2Proof.Machine

/-- Every place of a cell list lies above `a`, and none holds zero. -/
def cellsAbove (a : Nat) (c : List Host.Cell) : Prop := ∀ e ∈ c, a < e.1 ∧ e.2 ≠ 0

theorem cellsWf_cons {k : Nat} {v : Byte} {rest : List Host.Cell} :
    cellsWf ((k, v) :: rest) = true ↔ v ≠ 0 ∧ cellsAbove k rest ∧ cellsWf rest = true := by
  induction rest generalizing k v with
  | nil => simp [cellsWf, cellsAbove]
  | cons e rest ih =>
    obtain ⟨k', v'⟩ := e
    have h := @ih k' v'
    constructor
    · intro hw
      simp only [cellsWf, Bool.and_eq_true, decide_eq_true_eq, bne_iff_ne, ne_eq] at hw
      obtain ⟨⟨hk, hv⟩, hr⟩ := hw
      refine ⟨hv, ?_, hr⟩
      have hr' := h.mp hr
      intro e he
      rcases List.mem_cons.mp he with rfl | he
      · exact ⟨hk, hr'.1⟩
      · exact ⟨Nat.lt_trans hk (hr'.2.1 e he).1, (hr'.2.1 e he).2⟩
    · rintro ⟨hv, ha, hr⟩
      have hk := (ha (k', v') (List.mem_cons_self ..)).1
      simp only [cellsWf, Bool.and_eq_true, decide_eq_true_eq, bne_iff_ne, ne_eq]
      exact ⟨⟨hk, hv⟩, hr⟩

theorem cellsAbove_cellWrite {a k : Nat} {b : Byte} {c : List Host.Cell} (h : cellsAbove a c) (hk : a < k) :
    cellsAbove a (cellWrite c k b) := by
  induction c with
  | nil =>
    intro e he
    unfold cellWrite at he
    split at he
    · exact absurd he (List.not_mem_nil)
    · next hb => rw [List.mem_singleton.mp he]; exact ⟨hk, hb⟩
  | cons x c ih =>
    obtain ⟨k', v'⟩ := x
    have hc : cellsAbove a c := fun e he => h e (List.mem_cons_of_mem _ he)
    have hx := h (k', v') (List.mem_cons_self ..)
    intro e he
    simp only [cellWrite] at he
    split at he
    · split at he
      · exact h e he
      · next hb =>
        rcases List.mem_cons.mp he with rfl | he
        · exact ⟨hk, hb⟩
        · exact h e he
    · split at he
      · split at he
        · exact hc e he
        · next hb =>
          rcases List.mem_cons.mp he with rfl | he
          · exact ⟨hx.1, hb⟩
          · exact hc e he
      · rcases List.mem_cons.mp he with rfl | he
        · exact hx
        · exact ih hc e he

/-- A write keeps the canonical form. -/
theorem cellsWf_cellWrite {c : List Host.Cell} (a : Nat) (b : Byte) (h : cellsWf c = true) : cellsWf (cellWrite c a b) = true := by
  induction c with
  | nil =>
    unfold cellWrite
    split
    · rfl
    · next hb => simpa [cellsWf] using hb
  | cons x c ih =>
    obtain ⟨k, v⟩ := x
    obtain ⟨hv, ha, hc⟩ := cellsWf_cons.mp h
    simp only [cellWrite]
    split
    · next hk =>
      split
      · exact h
      · next hb =>
        refine cellsWf_cons.mpr ⟨hb, ?_, h⟩
        intro e he
        rcases List.mem_cons.mp he with rfl | he
        · exact ⟨hk, hv⟩
        · exact ⟨Nat.lt_trans hk (ha e he).1, (ha e he).2⟩
    · split
      · split
        · exact hc
        · next hb => exact cellsWf_cons.mpr ⟨hb, ha, hc⟩
      · next h1 h2 => exact cellsWf_cons.mpr ⟨hv, cellsAbove_cellWrite ha (by omega), ih hc⟩

theorem cellsWf_cellWriteN {c : List Host.Cell} (a : Nat) (bs : List Byte) (h : cellsWf c = true) : cellsWf (cellWriteN c a bs) = true := by
  induction bs generalizing c a with
  | nil => exact h
  | cons b bs ih => exact ih (a + 1) (cellsWf_cellWrite a b h)

theorem cellsWf_filter {c : List Host.Cell} (p : Host.Cell → Bool) (h : cellsWf c = true) : cellsWf (c.filter p) = true := by
  induction c with
  | nil => rfl
  | cons x c ih =>
    obtain ⟨k, v⟩ := x
    obtain ⟨hv, ha, hc⟩ := cellsWf_cons.mp h
    by_cases hp : p (k, v) = true
    · simp only [List.filter, hp]
      exact cellsWf_cons.mpr ⟨hv, fun e he => ha e (List.mem_filter.mp he).1, ih hc⟩
    · simpa [List.filter, hp] using ih hc

theorem cellsWf_cellDrop {c : List Host.Cell} (a n : Nat) (h : cellsWf c = true) : cellsWf (cellDrop c a n) = true := cellsWf_filter _ h

theorem cellRead_above {c : List Host.Cell} {a : Nat} (h : cellsAbove a c) : cellRead c a = 0 := by
  induction c with
  | nil => rfl
  | cons x c ih =>
    obtain ⟨k, v⟩ := x
    have hk := (h (k, v) (List.mem_cons_self ..)).1
    have hne : k ≠ a := by omega
    simp only [cellRead, hne, if_false]
    exact ih fun e he => h e (List.mem_cons_of_mem _ he)

/-- A place reads as it was written. -/
theorem cellRead_cellWrite_same {c : List Host.Cell} (a : Nat) (b : Byte) (h : cellsWf c = true) :
    cellRead (cellWrite c a b) a = b := by
  induction c with
  | nil =>
    unfold cellWrite
    split
    · next hb => simp [cellRead, hb]
    · simp [cellRead]
  | cons x c ih =>
    obtain ⟨k, v⟩ := x
    obtain ⟨_, ha, hc⟩ := cellsWf_cons.mp h
    simp only [cellWrite]
    split
    · next hk =>
      split
      · next hb =>
        have hne : k ≠ a := by omega
        simp only [cellRead, hne, if_false, hb]
        exact cellRead_above fun e he => ⟨Nat.lt_trans hk (ha e he).1, (ha e he).2⟩
      · simp [cellRead]
    · split
      · next he =>
        subst he
        split
        · next hb => rw [hb]; exact cellRead_above ha
        · simp [cellRead]
      · next h1 h2 =>
        have hne : k ≠ a := fun e => h2 e.symm
        simp only [cellRead, hne, if_false]
        exact ih hc

/-- A write leaves every other place as it was. -/
theorem cellRead_cellWrite_ne (c : List Host.Cell) {a x : Nat} (b : Byte) (h : x ≠ a) : cellRead (cellWrite c a b) x = cellRead c x := by
  have h' : a ≠ x := Ne.symm h
  induction c with
  | nil =>
    unfold cellWrite
    split
    · rfl
    · simp [cellRead, h']
  | cons y c ih =>
    obtain ⟨k, v⟩ := y
    simp only [cellWrite]
    split
    · split
      · rfl
      · simp [cellRead, h']
    · split
      · next he =>
        subst he
        split <;> simp [cellRead, h']
      · simp only [cellRead, ih]

theorem cellRead_cellWriteN_ne (c : List Host.Cell) (a : Nat) (bs : List Byte) {x : Nat} (h : x < a ∨ a + bs.length ≤ x) :
    cellRead (cellWriteN c a bs) x = cellRead c x := by
  induction bs generalizing c a with
  | nil => rfl
  | cons b bs ih =>
    have hl : (b :: bs).length = bs.length + 1 := rfl
    rw [hl] at h
    rw [cellWriteN, ih _ (a + 1) (by omega)]
    exact cellRead_cellWrite_ne _ _ (by omega)

theorem cellRead_cellWriteN_same {c : List Host.Cell} (a : Nat) (bs : List Byte) (k : Nat) (hw : cellsWf c = true) (hk : k < bs.length) :
    cellRead (cellWriteN c a bs) (a + k) = byteAt bs k := by
  induction bs generalizing c a k with
  | nil => simp at hk
  | cons b bs ih =>
    cases k with
    | zero =>
      rw [cellWriteN, cellRead_cellWriteN_ne _ _ _ (by omega)]
      simpa [byteAt] using cellRead_cellWrite_same a b hw
    | succ k =>
      rw [cellWriteN, show a + (k + 1) = (a + 1) + k by omega, ih (a + 1) k (cellsWf_cellWrite a b hw) (by simpa using hk)]
      simp [byteAt]

theorem cellRead_cellDrop_out (c : List Host.Cell) {a n x : Nat} (h : x < a ∨ a + n ≤ x) : cellRead (cellDrop c a n) x = cellRead c x := by
  induction c with
  | nil => rfl
  | cons y c ih =>
    obtain ⟨k, v⟩ := y
    by_cases hp : k < a ∨ a + n ≤ k
    · have : (decide (k < a) || decide (a + n ≤ k)) = true := by simpa using hp
      simp only [cellDrop, List.filter, this, cellRead]
      split
      · rfl
      · exact ih
    · have : (decide (k < a) || decide (a + n ≤ k)) = false := by simpa using hp
      have hne : k ≠ x := by omega
      simp only [cellDrop, List.filter, this, cellRead, hne, if_false]
      exact ih

theorem cellRead_cellDrop_in (c : List Host.Cell) {a n x : Nat} (h : a ≤ x) (h' : x < a + n) : cellRead (cellDrop c a n) x = 0 := by
  induction c with
  | nil => rfl
  | cons y c ih =>
    obtain ⟨k, v⟩ := y
    by_cases hp : k < a ∨ a + n ≤ k
    · have hd : (decide (k < a) || decide (a + n ≤ k)) = true := by simpa using hp
      have hne : k ≠ x := by omega
      simp only [cellDrop, List.filter, hd, cellRead, hne, if_false]
      exact ih
    · have hd : (decide (k < a) || decide (a + n ≤ k)) = false := by simpa using hp
      simp only [cellDrop, List.filter, hd]
      exact ih

/-! ### The operations that write memory keep its form -/

theorem memWrite_wf {s : State} (a : Nat) (bs : List Byte) (h : Memory.wf s.mem = true) : Memory.wf (memWrite s a bs).mem = true :=
  cellsWf_cellWriteN _ _ h

theorem zeroRange_wf {s : State} (off n : Nat) (h : Memory.wf s.mem = true) : Memory.wf (zeroRange s off n).mem = true :=
  cellsWf_cellDrop _ _ h

theorem unpoison_wf {s : State} (line : Nat) (h : Memory.wf s.mem = true) : Memory.wf (unpoison s line).mem = true := h

theorem poisonLine_wf {s : State} (line : Nat) (h : Memory.wf s.mem = true) : Memory.wf (poisonLine s line).mem = true := by
  unfold poisonLine
  split
  · exact h
  · exact h

theorem linePut_cells (s : State) (line : Nat) (key bs : List Byte) :
    (linePut s line key bs).mem.cells = cellWriteN s.mem.cells (line * 128) (slice bs 0 128) := by
  unfold linePut
  generalize slice bs 0 128 = l
  split <;> simp only [unstick]

theorem linePut_wf {s : State} (line : Nat) (key bs : List Byte) (h : Memory.wf s.mem = true) :
    Memory.wf (linePut s line key bs).mem = true := by
  have hc : cellsWf (linePut s line key bs).mem.cells = true := by
    rw [linePut_cells]
    generalize slice bs 0 128 = l
    exact cellsWf_cellWriteN _ _ h
  exact hc

theorem reset_memory_wf : Memory.wf State.reset.mem = true := rfl

end Sys2Proof.Machine
end

