-- ==== Sys2Proof/Laws/Mgmt.lean ====
section
/-! SUPPORT. What one register write of a source can do (R608, R691, R696 to R699), and when the management ports have nothing to do. -/

namespace Sys2Proof.Machine

theorem answerUnreached_nil {s : State} (h : s.hp.forwarded = []) : answerUnreached s = s := by simp [answerUnreached, h]

/-- With no command running, no message waiting and none forwarded, the management ports do nothing. -/
theorem pump_quiet {s : State} (h1 : mgmtIdle s = true) (h2 : s.hp.forwarded = []) : pump s = s := by
  simp [pump, answerUnreached_nil h2, h1]

theorem accessRefused_none {s : State} {b : BitVec 16} {ok : Bool} (hk : blockKnown s b = true) (ha : ok = true)
    (hb : isResetting s 0 = false) : accessRefused s b ok = none := by
  have hr : blockBusy s b = false := by simp only [blockBusy, hb, Bool.false_and]
  simp [accessRefused, hk, ha, hr]

theorem mayWrite_operator {s : State} {i : BitVec 3} {b : BitVec 16} {o : Nat} {v : Word}
    (h : roleOf s (.session i) = some .admin ∨ roleOf s (.session i) = some .operator) : mayWrite s (.session i) b o v = true := by
  rcases h with h | h <;> simp [mayWrite, h]

theorem source_of_role {s : State} {w : Who} {r : Role} (h : roleOf s w = some r) : ∃ x, sourceOf s w = some x := by
  unfold roleOf at h
  cases hs : sourceOf s w with
  | none => simp [hs] at h
  | some x => exact ⟨x, rfl⟩

/-- A write that a session of role ADMIN or OPERATOR makes is what its register does, answered once it has taken effect. -/
theorem oneWrite_operator {s : State} {i : BitVec 3} {a v : Word} {f : State → Written} (hb : isResetting s 0 = false)
    (hr : roleOf s (.session i) = some .admin ∨ roleOf s (.session i) = some .operator) (hk : blockKnown s (blkOfAddr a) = true) :
    oneWrite s (.session i) a v f =
      match f s with
      | (t, some st) => respondOne t (.session i) a st
      | (t, none) => t := by
  have hs : ∃ x, sourceOf s (.session i) = some x := by rcases hr with h | h <;> exact source_of_role h
  obtain ⟨x, hx⟩ := hs
  simp only [oneWrite, hx, writeRefused, accessRefused_none hk (mayWrite_operator hr) hb] <;>
    (rcases f s with ⟨t, _ | st⟩ <;> rfl)

/-- A source that is not open changes nothing. -/
theorem oneWrite_closed {s : State} {w : Who} {a v : Word} {f : State → Written} (h : sourceOf s w = none) : oneWrite s w a v f = s := by
  simp [oneWrite, h]

/-- A write that is refused leaves everything but its answer as it was. -/
theorem oneWrite_refused {s : State} {w : Who} {a v : Word} {f : State → Written} {x : Source} {st : Status} (hx : sourceOf s w = some x)
    (h : writeRefused s w a v = some st) : oneWrite s w a v f = respondOne s w a st := by simp [oneWrite, hx, h]

theorem shutdownStep_off {s : State} (h : s.boot.shutdown = false) : shutdownStep s = s := by simp [shutdownStep, h]

end Sys2Proof.Machine
end

