-- ==== Sys2Proof/Laws/PerInstr.lean ====
section
/-! SUPPORT. One statement per command: a well-formed command's request, completion or flit has the length that its header gives
(R51, R57, R487). -/

namespace Sys2Proof.Laws

/-- The request a command carries. -/
def requestOf : Instr → Option Req
  | .rdLine _ f | .wrLine _ f | .wrLineRel _ f | .fence _ f | .atomAdd _ f | .atomLogic _ f | .atomSwap _ f | .atomCas _ f
  | .atomMinmax _ f | .readShared f | .readOwn f | .claim f | .trunkRequestArrive _ f | .egressSequencedArrive f
  | .egressReadArrive f | .tileXfer _ f | .accOpen _ f | .accStart _ f | .accSegmentIngress _ f | .accSegment f
  | .accResult f | .accClose _ f | .gatherDirect _ f | .gatherIndexed _ f | .scatterDirect _ f | .scatterIndexed _ f
  | .filter _ f | .scoreSel _ f | .expand _ f | .seal _ f | .reseal _ f | .rdObj _ f | .discard _ f | .offer _ f
  | .withdraw _ f | .confirm _ f | .ownAccept _ f | .routeNotice _ f => some f
  | _ => none

/-- The completion a command carries. -/
def completionOf : Instr → Option Cpl
  | .destAnswerReturn f | .completionArrive f => some f
  | _ => none

/-- The flit a command carries. -/
def flitOf : Instr → Option Flit
  | .flitData _ f _ | .flitIdle _ f _ | .flitCtrlReserved _ f => some f
  | _ => none

/-- What a well-formed command carries has the length its header gives. -/
def Form.Statement (i : Instr) : Prop :=
  i.wf = true → (∀ f, requestOf i = some f → f.payload.length = 16 * f.len.toNat) ∧
    (∀ c, completionOf i = some c → c.data.length = 16 * c.len.toNat) ∧ ∀ fl, flitOf i = some fl → fl.payload.length = 240

theorem Form.of_request {i : Instr} {f : Req} (hw : i.wf = f.wf) (hr : requestOf i = some f) (hc : completionOf i = none)
    (hf : flitOf i = none) : Form.Statement i := by
  intro h
  rw [hw] at h
  simp only [Req.wf, Bool.and_eq_true, beq_iff_eq] at h
  refine ⟨?_, ?_, ?_⟩
  · intro g hg; rw [hr] at hg; cases hg; exact h.1
  · intro c h'; rw [hc] at h'; cases h'
  · intro c h'; rw [hf] at h'; cases h'

theorem Form.of_completion {i : Instr} {c : Cpl} (hw : i.wf = c.wf) (hr : requestOf i = none) (hc : completionOf i = some c)
    (hf : flitOf i = none) : Form.Statement i := by
  intro h
  rw [hw] at h
  simp only [Cpl.wf, beq_iff_eq] at h
  refine ⟨?_, ?_, ?_⟩
  · intro g hg; rw [hr] at hg; cases hg
  · intro d h'; rw [hc] at h'; cases h'; exact h
  · intro d h'; rw [hf] at h'; cases h'

theorem Form.of_flit {i : Instr} {fl : Flit} (hw : i.wf = fl.wf) (hr : requestOf i = none) (hc : completionOf i = none)
    (hf : flitOf i = some fl) : Form.Statement i := by
  intro h
  rw [hw] at h
  simp only [Flit.wf, beq_iff_eq] at h
  refine ⟨?_, ?_, ?_⟩
  · intro g hg; rw [hr] at hg; cases hg
  · intro d h'; rw [hc] at h'; cases h'
  · intro d h'; rw [hf] at h'; cases h'; exact h

theorem Form.of_none {i : Instr} (hr : requestOf i = none) (hc : completionOf i = none) (hf : flitOf i = none) : Form.Statement i := by
  intro _
  refine ⟨?_, ?_, ?_⟩
  · intro g hg; rw [hr] at hg; cases hg
  · intro d h'; rw [hc] at h'; cases h'
  · intro d h'; rw [hf] at h'; cases h'

theorem Form.rdLine (p : Port) (f : Req) : Form.Statement (.rdLine p f) := Form.of_request rfl rfl rfl rfl
theorem Form.wrLine (p : Port) (f : Req) : Form.Statement (.wrLine p f) := Form.of_request rfl rfl rfl rfl
theorem Form.wrLineRel (p : Port) (f : Req) : Form.Statement (.wrLineRel p f) := Form.of_request rfl rfl rfl rfl
theorem Form.fence (p : Port) (f : Req) : Form.Statement (.fence p f) := Form.of_request rfl rfl rfl rfl
theorem Form.atomAdd (p : Port) (f : Req) : Form.Statement (.atomAdd p f) := Form.of_request rfl rfl rfl rfl
theorem Form.atomLogic (p : Port) (f : Req) : Form.Statement (.atomLogic p f) := Form.of_request rfl rfl rfl rfl
theorem Form.atomSwap (p : Port) (f : Req) : Form.Statement (.atomSwap p f) := Form.of_request rfl rfl rfl rfl
theorem Form.atomCas (p : Port) (f : Req) : Form.Statement (.atomCas p f) := Form.of_request rfl rfl rfl rfl
theorem Form.atomMinmax (p : Port) (f : Req) : Form.Statement (.atomMinmax p f) := Form.of_request rfl rfl rfl rfl
theorem Form.readShared (f : Req) : Form.Statement (.readShared f) := Form.of_request rfl rfl rfl rfl
theorem Form.readOwn (f : Req) : Form.Statement (.readOwn f) := Form.of_request rfl rfl rfl rfl
theorem Form.claim (f : Req) : Form.Statement (.claim f) := Form.of_request rfl rfl rfl rfl
theorem Form.portBufferRelease (p : Port) : Form.Statement (.portBufferRelease p) := Form.of_none rfl rfl rfl
theorem Form.trunkRequestArrive (p : PortNo) (f : Req) : Form.Statement (.trunkRequestArrive p f) := Form.of_request rfl rfl rfl rfl
theorem Form.egressSequencedArrive (f : Req) : Form.Statement (.egressSequencedArrive f) := Form.of_request rfl rfl rfl rfl
theorem Form.egressReadArrive (f : Req) : Form.Statement (.egressReadArrive f) := Form.of_request rfl rfl rfl rfl
theorem Form.destAnswerReturn (c : Cpl) : Form.Statement (.destAnswerReturn c) := Form.of_completion rfl rfl rfl rfl
theorem Form.completionArrive (c : Cpl) : Form.Statement (.completionArrive c) := Form.of_completion rfl rfl rfl rfl
theorem Form.wrLineRelRelease (src : Ep) : Form.Statement (.wrLineRelRelease src) := Form.of_none rfl rfl rfl
theorem Form.fenceComplete (src : Ep) : Form.Statement (.fenceComplete src) := Form.of_none rfl rfl rfl
theorem Form.pathFaultNotice (dev : DevId) (p : PortNo) : Form.Statement (.pathFaultNotice dev p) := Form.of_none rfl rfl rfl
theorem Form.resendTimeout (src : Ep) (tag : Tag) : Form.Statement (.resendTimeout src tag) := Form.of_none rfl rfl rfl
theorem Form.pathLostTimeout (src : Ep) (tag : Tag) : Form.Statement (.pathLostTimeout src tag) := Form.of_none rfl rfl rfl
theorem Form.tagHoldExpire (src : Ep) (tag : Tag) : Form.Statement (.tagHoldExpire src tag) := Form.of_none rfl rfl rfl
theorem Form.settlingEnd (src dst : Ep) (cls : Cls) : Form.Statement (.settlingEnd src dst cls) := Form.of_none rfl rfl rfl
theorem Form.completionLogEvict (src dst : Ep) (cls : Cls) (seq : Seq) : Form.Statement (.completionLogEvict src dst cls seq) := Form.of_none rfl rfl rfl
theorem Form.windowRegisterWrite (w : Who) (p : Port) (win : BitVec 8) (reg : BitVec 3) (v : Word) : Form.Statement (.windowRegisterWrite w p win reg v) := Form.of_none rfl rfl rfl
theorem Form.progressNoticeSend (src : Ep) (tag : Tag) : Form.Statement (.progressNoticeSend src tag) := Form.of_none rfl rfl rfl
theorem Form.progressNoticeReceive (src : Ep) (tag : Tag) : Form.Statement (.progressNoticeReceive src tag) := Form.of_none rfl rfl rfl
theorem Form.joinWindowExpire (e : Nat) : Form.Statement (.joinWindowExpire e) := Form.of_none rfl rfl rfl
theorem Form.combineLeadComplete (e : Nat) (st : Status) (data : List Byte) : Form.Statement (.combineLeadComplete e st data) := Form.of_none rfl rfl rfl
theorem Form.combineFollowupComplete (e : Nat) (st : Status) (data : List Byte) : Form.Statement (.combineFollowupComplete e st data) := Form.of_none rfl rfl rfl
theorem Form.combineDestTimeout (e : Nat) : Form.Statement (.combineDestTimeout e) := Form.of_none rfl rfl rfl
theorem Form.snoopAnswer (p : PortNo) (tag : Tag) (data : Option (List Byte)) : Form.Statement (.snoopAnswer p tag data) := Form.of_none rfl rfl rfl
theorem Form.snoopTimeout (p : PortNo) (tag : Tag) : Form.Statement (.snoopTimeout p tag) := Form.of_none rfl rfl rfl
theorem Form.cohAttach (w : Who) (p : PortNo) (ways sets : BitVec 4) : Form.Statement (.cohAttach w p ways sets) := Form.of_none rfl rfl rfl
theorem Form.cohDetach (w : Who) (p : PortWays) : Form.Statement (.cohDetach w p) := Form.of_none rfl rfl rfl
theorem Form.detachFinish (p : PortNo) : Form.Statement (.detachFinish p) := Form.of_none rfl rfl rfl
theorem Form.tileXfer (pl : Place) (f : Req) : Form.Statement (.tileXfer pl f) := Form.of_request rfl rfl rfl rfl
theorem Form.portionPlace (q : Quad) : Form.Statement (.portionPlace q) := Form.of_none rfl rfl rfl
theorem Form.descriptorComplete (t : TileNo) : Form.Statement (.descriptorComplete t) := Form.of_none rfl rfl rfl
theorem Form.deviceFrameComplete (src : Ep) (tag : Tag) (a : Addr) (st : Status) (data : List Byte) : Form.Statement (.deviceFrameComplete src tag a st data) := Form.of_none rfl rfl rfl
theorem Form.dispatchRetryTimeout (src : Ep) (tag : Tag) : Form.Statement (.dispatchRetryTimeout src tag) := Form.of_none rfl rfl rfl
theorem Form.tileParityError (t : TileNo) (rereadOk : Bool) : Form.Statement (.tileParityError t rereadOk) := Form.of_none rfl rfl rfl
theorem Form.funcDisable (w : Who) (fn : EngFn) : Form.Statement (.funcDisable w fn) := Form.of_none rfl rfl rfl
theorem Form.funcEnable (w : Who) (fn : EngFn) : Form.Statement (.funcEnable w fn) := Form.of_none rfl rfl rfl
theorem Form.funcDrainTimeout (fn : EngFn) : Form.Statement (.funcDrainTimeout fn) := Form.of_none rfl rfl rfl
theorem Form.tileT0Write (w : Who) (t : TileNo) (v : Word) : Form.Statement (.tileT0Write w t v) := Form.of_none rfl rfl rfl
theorem Form.tileGate (t : TileNo) : Form.Statement (.tileGate t) := Form.of_none rfl rfl rfl
theorem Form.accOpen (pl : Place) (f : Req) : Form.Statement (.accOpen pl f) := Form.of_request rfl rfl rfl rfl
theorem Form.accBindingNotice (child : DevId) (b : Binding) : Form.Statement (.accBindingNotice child b) := Form.of_none rfl rfl rfl
theorem Form.accBindingTimeout (slot : BitVec 12) : Form.Statement (.accBindingTimeout slot) := Form.of_none rfl rfl rfl
theorem Form.accStart (pl : Place) (f : Req) : Form.Statement (.accStart pl f) := Form.of_request rfl rfl rfl rfl
theorem Form.accSegmentIngress (p : Port) (f : Req) : Form.Statement (.accSegmentIngress p f) := Form.of_request rfl rfl rfl rfl
theorem Form.accSegment (f : Req) : Form.Statement (.accSegment f) := Form.of_request rfl rfl rfl rfl
theorem Form.accWindowNotice (member : Ep) (tag : Tag) (n : WinNote) : Form.Statement (.accWindowNotice member tag n) := Form.of_none rfl rfl rfl
theorem Form.accStripeComplete (slot : BitVec 12) (seg stripe : Nat) : Form.Statement (.accStripeComplete slot seg stripe) := Form.of_none rfl rfl rfl
theorem Form.accResult (f : Req) : Form.Statement (.accResult f) := Form.of_request rfl rfl rfl rfl
theorem Form.accReport (handle : Word) (member : BitVec 10) (round : BitVec 16) (r : Report) : Form.Statement (.accReport handle member round r) := Form.of_none rfl rfl rfl
theorem Form.accStallTimeout (slot : BitVec 12) (member : BitVec 10) : Form.Statement (.accStallTimeout slot member) := Form.of_none rfl rfl rfl
theorem Form.accAbortNotice (handle : Word) (round : BitVec 16) : Form.Statement (.accAbortNotice handle round) := Form.of_none rfl rfl rfl
theorem Form.accClose (pl : Place) (f : Req) : Form.Statement (.accClose pl f) := Form.of_request rfl rfl rfl rfl
theorem Form.accIdleTimeout (slot : BitVec 12) : Form.Statement (.accIdleTimeout slot) := Form.of_none rfl rfl rfl
theorem Form.gatherDirect (pl : Place) (f : Req) : Form.Statement (.gatherDirect pl f) := Form.of_request rfl rfl rfl rfl
theorem Form.gatherIndexed (pl : Place) (f : Req) : Form.Statement (.gatherIndexed pl f) := Form.of_request rfl rfl rfl rfl
theorem Form.scatterDirect (pl : Place) (f : Req) : Form.Statement (.scatterDirect pl f) := Form.of_request rfl rfl rfl rfl
theorem Form.scatterIndexed (pl : Place) (f : Req) : Form.Statement (.scatterIndexed pl f) := Form.of_request rfl rfl rfl rfl
theorem Form.filter (pl : Place) (f : Req) : Form.Statement (.filter pl f) := Form.of_request rfl rfl rfl rfl
theorem Form.scoreSel (pl : Place) (f : Req) : Form.Statement (.scoreSel pl f) := Form.of_request rfl rfl rfl rfl
theorem Form.expand (pl : Place) (f : Req) : Form.Statement (.expand pl f) := Form.of_request rfl rfl rfl rfl
theorem Form.zskBlockExpand (t : TileNo) : Form.Statement (.zskBlockExpand t) := Form.of_none rfl rfl rfl
theorem Form.zskRereadResult (t : TileNo) (bytes : List Byte) : Form.Statement (.zskRereadResult t bytes) := Form.of_none rfl rfl rfl
theorem Form.create (w : Who) (ten : TenantId) : Form.Statement (.create w ten) := Form.of_none rfl rfl rfl
theorem Form.place (w : Who) (ten : TenantId) : Form.Statement (.place w ten) := Form.of_none rfl rfl rfl
theorem Form.unplace (w : Who) (ten : TenantId) : Form.Statement (.unplace w ten) := Form.of_none rfl rfl rfl
theorem Form.setAlt (w : Who) (ten : TenantId) : Form.Statement (.setAlt w ten) := Form.of_none rfl rfl rfl
theorem Form.delete (w : Who) (ten : TenantId) : Form.Statement (.delete w ten) := Form.of_none rfl rfl rfl
theorem Form.query (w : Who) (ten : TenantId) : Form.Statement (.query w ten) := Form.of_none rfl rfl rfl
theorem Form.planOpen (w : Who) (ten : TenantId) : Form.Statement (.planOpen w ten) := Form.of_none rfl rfl rfl
theorem Form.planClose (w : Who) (ten : TenantId) : Form.Statement (.planClose w ten) := Form.of_none rfl rfl rfl
theorem Form.objectScrubFree (oid : Oid) : Form.Statement (.objectScrubFree oid) := Form.of_none rfl rfl rfl
theorem Form.t1CopyFilled (oid : Oid) : Form.Statement (.t1CopyFilled oid) := Form.of_none rfl rfl rfl
theorem Form.replicaFilled (oid : Oid) : Form.Statement (.replicaFilled oid) := Form.of_none rfl rfl rfl
theorem Form.seal (pl : Place) (f : Req) : Form.Statement (.seal pl f) := Form.of_request rfl rfl rfl rfl
theorem Form.reseal (pl : Place) (f : Req) : Form.Statement (.reseal pl f) := Form.of_request rfl rfl rfl rfl
theorem Form.rdObj (pl : Place) (f : Req) : Form.Statement (.rdObj pl f) := Form.of_request rfl rfl rfl rfl
theorem Form.tier3FetchDone (oid : Oid) (unit : Nat) (d : Decoded) : Form.Statement (.tier3FetchDone oid unit d) := Form.of_none rfl rfl rfl
theorem Form.tier3Uncorrectable (oid : Oid) (unit : Nat) : Form.Statement (.tier3Uncorrectable oid unit) := Form.of_none rfl rfl rfl
theorem Form.planStepFetch (plan : BitVec 8) : Form.Statement (.planStepFetch plan) := Form.of_none rfl rfl rfl
theorem Form.discard (pl : Place) (f : Req) : Form.Statement (.discard pl f) := Form.of_request rfl rfl rfl rfl
theorem Form.format (w : Who) (d : Discovery) : Form.Statement (.format w d) := Form.of_none rfl rfl rfl
theorem Form.nandProgramComplete (a : PageAddr) : Form.Statement (.nandProgramComplete a) := Form.of_none rfl rfl rfl
theorem Form.nandProgramFail (a : PageAddr) : Form.Statement (.nandProgramFail a) := Form.of_none rfl rfl rfl
theorem Form.gcCycleStart (rs : List Decoded) : Form.Statement (.gcCycleStart rs) := Form.of_none rfl rfl rfl
theorem Form.gcVictimErase (b : BlkAddr) : Form.Statement (.gcVictimErase b) := Form.of_none rfl rfl rfl
theorem Form.nandEraseComplete (b : BlkAddr) : Form.Statement (.nandEraseComplete b) := Form.of_none rfl rfl rfl
theorem Form.nandEraseFail (b : BlkAddr) : Form.Statement (.nandEraseFail b) := Form.of_none rfl rfl rfl
theorem Form.patrolRead (b : BlkAddr) (rs : List Decoded) : Form.Statement (.patrolRead b rs) := Form.of_none rfl rfl rfl
theorem Form.flashTempSample (celsius : Int) : Form.Statement (.flashTempSample celsius) := Form.of_none rfl rfl rfl
theorem Form.ftlGcCfgWrite (w : Who) (v : Word) : Form.Statement (.ftlGcCfgWrite w v) := Form.of_none rfl rfl rfl
theorem Form.holdupMeasureDone (m : HoldMeas) : Form.Statement (.holdupMeasureDone m) := Form.of_none rfl rfl rfl
theorem Form.holdupRecompute (mv : Nat) : Form.Statement (.holdupRecompute mv) := Form.of_none rfl rfl rfl
theorem Form.compCreate (w : Who) : Form.Statement (.compCreate w) := Form.of_none rfl rfl rfl
theorem Form.compDestroy (w : Who) (c : CompId) : Form.Statement (.compDestroy w c) := Form.of_none rfl rfl rfl
theorem Form.grant (w : Who) (c : CompId) : Form.Statement (.grant w c) := Form.of_none rfl rfl rfl
theorem Form.renew (w : Who) (c : CompId) : Form.Statement (.renew w c) := Form.of_none rfl rfl rfl
theorem Form.release (w : Who) (c : CompId) : Form.Statement (.release w c) := Form.of_none rfl rfl rfl
theorem Form.stageWin (w : Who) (c : CompId) : Form.Statement (.stageWin w c) := Form.of_none rfl rfl rfl
theorem Form.stagePort (w : Who) (c : CompId) : Form.Statement (.stagePort w c) := Form.of_none rfl rfl rfl
theorem Form.stageLease (w : Who) (c : CompId) : Form.Statement (.stageLease w c) := Form.of_none rfl rfl rfl
theorem Form.stageClear (w : Who) (c : CompId) : Form.Statement (.stageClear w c) := Form.of_none rfl rfl rfl
theorem Form.commit (w : Who) (c : CompId) : Form.Statement (.commit w c) := Form.of_none rfl rfl rfl
theorem Form.queryLease (w : Who) (c : CompId) : Form.Statement (.queryLease w c) := Form.of_none rfl rfl rfl
theorem Form.ownRegister (w : Who) (c : CompId) : Form.Statement (.ownRegister w c) := Form.of_none rfl rfl rfl
theorem Form.ownDrop (w : Who) (c : CompId) : Form.Statement (.ownDrop w c) := Form.of_none rfl rfl rfl
theorem Form.epochPrepare (home : DevId) (c : CompId) (e : Epoch) (destroy : Bool) : Form.Statement (.epochPrepare home c e destroy) := Form.of_none rfl rfl rfl
theorem Form.epochReady (dev : DevId) (c : CompId) (r : ReadyNote) : Form.Statement (.epochReady dev c r) := Form.of_none rfl rfl rfl
theorem Form.epochReadyTimeout (c : CompId) : Form.Statement (.epochReadyTimeout c) := Form.of_none rfl rfl rfl
theorem Form.epochAbort (c : CompId) : Form.Statement (.epochAbort c) := Form.of_none rfl rfl rfl
theorem Form.epochSwitch (c : CompId) (e : Epoch) (reach : BitVec 64) (binds : List (Ep × CompId)) : Form.Statement (.epochSwitch c e reach binds) := Form.of_none rfl rfl rfl
theorem Form.epochSwitchResend (c : CompId) : Form.Statement (.epochSwitchResend c) := Form.of_none rfl rfl rfl
theorem Form.epochSwitched (dev : DevId) (c : CompId) : Form.Statement (.epochSwitched dev c) := Form.of_none rfl rfl rfl
theorem Form.sillageDrain (c : CompId) : Form.Statement (.sillageDrain c) := Form.of_none rfl rfl rfl
theorem Form.epochDrained (dev : DevId) (c : CompId) : Form.Statement (.epochDrained dev c) := Form.of_none rfl rfl rfl
theorem Form.epochClose (c : CompId) : Form.Statement (.epochClose c) := Form.of_none rfl rfl rfl
theorem Form.leaseExpire (slot : BitVec 16) : Form.Statement (.leaseExpire slot) := Form.of_none rfl rfl rfl
theorem Form.leaseScrubDone (slot : BitVec 16) : Form.Statement (.leaseScrubDone slot) := Form.of_none rfl rfl rfl
theorem Form.poolMemberLost (ep : Ep) : Form.Statement (.poolMemberLost ep) := Form.of_none rfl rfl rfl
theorem Form.deviceLost (dev : DevId) : Form.Statement (.deviceLost dev) := Form.of_none rfl rfl rfl
theorem Form.lossNotice (l : Loss) : Form.Statement (.lossNotice l) := Form.of_none rfl rfl rfl
theorem Form.offer (pl : Place) (f : Req) : Form.Statement (.offer pl f) := Form.of_request rfl rfl rfl rfl
theorem Form.withdraw (pl : Place) (f : Req) : Form.Statement (.withdraw pl f) := Form.of_request rfl rfl rfl rfl
theorem Form.confirm (pl : Place) (f : Req) : Form.Statement (.confirm pl f) := Form.of_request rfl rfl rfl rfl
theorem Form.ownAccept (pl : Place) (f : Req) : Form.Statement (.ownAccept pl f) := Form.of_request rfl rfl rfl rfl
theorem Form.offerLeaseExpire (slot : BitVec 16) : Form.Statement (.offerLeaseExpire slot) := Form.of_none rfl rfl rfl
theorem Form.gateUpdate (oid : Oid) (owner : Option CompId) : Form.Statement (.gateUpdate oid owner) := Form.of_none rfl rfl rfl
theorem Form.gateAck (oid : Oid) (found : Bool) : Form.Statement (.gateAck oid found) := Form.of_none rfl rfl rfl
theorem Form.flitData (p : PortNo) (fl : Flit) (tagOk : FlitCheck) : Form.Statement (.flitData p fl tagOk) := Form.of_flit rfl rfl rfl rfl
theorem Form.flitIdle (p : PortNo) (fl : Flit) (tagOk : FlitCheck) : Form.Statement (.flitIdle p fl tagOk) := Form.of_flit rfl rfl rfl rfl
theorem Form.replayTimeout (p : PortNo) : Form.Statement (.replayTimeout p) := Form.of_none rfl rfl rfl
theorem Form.keyChangeTimer (p : PortNo) : Form.Statement (.keyChangeTimer p) := Form.of_none rfl rfl rfl
theorem Form.linkParam (p : PortNo) (m : LinkParam) : Form.Statement (.linkParam p m) := Form.of_none rfl rfl rfl
theorem Form.authHello (p : PortNo) (m : AuthHello) : Form.Statement (.authHello p m) := Form.of_none rfl rfl rfl
theorem Form.authProof (p : PortNo) (m : AuthProof) : Form.Statement (.authProof p m) := Form.of_none rfl rfl rfl
theorem Form.kaPoint (p : PortNo) (point : List Byte) : Form.Statement (.kaPoint p point) := Form.of_none rfl rfl rfl
theorem Form.kaConfirm (p : PortNo) (value : List Byte) (verifies : Bool) : Form.Statement (.kaConfirm p value verifies) := Form.of_none rfl rfl rfl
theorem Form.keyNext (p : PortNo) (kph : Bool) : Form.Statement (.keyNext p kph) := Form.of_none rfl rfl rfl
theorem Form.linkDown (p : PortNo) (code : BitVec 4) : Form.Statement (.linkDown p code) := Form.of_none rfl rfl rfl
theorem Form.drain (p : PortNo) : Form.Statement (.drain p) := Form.of_none rfl rfl rfl
theorem Form.retrainReq (p : PortNo) : Form.Statement (.retrainReq p) := Form.of_none rfl rfl rfl
theorem Form.frameVoid (p : PortNo) (src : Ep) (tag : Tag) : Form.Statement (.frameVoid p src tag) := Form.of_none rfl rfl rfl
theorem Form.join (p : PortNo) (m : JoinMsg) : Form.Statement (.join p m) := Form.of_none rfl rfl rfl
theorem Form.joinResend (p : PortNo) : Form.Statement (.joinResend p) := Form.of_none rfl rfl rfl
theorem Form.presenceDetect (p : PortNo) (present : Bool) : Form.Statement (.presenceDetect p present) := Form.of_none rfl rfl rfl
theorem Form.portTrainStepFail (p : PortNo) (lanesOk : StepFail) : Form.Statement (.portTrainStepFail p lanesOk) := Form.of_none rfl rfl rfl
theorem Form.portTrained (p : PortNo) : Form.Statement (.portTrained p) := Form.of_none rfl rfl rfl
theorem Form.signalLoss (p : PortNo) (lane : BitVec 3) : Form.Statement (.signalLoss p lane) := Form.of_none rfl rfl rfl
theorem Form.ackStallTimeout (p : PortNo) : Form.Statement (.ackStallTimeout p) := Form.of_none rfl rfl rfl
theorem Form.noGoodFlitTimeout (p : PortNo) : Form.Statement (.noGoodFlitTimeout p) := Form.of_none rfl rfl rfl
theorem Form.replayRateWindow (p : PortNo) : Form.Statement (.replayRateWindow p) := Form.of_none rfl rfl rfl
theorem Form.retrainBackoffExpire (p : PortNo) : Form.Statement (.retrainBackoffExpire p) := Form.of_none rfl rfl rfl
theorem Form.portEnable (w : Who) (p : PortNo) : Form.Statement (.portEnable w p) := Form.of_none rfl rfl rfl
theorem Form.portDisable (w : Who) (p : PortNo) : Form.Statement (.portDisable w p) := Form.of_none rfl rfl rfl
theorem Form.retrain (w : Who) (p : PortNo) : Form.Statement (.retrain w p) := Form.of_none rfl rfl rfl
theorem Form.portDrain (w : Who) (p : PortNo) : Form.Statement (.portDrain w p) := Form.of_none rfl rfl rfl
theorem Form.portDrainEmpty (p : PortNo) : Form.Statement (.portDrainEmpty p) := Form.of_none rfl rfl rfl
theorem Form.portDrainTimeout (p : PortNo) : Form.Statement (.portDrainTimeout p) := Form.of_none rfl rfl rfl
theorem Form.frameAdmit (p : Port) (c : Cls) : Form.Statement (.frameAdmit p c) := Form.of_none rfl rfl rfl
theorem Form.residencyExpire (id : Nat) : Form.Statement (.residencyExpire id) := Form.of_none rfl rfl rfl
theorem Form.frameSchedule (p : Port) : Form.Statement (.frameSchedule p) := Form.of_none rfl rfl rfl
theorem Form.routeNotice (p : PortNo) (f : Req) : Form.Statement (.routeNotice p f) := Form.of_request rfl rfl rfl rfl
theorem Form.restoreNoticeTimer (p : PortNo) : Form.Statement (.restoreNoticeTimer p) := Form.of_none rfl rfl rfl
theorem Form.occupancyWindow (p : PortNo) : Form.Statement (.occupancyWindow p) := Form.of_none rfl rfl rfl
theorem Form.swcClsCfgWrite (w : Who) (c : Cls) (v : Word) : Form.Statement (.swcClsCfgWrite w c v) := Form.of_none rfl rfl rfl
theorem Form.wheelEntryDue (p : Port) (b : BucketId) : Form.Statement (.wheelEntryDue p b) := Form.of_none rfl rfl rfl
theorem Form.shaperConfigWrite (w : Who) (p : Port) (off : BitVec 7) (v : Word) : Form.Statement (.shaperConfigWrite w p off v) := Form.of_none rfl rfl rfl
theorem Form.activate (w : Who) (ten : TenantId) : Form.Statement (.activate w ten) := Form.of_none rfl rfl rfl
theorem Form.deactivate (w : Who) (ten : TenantId) : Form.Statement (.deactivate w ten) := Form.of_none rfl rfl rfl
theorem Form.remove (w : Who) (ten : TenantId) : Form.Statement (.remove w ten) := Form.of_none rfl rfl rfl
theorem Form.removeNotice (coord : DevId) (ten : TenantId) : Form.Statement (.removeNotice coord ten) := Form.of_none rfl rfl rfl
theorem Form.removeMarked (dev : DevId) (ten : TenantId) : Form.Statement (.removeMarked dev ten) := Form.of_none rfl rfl rfl
theorem Form.tenantDmaDrain (ten : TenantId) : Form.Statement (.tenantDmaDrain ten) := Form.of_none rfl rfl rfl
theorem Form.removeDrained (dev : DevId) (ten : TenantId) : Form.Statement (.removeDrained dev ten) := Form.of_none rfl rfl rfl
theorem Form.scrub (coord : DevId) (ten : TenantId) : Form.Statement (.scrub coord ten) := Form.of_none rfl rfl rfl
theorem Form.scrubbed (dev : DevId) (ten : TenantId) : Form.Statement (.scrubbed dev ten) := Form.of_none rfl rfl rfl
theorem Form.removeResend (ten : TenantId) : Form.Statement (.removeResend ten) := Form.of_none rfl rfl rfl
theorem Form.removeTimeout (ten : TenantId) : Form.Statement (.removeTimeout ten) := Form.of_none rfl rfl rfl
theorem Form.coordinatorQuery (w : Who) (ten : TenantId) : Form.Statement (.coordinatorQuery w ten) := Form.of_none rfl rfl rfl
theorem Form.quote (w : Who) : Form.Statement (.quote w) := Form.of_none rfl rfl rfl
theorem Form.fwStage (w : Who) : Form.Statement (.fwStage w) := Form.of_none rfl rfl rfl
theorem Form.fwVerifyDone (ok : Bool) (svn : Word) (digest : List Byte) : Form.Statement (.fwVerifyDone ok svn digest) := Form.of_none rfl rfl rfl
theorem Form.fwSwitch (w : Who) : Form.Statement (.fwSwitch w) := Form.of_none rfl rfl rfl
theorem Form.fwCommit (w : Who) : Form.Statement (.fwCommit w) := Form.of_none rfl rfl rfl
theorem Form.tlsHandshake (h : Handshake) : Form.Statement (.tlsHandshake h) := Form.of_none rfl rfl rfl
theorem Form.sessionIdleTimeout (i : BitVec 3) : Form.Statement (.sessionIdleTimeout i) := Form.of_none rfl rfl rfl
theorem Form.intervalEnd (inW : Nat) (doms : List (Nat × Nat)) : Form.Statement (.intervalEnd inW doms) := Form.of_none rfl rfl rfl
theorem Form.thermalRead (temps : List Int) : Form.Statement (.thermalRead temps) := Form.of_none rfl rfl rfl
theorem Form.noteRequestDecay (die : BitVec 3) : Form.Statement (.noteRequestDecay die) := Form.of_none rfl rfl rfl
theorem Form.noteRampEnd (die : BitVec 3) : Form.Statement (.noteRampEnd die) := Form.of_none rfl rfl rfl
theorem Form.droopDetect (dom : BitVec 5) : Form.Statement (.droopDetect dom) := Form.of_none rfl rfl rfl
theorem Form.droopRecover (dom : BitVec 5) : Form.Statement (.droopRecover dom) := Form.of_none rfl rfl rfl
theorem Form.droopRecoverTimeout (dom : BitVec 5) : Form.Statement (.droopRecoverTimeout dom) := Form.of_none rfl rfl rfl
theorem Form.undervoltage (dom : BitVec 5) : Form.Statement (.undervoltage dom) := Form.of_none rfl rfl rfl
theorem Form.pwrCapWrite (w : Who) (v : Word) : Form.Statement (.pwrCapWrite w v) := Form.of_none rfl rfl rfl
theorem Form.pwrPhaseWrite (w : Who) (v : Word) : Form.Statement (.pwrPhaseWrite w v) := Form.of_none rfl rfl rfl
theorem Form.powerUp (b : BootInputs) : Form.Statement (.powerUp b) := Form.of_none rfl rfl rfl
theorem Form.shutdown (w : Who) : Form.Statement (.shutdown w) := Form.of_none rfl rfl rfl
theorem Form.flRead (w : Who) : Form.Statement (.flRead w) := Form.of_none rfl rfl rfl
theorem Form.flProgram (w : Who) : Form.Statement (.flProgram w) := Form.of_none rfl rfl rfl
theorem Form.flErase (w : Who) : Form.Statement (.flErase w) := Form.of_none rfl rfl rfl
theorem Form.registrarTableSync (t : SyncTable) : Form.Statement (.registrarTableSync t) := Form.of_none rfl rfl rfl
theorem Form.stackCodeError (stk : Quad) (granule : Nat) (place : StackPlace) : Form.Statement (.stackCodeError stk granule place) := Form.of_none rfl rfl rfl
theorem Form.bufferParityError (frame : Option Nat) (block : BitVec 12) : Form.Statement (.bufferParityError frame block) := Form.of_none rfl rfl rfl
theorem Form.rereadResult (stk : Quad) (granule : Nat) (place : StackPlace) (ok : Bool) : Form.Statement (.rereadResult stk granule place ok) := Form.of_none rfl rfl rfl
theorem Form.partialResetComplete (region : BitVec 5) (ok : Bool) : Form.Statement (.partialResetComplete region ok) := Form.of_none rfl rfl rfl
theorem Form.bltArm (w : Who) : Form.Statement (.bltArm w) := Form.of_none rfl rfl rfl
theorem Form.bltDisarm (w : Who) : Form.Statement (.bltDisarm w) := Form.of_none rfl rfl rfl
theorem Form.hpData (h : Shim) (body : List Byte) : Form.Statement (.hpData h body) := Form.of_none rfl rfl rfl
theorem Form.hpAck (h : Shim) : Form.Statement (.hpAck h) := Form.of_none rfl rfl rfl
theorem Form.hpMgmt (h : Shim) (m : MgmtMsg) : Form.Statement (.hpMgmt h m) := Form.of_none rfl rfl rfl
theorem Form.hpParam (h : Shim) (classes : BitVec 8) (credits : List Nat) : Form.Statement (.hpParam h classes credits) := Form.of_none rfl rfl rfl
theorem Form.moveHere (w : Who) : Form.Statement (.moveHere w) := Form.of_none rfl rfl rfl
theorem Form.hostMoveNotice (new : DevId) : Form.Statement (.hostMoveNotice new) := Form.of_none rfl rfl rfl
theorem Form.hostMoveOld (new : DevId) : Form.Statement (.hostMoveOld new) := Form.of_none rfl rfl rfl
theorem Form.hostMoveLoad (h : HostHandover) : Form.Statement (.hostMoveLoad h) := Form.of_none rfl rfl rfl
theorem Form.mgmtRead (w : Who) (m : MgmtMsg) : Form.Statement (.mgmtRead w m) := Form.of_none rfl rfl rfl
theorem Form.mgmtWrite (w : Who) (m : MgmtMsg) : Form.Statement (.mgmtWrite w m) := Form.of_none rfl rfl rfl
theorem Form.registerWrite (w : Who) (a v : Word) : Form.Statement (.registerWrite w a v) := Form.of_none rfl rfl rfl
theorem Form.dhcpv4Lease (ip : Word) : Form.Statement (.dhcpv4Lease ip) := Form.of_none rfl rfl rfl
theorem Form.mgmtSessionClose (i : BitVec 3) : Form.Statement (.mgmtSessionClose i) := Form.of_none rfl rfl rfl
theorem Form.hostEndpointUpdate (holder origin : DevId) (nseq : Word) : Form.Statement (.hostEndpointUpdate holder origin nseq) := Form.of_none rfl rfl rfl
theorem Form.compIdAssign (home : DevId) (granted : Option CompId) : Form.Statement (.compIdAssign home granted) := Form.of_none rfl rfl rfl
theorem Form.tileUngateComplete (t : TileNo) : Form.Statement (.tileUngateComplete t) := Form.of_none rfl rfl rfl
theorem Form.accBindingAnswer (slot : BitVec 12) (accepted : Bool) (depth : Nat) : Form.Statement (.accBindingAnswer slot accepted depth) := Form.of_none rfl rfl rfl
theorem Form.fastRampBarEnd (die : BitVec 3) : Form.Statement (.fastRampBarEnd die) := Form.of_none rfl rfl rfl
theorem Form.coordinatorQueryReceive (dev : DevId) (ten : TenantId) : Form.Statement (.coordinatorQueryReceive dev ten) := Form.of_none rfl rfl rfl
theorem Form.coordinatorAnswer (dev : DevId) (ten : TenantId) (running : Option Bool) : Form.Statement (.coordinatorAnswer dev ten running) := Form.of_none rfl rfl rfl
theorem Form.flitCtrlReserved (p : PortNo) (fl : Flit) : Form.Statement (.flitCtrlReserved p fl) := Form.of_flit rfl rfl rfl rfl
theorem Form.rotSwitchDone (ok : Bool) : Form.Statement (.rotSwitchDone ok) := Form.of_none rfl rfl rfl
theorem Form.tenantScrubDone (ten : TenantId) : Form.Statement (.tenantScrubDone ten) := Form.of_none rfl rfl rfl
theorem Form.mgmtForwardAnswer (m : MgmtMsg) : Form.Statement (.mgmtForwardAnswer m) := Form.of_none rfl rfl rfl
theorem Form.incarnationNotice (dev : DevId) : Form.Statement (.incarnationNotice dev) := Form.of_none rfl rfl rfl
theorem Form.journalCommit : Form.Statement (.journalCommit) := Form.of_none rfl rfl rfl
theorem Form.healthPersist : Form.Statement (.healthPersist) := Form.of_none rfl rfl rfl
theorem Form.dryCompact : Form.Statement (.dryCompact) := Form.of_none rfl rfl rfl
theorem Form.pfailAssert : Form.Statement (.pfailAssert) := Form.of_none rfl rfl rfl
theorem Form.drydownImageCommit : Form.Statement (.drydownImageCommit) := Form.of_none rfl rfl rfl
theorem Form.holdupTimeout : Form.Statement (.holdupTimeout) := Form.of_none rfl rfl rfl
theorem Form.hpReplayTimeout : Form.Statement (.hpReplayTimeout) := Form.of_none rfl rfl rfl
theorem Form.hpLinkDown : Form.Statement (.hpLinkDown) := Form.of_none rfl rfl rfl
theorem Form.hpParamRetry : Form.Statement (.hpParamRetry) := Form.of_none rfl rfl rfl
theorem Form.vinRise : Form.Statement (.vinRise) := Form.of_none rfl rfl rfl
theorem Form.vinLow : Form.Statement (.vinLow) := Form.of_none rfl rfl rfl
theorem Form.vinOvervoltage : Form.Statement (.vinOvervoltage) := Form.of_none rfl rfl rfl
theorem Form.vinOvervoltageTrip : Form.Statement (.vinOvervoltageTrip) := Form.of_none rfl rfl rfl
theorem Form.pwrEnFall : Form.Statement (.pwrEnFall) := Form.of_none rfl rfl rfl
theorem Form.refclkLoss : Form.Statement (.refclkLoss) := Form.of_none rfl rfl rfl
theorem Form.holdoverEnd : Form.Statement (.holdoverEnd) := Form.of_none rfl rfl rfl
theorem Form.hostPhyLinkUp : Form.Statement (.hostPhyLinkUp) := Form.of_none rfl rfl rfl
theorem Form.mgmtLinkUp : Form.Statement (.mgmtLinkUp) := Form.of_none rfl rfl rfl
theorem Form.mgmtLinkDown : Form.Statement (.mgmtLinkDown) := Form.of_none rfl rfl rfl
theorem Form.hostMoveRetry : Form.Statement (.hostMoveRetry) := Form.of_none rfl rfl rfl
theorem Form.vinFall : Form.Statement (.vinFall) := Form.of_none rfl rfl rfl
theorem Form.refclkReturn : Form.Statement (.refclkReturn) := Form.of_none rfl rfl rfl
theorem Form.quoteDone : Form.Statement (.quoteDone) := Form.of_none rfl rfl rfl

end Sys2Proof.Laws
end

