-- ==== Sys2Proof/Laws/Send.lean ====
section
/-! SUPPORT. Where a completion goes (R60, R540). -/

namespace Sys2Proof.Machine

/-- A completion for a requester of this device goes to the ingress, and nothing else changes. -/
theorem completeAt_local {s : State} {f : Req} (st : Status) (data : List Byte) (h : (localAt s f.src).isSome = true) :
    completeAt s f st data = { s with out := s.out ++ [.toIngress (mkCpl f f.dst st data)] } := by
  have hd : frameDst (.cpl (mkCpl f f.dst st data)) = f.src := rfl
  have hc : (mkCpl f f.dst st data).dst = f.src := rfl
  have ho : ∃ o, outPort s .own (.cpl (mkCpl f f.dst st data)) = some o := by
    simp only [outPort, hd]
    simp only [localAt] at h
    cases he : epEntry s f.src with
    | none => simp [he] at h
    | some x =>
      simp only [he] at h
      by_cases hx : (x.dev == devId s) = true
      · exact ⟨x.at_, by simp [hx]⟩
      · simp [hx] at h
  obtain ⟨o, ho⟩ := ho
  simp only [completeAt, complete, sendCpl, ho, hc, h, if_true, returnCredits]
  rfl

end Sys2Proof.Machine
end

