-- ==== Sys2Proof/Laws/Step.lean ====
section
/-! SUPPORT. What a step does: the command at the front, a microsecond when none waits, and nothing on a device held in reset. -/

namespace Sys2Proof.Machine

theorem step_front (c : Instr) (rest : List Instr) (s : State) (h : s.pending = c :: rest) : step s = exec c { s with pending := rest } := by
  simp [step, h]

theorem step_idle {s : State} (h : s.pending = []) : step s = .next (tick s) := by simp [step, h]

theorem whenUp_up {s : State} {f : State → State} (h : isUp s = true) : whenUp s f = .next (f s) := by simp [whenUp, h]

theorem whenUp_held {s : State} {f : State → State} (h : isUp s = false) : whenUp s f = .next s := by simp [whenUp, h]

/-- A command's effect is a next state: no command of the table stops. -/
theorem whenUp_next (s : State) (f : State → State) : ∃ t, whenUp s f = .next t := ⟨_, rfl⟩

end Sys2Proof.Machine
end

