-- ==== Sys2Proof/Safety.lean ====
section
/-! DEFINITION. What counts as a safe run: no step of it stops. -/

namespace Sys2Proof

/-- The outcome is a next state. -/
def isNext : Host.Outcome Machine.State Machine.Fault Machine.Refusal → Bool
  | .next _ => true
  | _ => false

/-- The first `k` steps from a state all answer a next state. -/
def safeFor (k : Nat) (s : Machine.State) : Bool := isNext (core.run k s)

end Sys2Proof
end

