-- ==== Sys2Proof/Tests/Slice0.lean ====
section
/-! SUPPORT. The model's own tests: ill-formed commands refused, the spec's worked examples, single steps, and for every statement
states and operands that meet the hypotheses of its clauses. -/

namespace Sys2Proof.Tests
open Sys2Proof.Machine Sys2Proof.Claims

set_option Elab.async false

/-- A configuration image: device 1 of two, the registrar and the host interface's holder. -/
def img : Image :=
  { formOk := true, sectsOk := true, signerOk := true, digestOk := true, certOk := true, device := 1, contain := false, mediaMode := true, domain := 7,
    seq := 1, routeDigest := [], digest := [], rootsDigest := [], cert := [], registrar := 1, hostDev := 1, t1Base := 0, nandRate := 1600,
    tcpPort := 4433, ports := [⟨0, 4, 1, 0xFF, 0, false, 0, 0⟩, ⟨8, 8, 2, 0xFF, 0, false, 2, 8⟩],
    eps := [⟨0x10, 1, .own⟩, ⟨0x11, 1, .lane 0⟩, ⟨0x12, 1, .host⟩, ⟨0x20, 2, .own⟩, ⟨0x21, 2, .lane 0⟩], links := [⟨1, 8, 2, 8⟩],
    routes := [⟨1, 2, 8, 8, [(8, 8)]⟩, ⟨2, 1, 8, 8, [(8, 8)]⟩], windows := [], pool := [], quotas := [], profile := ⟨3000, 700, 200⟩,
    huIchg := 100, huCmin := 1 }

/-- An endpoint-facing port that carries. -/
def lane0 : PortRec :=
  { PortRec.blank with
    width := 4, role := 1, classes := 0xFF, enable := true, st := 3, actWidth := 4, credits := List.replicate 8 100, toReturn := List.replicate 8 0, rxF := some 0 }

/-- A trunk that carries, to port 8 of device 2. -/
def trunk8 : PortRec := { lane0 with width := 8, role := 2, actWidth := 8, auth := true, peerDev := 2, peerPort := 8, joined := true }

/-- A device that is up, with three sessions, two ports and a second device beyond its trunk. -/
def up : State :=
  { State.reset with
    counter := 1000000000
    boot.ready := true, boot.step := 9, boot.image := some img
    mg.link := true
    mg.sources := [⟨.session 0, some .admin, .blank, 999000000, none, []⟩, ⟨.session 1, some .operator, .blank, 0, none, []⟩,
                   ⟨.session 2, some .auditor, .blank, 999000000, none, []⟩]
    lnk := [(0, lane0), (8, trunk8)]
    swc.eps := img.eps, swc.links := img.links, swc.routes := img.routes, swc.pool := List.replicate 4 0x8000
    sec.log := [⟨0, []⟩], sec.svn := 3, sec.svnFloor := 2
    pins.vin := .operating
    ftl.state := .online
    dry.armed := true, dry.limit := 0x100000, dry.limitStart := 0x100000, dry.limitSet := true }

/-- A command that a source's write started, alone at the management ports. -/
def cmdRuns (s : State) (w : Who) (b off : BitVec 16) : State := { s with mg.blocks := [⟨b, off, w, 1, true, false, false⟩] }

/-- A source's private registers set. -/
def withPriv (s : State) (w : Who) (f : Priv → Priv) : State :=
  { s with mg.sources := s.mg.sources.map fun x => if x.w = w then { x with priv := f x.priv } else x }

/-- Words as a source's data registers hold them. -/
def words {n : Nat} (ws : List Word) : Tbl (BitVec n) Word := (List.range ws.length).map fun k => (BitVec.ofNat n k, ws.getD k 0)

/-- A management message. -/
def msg (mop : BitVec 7) (addr : Word) (len : Nat) (data : List Word) : MgmtMsg := ⟨mop, 1, 1, 0, 9, addr, len, data⟩

/-- A read request of endpoint 0x11 for the device's own functions, under tenant 5. -/
def rq : Req :=
  { opcode := Op.rdLine, src := 0x11, dst := 0x10, tag := 3, seq := 0, epoch := 0, tenant := 5, cls := 0, chk := false, addr := 0x10000,
    len := 0, pgen := 0, bep := false, rsnd := false, seqd := false, newp := false, raw := false, dlx := false, subop := 0, osz := 0,
    ncmb := false, dur := false, hop := 0, rsv := 0, ext := 0, payload := [] }

/-- Tenant 5 with key slot 3 ACTIVE. -/
def keyed : State := { up with sec.tenants := [(5, ⟨false, some 3, [], none⟩)], sec.slots := [(3, ⟨true, 0, 5, 1, [], 0⟩)] }

/-- What power-up meets when everything is well: bank A and image copy A. -/
def bootIn : BootInputs :=
  { hdr0 := some ⟨1, false, false⟩, hdr1 := none, bankA := ⟨true, 2, [], [], []⟩, bankB := ⟨false, 0, [], [], []⟩, imgA := some img, imgB := none,
    svnFloor := 2, bootRom := [], incarnation := 9, mgmtOk := true, stacksOk := true, badTiles := [],
    disc := ⟨{ ces := List.replicate 16 1, luns := 1, planes := 2, pages := 1536, blocks := 8192, spare := 2304 }, 0, false, false, true, true, []⟩ }

/-- Object 1 of the device: 64 KiB of tenant 5 on tier 1, rows of 256 bytes of 32-bit elements. -/
def oid1 : Oid := 0x400000001
def obj1 : Obj :=
  { tier := 1, zskip := false, prot := false, isSealed := false, damaged := false, etype := 3, t1 := .none, t0rep := false, sealing := false,
    cdense := false, tenant := 5, stackMask := 0xF, qmask := 0xF, size := 65536, rows := 256, rowBytes := 256, addr := 0x10000, alt := 0,
    deleted := false, runs := [], t0tiles := [], fillsT0 := false, fillGen := 0 }

/-- A device that holds object 1. -/
def stored (o : Obj) : State := { up with obj.tab := [(oid1, o)], obj.pages := [⟨16, 16, oid1, 0, 0, none⟩], obj.nextSerial := 2 }

/-- A device that is not the registrar, with a composition at it. -/
def member : State := { up with boot.image := some { img with registrar := 2 } }
def comped (r : CompRec) (s : State) : State := { s with lse.comps := [(7, r)], lse.synced := true }
def compUp : CompRec := { CompRec.blank with state := .up, home := 1, reach := 6 }

/-- The table with every composition ID in use. -/
theorem tget_numbered (l : List Nat) (k : CompId) (h : ∃ n ∈ l, BitVec.ofNat 10 (n + 1) = k) :
    tget (l.map fun n => (BitVec.ofNat 10 (n + 1), compUp)) k = some compUp := by
  induction l with
  | nil => obtain ⟨n, hn, -⟩ := h; cases hn
  | cons a l ih =>
    simp only [List.map_cons, tget]
    split
    · rfl
    · rename_i hk
      obtain ⟨n, hn, e⟩ := h
      rcases List.mem_cons.mp hn with rfl | hn
      · exact absurd e hk
      · exact ih ⟨n, hn, e⟩

theorem fullComps (k : CompId) (h : k ≠ 0) :
    (compRec { up with lse.comps := (List.range 1023).map fun k => (BitVec.ofNat 10 (k + 1), compUp) } k).state ≠ .free := by
  have e : tget ((List.range 1023).map fun n => (BitVec.ofNat 10 (n + 1), compUp)) k = some compUp :=
    tget_numbered _ k ⟨k.toNat - 1, by simp only [List.mem_range]; bv_omega, by bv_omega⟩
  simp only [compRec, tgetD, e, Option.getD_some]
  decide

/-- LSE_CMD_DATA of a source, and its bytes. -/
def lseSet (s : State) (ws : List Word) : State := withPriv s (.session 1) fun p => { p with lseData := words ws }
def lseGot (ws : List Word) : List Byte := lseBytes { Priv.blank with lseData := words ws }

/-- A lease of composition 7 on a pool member, in entry 4. -/
def lease4 (st : LeaseState) : Lease := ⟨1, 7, 0x21, 0x1000, 0x2000, st, false, false, false, false, 1000, 999000000, none⟩
def leased (l : Lease) : State :=
  lseSet { comped compUp up with lse.leases := [(4, l)], lse.pool := [⟨0x21, 0, 0x7FFF⟩] } [0x04010004, 0, 0, 0, 0, 0, 0x00640000, 0]

/-- A request in the switch core. -/
def frame1 : QFrame := ⟨1, .lane 0, .lane 8, 0, .req { rq with dst := 0x21 }, 1, 0, 0, false, none⟩

/-- An ownership record of object 1, and the registrar's device with it. -/
def own1 : OwnRec := ⟨7, 0, false, 0, 1, 0, .none, [], false, false⟩
def owning (r : OwnRec) : State :=
  { comped compUp (stored obj1) with lse.own := [(oid1, r)], lse.epMap := [(0x11, 7)],
                                     lse.leases := [(4, { lease4 .reserved with target := 0x10, base := 0, limit := 0 })] }

/-- An ownership request for object 1. -/
def ownReq (op : BitVec 8) (sub : BitVec 4) (n : BitVec 13) (more : List Byte) : Req :=
  { rq with opcode := op, subop := sub, len := n, addr := 0, payload := leBytes oid1.toNat 8 ++ more }

/-- A frame of the host link that its MAC kept. -/
def shim (kind : BitVec 4) (ackv : Bool) (eseq : Word) : Shim := ⟨0x0200, 0x88B5, 100, true, 1, kind, false, ackv, eseq, 5, 0, 0⟩

/-- A device whose host link runs, and a frame that waits for its ACK there. -/
def hosted : State :=
  { up with
    hp.active := true, hp.link := true, hp.phy := true, hp.hostDev := 1, hp.classes := 0xFF, hp.credits := List.replicate 8 100,
    hp.toReturn := List.replicate 8 0, hp.rx := some 6 }
def hpFrame : HpFrame := ⟨5, 0, [], none, 0, 0, 6, true⟩

/-- Windows of lane 0 over this device's own functions and over device 2's, for tenant 5. -/
def windowed : State :=
  { up with
    ing.wins := [((.lane 0, 0), ⟨0, 0, 0xFFFFF000, 0, 0x8F010005⟩), ((.lane 0, 1), ⟨0, 1, 0xFFFFF000, 1, 0x8F020005⟩)] }

/-- A work header and a body; a tensor descriptor of one dimension; bytes of zero. -/
def zeros (n : Nat) : List Byte := List.replicate n 0
def hdr (body : List Byte) : List Byte := zeros 6 ++ leBytes (body.length / 16) 2 ++ zeros 8 ++ body
def tens (base dim : Nat) (etype : Byte) : List Byte := leBytes base 8 ++ [1, etype] ++ zeros 14 ++ leBytes dim 4 ++ zeros 68

/-- A request with an opcode, a SUBOP and a payload. -/
def req (op : BitVec 8) (sub : BitVec 4) (addr : Addr) (payload : List Byte) : Req :=
  { rq with opcode := op, subop := sub, addr := addr, payload := payload, len := BitVec.ofNat 13 (payload.length / 16) }

/-- A tensor descriptor of two dimensions; the requests of the engine's rows, within object 1. -/
def tens2 (base d0 d1 stride : Nat) (etype : Byte) : List Byte :=
  leBytes base 8 ++ [2, etype] ++ zeros 14 ++ leBytes d0 4 ++ leBytes d1 4 ++ zeros 24 ++ leBytes stride 8 ++ zeros 32
def xferReq (n : Nat) : Req :=
  req Op.tileXfer 0 0 (leBytes 0x10000 8 ++ leBytes 0x18000 8 ++ leBytes 64 4 ++ leBytes 64 4 ++ leBytes n 2 ++ zeros 6)
def openReq (parent : Word) : Req :=
  req Op.accOpen 0 0 (hdr ([0, 0] ++ leBytes 1 2 ++ leBytes 64 8 ++ zeros 4 ++ leBytes parent.toNat 4 ++ zeros 12 ++ leBytes 0x11 2 ++ zeros 14))
def startReq1 (round : Nat) : Req := req Op.accContrib 0 0 (hdr (leBytes 0x04001000 4 ++ zeros 2 ++ leBytes round 2 ++ zeros 8))
def closeReq : Req := req Op.accClose 0 0 (hdr (leBytes 0x04001000 4 ++ zeros 12))
def gatherReq : Req := req Op.gather 0 0 (hdr (tens 0x10000 512 3 ++ tens 0x18000 512 3))
def filterReq : Req := req Op.filter 0 0 (hdr ([0x21] ++ zeros 271 ++ tens 0x10000 64 3 ++ zeros 96))
def scoreReq : Req := req Op.scoreSel 0 0 (hdr ([1] ++ zeros 15 ++ tens2 0x10000 32 4 17 0 ++ zeros 128))
def expandReq : Req := req Op.expand 0 0 (hdr (tens 0x10000 256 8 ++ tens 0x18000 256 0))
def rdObjReq : Req := req Op.rdObj 0 0 (leBytes oid1.toNat 8 ++ leBytes 0 8 ++ leBytes 2 4 ++ zeros 12)

/-- A request of every row that R77 to R91 check at its port, in the order of the rows. -/
def reqs : List Req :=
  [req Op.rdLine 0 0x10080 [], req Op.wrLine 0 0x10080 (zeros 128), req Op.atomAdd 0 0x10084 (zeros 16), req Op.atomLogic 2 0x10084 (zeros 16),
   req Op.atomSwap 0 0x10084 (zeros 16), { req Op.atomCas 0 0x10088 (zeros 16) with osz := 1 }, req Op.atomMinmax 3 0x10084 (zeros 16),
   xferReq 1, openReq 0, startReq1 0, closeReq, gatherReq,
   req Op.gather 1 0 (hdr (tens2 0x10000 64 8 64 3 ++ tens2 0x18000 64 2 64 3 ++ tens 0x1C000 8 3)),
   req Op.scatter 0 0 (hdr (tens 0x10000 512 3 ++ tens 0x18000 512 3)),
   req Op.scatter 1 0 (hdr (tens2 0x10000 64 2 64 3 ++ tens2 0x18000 64 8 64 3 ++ tens 0x1C000 8 3)),
   filterReq, scoreReq, expandReq, rdObjReq, req Op.sealObj 0 0 (zeros 16),
   req Op.sealObj 1 0 (zeros 16), req Op.discard 0 0 (zeros 32), req Op.ownOffer 0 0 (zeros 32), req Op.ownOffer 1 0 (zeros 32),
   req Op.ownOffer 2 0 (zeros 32), req Op.ownAccept 0 0 (zeros 16)]

/-- A request for an endpoint of device 2, over the window that names it. -/
def far : Req := { rq with dst := 0x20, addr := 0x100010080 }

/-- An outstanding request of lane 0. -/
def track1 : Track := ⟨{ rq with opcode := Op.wrLine, seqd := true, seq := 7 }, .lane 0, 999999200, 999999800, 0, 0, [], 0⟩
def tracking (k : Track) : State := { windowed with ing.trk := [k], ing.srcs := [(0x11, { SrcRec.blank with order := 1 })] }

/-- A request held behind others of its source. -/
def held1 (op : BitVec 8) : Held := ⟨{ rq with opcode := op, len := if op = Op.wrLineRel then 8 else 0, payload := if op = Op.wrLineRel then zeros 128 else [] }, .lane 0, 5, 0, false⟩

/-- A device that holds object 1 behind windows of lane 0, over coherent windows too, and its line 512 read by endpoint 0x11. -/
def lined : State := { stored obj1 with ing.wins := windowed.ing.wins }
def part0 : Part := { Part.blank with attach := true, cfgWays := 2, cfgSets := 3, ways := 2, sets := 3, attached := true }
def coherent (ps : Tbl PortNo Part) : State :=
  { lined with ing.wins := [((.lane 0, 0), ⟨0, 0, 0xFFFFF000, 0, 0x9F010005⟩)], coh.parts := ps }
def ord0 : Ord := ⟨7, 0, none, none, [], [], none, false, 0⟩
def ordered : State := { lined with egr.ord := [((0x11, 0x10, 0), ord0)] }
def log0 (q : Seq) (st : LogState) : LogEnt := ⟨(0x11, 0x10, 0), q, 5, st, 999996000⟩
def cplOk : Cpl := ⟨Op.cpl, 0x11, 0x10, 3, 6, 0, 0, 0, 0, false, false, 0, 0, []⟩
def wr : Req := { rq with opcode := Op.wrLine, len := 8, payload := zeros 128, ncmb := true, seqd := true, seq := 7, chk := true }

/-- A combine entry of a read of line 512. -/
def ent1 (f : Req) : CEntry := ⟨0, sliceOf lined f, keyOf lined f, [⟨f, 0⟩], true, none, 999999600, false, 999999600, false⟩

/-- A flit with a good CRC, and one without. -/
def flit (ty : BitVec 2) (fseq : BitVec 12) (payload : List Byte) : Flit :=
  let fl : Flit := ⟨fseq, 0, false, false, ty, false, false, 0, 0, 0, 0, 0, 0, 0, 0, payload⟩
  { fl with crc := flitCrc fl }
def spoil (fl : Flit) : Flit := { fl with crc := fl.crc + 1 }
def badFlit : Flit := spoil (flit ftIdle 0 [])

/-- A device with one port in a given state, and with its lane 0 alone. -/
def ported (p : PortNo) (r : PortRec) : State := { up with lnk := [(p, r)] }
def train (st step : Nat) : PortRec := { lane0 with st := BitVec.ofNat 3 st, step := step }
def txFlit (n : Nat) : TxFlit := ⟨0, false, 0, 0, 0, 0, [], n, true⟩
def cipher0 : Cipher := ⟨[], [], 0, false, 0, 0, false, none⟩

theorem flit_sound (ty : BitVec 2) (fseq : BitVec 12) (payload : List Byte) (h : ty ≠ 3) : flitSound (flit ty fseq payload) = true := by
  simp [flitSound, flitGood, flit, flitCrc, flitTrailer]
  exact h

theorem spoil_unsound (ty : BitVec 2) (fseq : BitVec 12) (payload : List Byte) : flitSound (spoil (flit ty fseq payload)) = false := by
  simp [spoil, flitSound, flitGood, flit, flitCrc, flitTrailer]

theorem badFlit_unsound : flitSound badFlit = false := spoil_unsound _ _ _

/-- The state after a command, where it completes. -/
def after (s : State) (i : Instr) : State :=
  match exec i s with
  | .next t => t
  | _ => s

/-- A device with object 1 and two tiles that are not gated. -/
def engined : State := { lined with eng.tiles := [(0, { TileRec.blank with gated := false }), (1, { TileRec.blank with gated := false })] }

/-- An engine request as a device holds it, and a device on whose tile 0 its first portion runs. -/
def ereq (f : Req) (ps : List Portion) : EngReq :=
  { f := f, quad := 0, no := 0, at_ := 999999000, gen := 0, deadline := none, own := none, judged := false, asked := true, started := false,
    portions := ps, tiles := [], alt := none, frames := [], closing := false, staged := [], sat := 0, countA := 0, countB := 0, passes := [],
    notice := 999999800 }
def whole : Portion := ⟨[(0, 1)], true, false, []⟩
def oread : ObjRead := ⟨{ rdObjReq with payload := rdObjReq.payload.set 20 1 }, 0, none, false, oid1, [], [], none, false, none, [], 0⟩
def later : Portion := ⟨[(1, 1)], false, false, []⟩
def placing (r : EngReq) : State := { engined with eng.reqs := [r] }

/-- An EXPAND whose stream, of one block, lies outside tier 1, its header and index returned by device frames. -/
def farExpand : EngReq :=
  { ereq { expandReq with payload := hdr (tens 0x8000010000 256 8 ++ tens 0x18000 256 0) } [whole] with
    staged := (zeros 8 ++ leBytes 1 8 ++ leBytes 48 8 ++ zeros 24).zipIdx.map fun x => (0x8000010000 + x.2, x.1) }
def working (r : EngReq) (z : Option ZskRun) : State :=
  { engined with eng.reqs := [r], eng.tiles := [(0, { TileRec.blank with gated := false, queue := [⟨0x11, 3, 0⟩], zsk := z })] }

/-- The head and the index of a zero-skip stream of one block at object 1, and the block: 256 zeros. -/
def zskStored (s : State) : State := { s with mem.cells := [(0x10008, 1), (0x10010, 48)] }
def zskBlock : List Byte := [0, 0, 0, 0, 3, 0, 0, 0] ++ zeros 40
def zskGood (s : State) : State := { s with mem.cells := [(0x10008, 1), (0x10010, 48), (0x10034, 3)] }
def zskAt (x : Reread) : ZskRun := ⟨0x11, 3, 0, 0, 0, x⟩

/-- An accord in slot 0 with one member. -/
def member0 : MemberRec := ⟨0x11, some 3, 0, 0, 0, false, false, 999999000, 0, none, none⟩
def accord (st : AccState) : Accord :=
  { Accord.blank with
    state := st, opener := 0x11, tenant := 5, bound := true, elemBytes := 65536, stallUs := 400, idleMs := 1000, tiles := [0], allotted := 1,
    window := 1, members := [member0], roundAt := 999999600, idleSince := 999000000 }
def accorded (a : Accord) : State := { engined with acc.slots := [(0, a)] }
def stripe (j : Nat) (done : Bool) : Stripe := ⟨0, j, 0, [0], [], [], [], done⟩

/-- Every byte that the transfer of one tile reads or writes lies in tier 1. -/
theorem xfer_inT1 (s : State) (n j : Nat) (h : t1Base s = 0) (hn : n < 64) (hj : j < 64) :
    inT1 s (xferSrc (xferReq 1) + n * xferSrcPitch (xferReq 1) + j) = true ∧ inT1 s (xferDst (xferReq 1) + n * xferDstPitch (xferReq 1) + j) = true := by
  have a : xferSrc (xferReq 1) = 65536 := by decide +kernel
  have b : xferSrcPitch (xferReq 1) = 64 := by decide +kernel
  have c : xferDst (xferReq 1) = 98304 := by decide +kernel
  have d : xferDstPitch (xferReq 1) = 64 := by decide +kernel
  rw [a, b, c, d, inT1, inT1, h]
  simp only [Bool.and_eq_true, decide_eq_true_eq]
  omega

/-- A source's OBJ_CMD_DATA; quotas of tenant 5. -/
def objSet (s : State) (ws : List Word) : State :=
  { withPriv s (.session 1) (fun p => { p with objData := words ws }) with
    obj.quotaLim := [((5, 1), 1000), ((5, 2), 1000), ((5, 3), 1000)] }
def oid2 : Oid := 0x400000002

/-- Object 1 sealed on flash in one unit, page 0 of block 5 of the first LUN-plane holding it. -/
def lp0 : BlkAddr := ⟨0, 0, 0, 0, 0⟩
def blk5 : BlkAddr := ⟨0, 0, 0, 0, 5⟩
def page0 : PageAddr := ⟨blk5, 0⟩
def obj3 : Obj := { obj1 with tier := 3, isSealed := true, size := 16384, rows := 64, addr := 0, runs := [(0, 1)] }
def flash (o : Obj) : State :=
  { objSet (stored o) [1, 4] with
    ftl.targets := 16, ftl.geom := { ces := List.replicate 16 1, luns := 1, planes := 1, pages := 3072, blocks := 64, spare := 4 }, ftl.l := 1000, ftl.map := [(0, .mapped page0)],
    ftl.blocks := [(blk5, ⟨.closed, 9, 64, 0, 0, 0⟩), (⟨0, 0, 0, 0, 6⟩, ⟨.free, 4, 0, 0, 0, 0⟩)],
    ftl.media.pages := [(page0, ⟨zeros 16, [], 0, 0⟩)] }

/-- Object 1 as a zero-skip stream of two rows of one block each, with what its second block's header says. -/
def zobj : Obj := { obj1 with zskip := true, etype := 0, rows := 2, rowBytes := 136 }
def zskObj (n : Byte) : State := { stored zobj with mem.cells := [(0x10008, 2), (0x10010, 96), (0x10034, 3), (0x10064, n)] }

/-- A copy of object 1 that fills, one line long. -/
def obj1f : Obj := { obj3 with size := 128, rows := 1, rowBytes := 128, addr := 0x10000, t1 := .filling }

/-- A stream plan of object 1's first rows. -/
def step0 : PlanStep := ⟨oid1, 0, 2, false, [], [], [], false⟩
def plan0 : Plan := ⟨oid2, 5, 1, 1, [], [], [], [step0]⟩

/-- Requests for object 1, and a journal record that waits for one page or for none. -/
def sealReq (sub : BitVec 4) (target : Oid) : Req := req Op.sealObj sub 0 (leBytes oid1.toNat 8 ++ leBytes target.toNat 8)
def discReq : Req := req Op.discard 0 0 (leBytes oid1.toNat 8 ++ leBytes 0 8 ++ leBytes 1 4 ++ zeros 12)
def jrec (b : JBody) (needs : List PageAddr) : JRec := ⟨1, b, needs, true, some rdObjReq⟩
def journaled (o : Obj) (j : JRec) : State := { flash o with ftl.journal := [j] }
def decoded (rung : BitVec 3) : Decoded := ⟨rung, 0, 0, true⟩

/-! ### Ill-formed commands, one for each check -/

/-- An ill-formed command for each check of `Instr.wf`, every one refused. -/
theorem test_wf_refuses : ∀ i ∈ ([
    .rdLine (.lane 0) { rq with len := 1 }, .rdLine (.lane 0) { rq with ext := 1 }, .readShared { rq with len := 1 },
    .egressReadArrive { rq with payload := zeros 15 }, .completionArrive { cplOk with len := 1 }, .filter (.ingress (.lane 0)) { filterReq with len := 29 },
    .accSegment { rq with len := 1 }, .snoopAnswer 0 1 (some (zeros 127)), .flitIdle 0 (flit ftIdle 0 (zeros 239)) ⟨true, []⟩,
    .linkParam 0 ⟨3, 4, 0, 2, 0x21, 0xFF, List.replicate 7 1⟩, .authHello 0 ⟨2, 8, 7, zeros 31⟩, .authProof 0 ⟨0, 0, 1, zeros 225, true, true⟩,
    .kaPoint 0 (zeros 63), .kaConfirm 0 (zeros 31) true, .join 0 ⟨2, 1, 1, 9, zeros 31⟩, .intervalEnd 0 (List.replicate 33 (0, 0)), .thermalRead [0],
    .mgmtRead (.session 0) (msg 1 0 16 (List.replicate 65 0)), .hpParam (shim 3 false 0) 0xFF [1], .fwVerifyDone true 0 (zeros 31)] : List Instr),
    i.wf = false := by decide +kernel

/-- The same commands with operands of their length are well formed. -/
theorem test_wf_accepts : ∀ i ∈ ([
    .rdLine (.lane 0) rq, .completionArrive cplOk, .filter (.ingress (.lane 0)) filterReq, .snoopAnswer 0 1 (some (zeros 128)),
    .linkParam 0 ⟨3, 4, 0, 2, 0x21, 0xFF, List.replicate 8 1⟩, .kaPoint 0 (zeros 64), .thermalRead (List.replicate 25 0), .shutdown (.session 0)] : List Instr),
    i.wf = true := by decide +kernel

/-- No row of the table gives bits, so no word spells a command. -/
theorem test_no_word_spells : decodeTableWord 32 0x12345678 = none ∧ State.reset.withFetchWord 32 0x12345678 = State.reset := by decide +kernel

/-! ### The spec's worked examples -/

/-- The example after R561: a class at RATE 200 and BURST 16 that sends 140 bytes at tick 0 falls due at tick 94, and then at 187. -/
theorem test_bucket_example :
    (bucketCharge ⟨200, 16, 0, 0, none⟩ 0 140).entry = some 94 ∧
      (bucketCharge (bucketCharge ⟨200, 16, 0, 0, none⟩ 0 140) 94 140).entry = some 187 := by decide +kernel

/-- The example of chapter 10: 2,000 mA for 120.0 ms from 30 V to 50 V are 12,000 µF, and at 54.0 V 11.491 J. -/
theorem test_holdup_example :
    huCap { up with boot.image := some { img with huIchg := 2000 } } ⟨false, 54000, 120000⟩ = 12000 ∧ bankEnergy 12000 54000 = 11491200 := by
  decide +kernel

/-- The example of chapter 20: a bank of 15,000 µF at 54.0 V measures 14.364 J. -/
theorem test_bank_example : bankEnergy 15000 54000 = 14364000 := by decide +kernel

/-- The example of chapter 06: −100 to 90 converted to int4 need a shift of 4. -/
theorem test_rne_example : rne 90 3 = 11 ∧ rne 90 4 = 6 ∧ rne 6 2 = 2 ∧ rne 3 2 = 1 := by decide +kernel

/-- The example of chapter 05: segment 1 of 100,000 int8 elements has 1,077 blocks and LEN 2,222. -/
theorem test_segment_example :
    accSegs { accord .active with etype := 1, elemBytes := 100000 } = 2 ∧ segBlocks { accord .active with etype := 1, elemBytes := 100000 } 1 = 1077 ∧
      segLen { accord .active with etype := 1, elemBytes := 100000 } 1 = 2222 := by decide +kernel

/-- The example of chapter 04: a key position of 128 int8 elements is 132 bytes in interleaved layout. -/
theorem test_key_position_example : rowBytes ⟨0, 1, 1, false, false, 0, [128], [0]⟩ = 132 := by decide +kernel

/-- The example of chapter 07: 96 non-zeros in every block of 40,960 take 32 + 5,120 bytes of head and index. -/
theorem test_zero_skip_example :
    zskGroups ⟨0, 2, 1, false, true, 0, [5120, 2048], [0, 0]⟩ = 640 ∧ zskData ⟨0, 2, 1, false, true, 0, [5120, 2048], [0, 0]⟩ = 5152 := by
  decide +kernel

/-! ### The rows of requests -/

/-- Each row that R77 to R91 check has a request that its port takes: the hypotheses of `RequestsForwarded` hold of every row. -/
theorem test_every_request_row :
    (∀ f ∈ reqs, Alone windowed f ∧ Passes windowed (.lane 0) f ∧ (localAt windowed f.dst).isSome = true ∧ f.wf = true) ∧
      ∀ k < 26, ((requestRows (.lane 0) (reqs.getD k rq)).getD k (.vinRise, false)).2 = true := by decide +kernel

/-- Each engine row has a request that its device accepts: the hypotheses of `EngineRequests` hold of every row. -/
theorem test_every_engine_row :
    ∀ k ∈ [7, 11, 12, 13, 14, 15, 16, 17], entryStatus engined 0 (reqs.getD k rq) none (opBad engined (reqs.getD k rq)) = none := by decide +kernel

/-! ### Single steps -/

/-- A step on an empty queue while held in reset only advances the interval counter (R11). -/
theorem test_idle_step : (match step { State.reset with boot.held := .off } with
    | .next t => t.counter
    | _ => 0) = 1 := by decide +kernel

/-- A read request at its port leaves for the own functions stamped CHK = 1 (R80) with its pair's first use (R88). -/
theorem test_read_leaves :
    (after windowed (.rdLine (.lane 0) rq)).out = [.toOwn 0 { rq with chk := true }] := by decide +kernel

/-- A read of a line that nothing has written returns zeros with OK (R653). -/
theorem test_read_of_zeroed_line :
    (after lined (.egressReadArrive { rq with ncmb := true, chk := true })).out.map
      (fun o => match o with | .toIngress c => (c.status.toNat, c.data) | _ => (99, [])) = [(0, zeros 128)] := by decide +kernel

/-- A line written at the end of tier 1's object reads back, and the line below it stays as it was (R66). -/
theorem test_write_then_read :
    (let t := after lined (.egressSequencedArrive { wr with addr := 0x1FF80, payload := List.replicate 128 7 });
     memByte t 0x1FFFF = 7 ∧ memByte t 0x1FF80 = 7 ∧ memByte t 0x1FF7F = 0) := by decide +kernel

/-- A cap written at 400 W takes effect at the end of the interval (R633). -/
theorem test_cap_write :
    (after up (.pwrCapWrite (.session 1) 400)).pwr.cap = 1500 ∧ (after (after up (.pwrCapWrite (.session 1) 400)) (.intervalEnd 300 [])).pwr.cap = 400 := by
  decide +kernel

/-! ### What meets the hypotheses of the statements, clause by clause -/

theorem witness_StepRunsTheFrontCommand :
    (∃ s : State, ∃ c : Instr, ∃ rest : List Instr, s.pending = c :: rest) ∧
    (∃ s : State, s.pending = []) ∧
    (∃ s : State, isUp s = false ∧ s.pending = []) :=
  ⟨⟨{ up with pending := [.vinRise] }, .vinRise, [], by decide +kernel⟩,
   ⟨up, by decide +kernel⟩,
   ⟨{ up with boot.held := .off }, by decide +kernel⟩⟩

theorem witness_HeldInResetNothingRuns :
    ∃ s : State, ∃ c : Instr, isUp s = false ∧ supplyCommand c = false :=
  ⟨{ up with boot.held := .off }, .quoteDone, by decide +kernel⟩

theorem witness_MemoryFormKept :
    ∃ s : State, ∃ t : State, Memory.wf s.mem = true ∧ step s = .next t :=
  ⟨{ up with pending := [.mgmtLinkDown] }, { up with mg.link := false }, by decide +kernel, rfl⟩

theorem witness_FrameBytesReadBack :
    (∃ f : Req, f.opcode ≠ Op.cpl ∧ f.opcode ≠ Op.cplData ∧ f.wf = true) ∧
    (∃ c : Cpl, (c.opcode = Op.cpl ∨ c.opcode = Op.cplData) ∧ c.wf = true) ∧
    (∃ f : Req, f.opcode ≠ Op.cpl ∧ f.opcode ≠ Op.cplData ∧ f.wf = true) ∧
    (∃ c : Cpl, (c.opcode = Op.cpl ∨ c.opcode = Op.cplData) ∧ c.wf = true) :=
  ⟨⟨{ gatherReq with dlx := true, ext := 7 }, by decide +kernel⟩,
   ⟨{ cplOk with opcode := Op.cplData, len := 1, data := zeros 16 }, by decide +kernel⟩,
   ⟨{ gatherReq with dlx := true, ext := 7 }, by decide +kernel⟩,
   ⟨{ cplOk with opcode := Op.cplData, len := 1, data := zeros 16 }, by decide +kernel⟩⟩

theorem witness_ClassLimitWrites :
    (∃ s : State, ∃ i : BitVec 3, ∃ c : Cls, ∃ v : Word, Operator s i ∧ (v.extractLsb' 16 16 < v.extractLsb' 0 16 ∨ (∃ d ∈ ([0, 1, 2, 3] : List
      Quad), poolCells s d < (allCls.map fun k => if k = c then (v.extractLsb' 0 16).toNat * 16 else minCells s k).sum))) ∧
    (∃ s : State, ∃ i : BitVec 3, ∃ c : Cls, ∃ v : Word, Operator s i ∧ v.extractLsb' 0 16 ≤ v.extractLsb' 16 16 ∧ (∀ d ∈ ([0, 1, 2, 3] : List Quad),
      (allCls.map fun k => if k = c then (v.extractLsb' 0 16).toNat * 16 else minCells s k).sum ≤ poolCells s d)) :=
  ⟨⟨up, 1, 0, 0x00010002, by decide +kernel⟩,
   ⟨up, 1, 0, 0x01000080, by decide +kernel⟩⟩

theorem witness_PowerCapTakesEffectAtIntervalEnd :
    (∃ s : State, ∃ i : BitVec 3, Operator s i) ∧
    (∃ s : State, ∃ cap : BitVec 16, isUp s = true ∧ s.pwr.capNext = some cap) ∧
    (∃ s : State, isUp s = true ∧ s.pwr.capNext = none) :=
  ⟨⟨up, 1, by decide +kernel⟩,
   ⟨{ up with pwr.capNext := some 900 }, 900, by decide +kernel⟩,
   ⟨up, by decide +kernel⟩⟩

theorem witness_FreeBlockDrawnByEraseCount :
    (∃ s : State, ∃ lp : BlkAddr, ∃ b : BlkAddr, drawFree s lp false = some b) ∧
    (∃ s : State, ∃ lp : BlkAddr, ∃ b : BlkAddr, drawFree s lp true = some b ∧ (∀ k, k < s.ftl.geom.blocks → (blkOf s (blkIn lp k)).erases ≤
      0xFFFFFFFF)) ∧
    (∃ s : State, ∃ lp : BlkAddr, ∃ k : Nat, freeBlocks s ≠ 0 ∧ k < s.ftl.geom.blocks ∧ (blkOf s (blkIn lp k)).use = .free) :=
  ⟨⟨flash obj3, lp0, ⟨0, 0, 0, 0, 0⟩, by decide +kernel⟩,
   ⟨flash obj3, lp0, ⟨0, 0, 0, 0, 6⟩, by decide +kernel⟩,
   ⟨flash obj3, lp0, 63, by decide +kernel⟩⟩

theorem witness_SourcesDoNotMeet :
    ∃ w : Who, ∃ ten : TenantId, ∃ c : CompId, ∃ cls : Cls, ∃ p : Port, ∃ off : BitVec 7, ∃ v : Word, ∃ x, x ∈ sourceRows w ten c cls p off v :=
  ⟨.session 1, 5, 7, 0, .lane 0, 0, 0, Instr.create (.session 1) 5, by simp [sourceRows]⟩

theorem witness_SessionsOpenAndClose :
    (∃ s : State, ∃ h : Handshake, ∃ i : BitVec 3, ∃ r : Role, isUp s = true ∧ s.mg.link = true ∧ s.sec.update ≠ .switching ∧ freeSession s = some i
      ∧ h.role = some r ∧ h.suiteOk = true ∧ h.chainOk = true) ∧
    (∃ s : State, ∃ h : Handshake, isUp s = true ∧ s.mg.link = true ∧ s.sec.update ≠ .switching ∧ (freeSession s = none ∨ h.role = none ∨ h.suiteOk =
      false ∨ h.chainOk = false)) ∧
    (∃ s : State, ∃ i : BitVec 3, ∃ x : Source, isUp s = true ∧ Quiet s ∧ sourceOf s (.session i) = some x ∧ x.last + 300000000 ≤ s.counter) ∧
    (∃ s : State, isUp s = true ∧ Quiet s) :=
  ⟨⟨up, ⟨true, true, some .operator⟩, 3, .operator, by decide +kernel⟩,
   ⟨up, ⟨true, false, some .operator⟩, by decide +kernel⟩,
   ⟨up, 1, ⟨.session 1, some .operator, .blank, 0, none, []⟩, by decide +kernel⟩,
   ⟨up, by decide +kernel⟩⟩

theorem witness_ManagementPortEvents :
    (∃ s : State, isUp s = true ∧ s.boot.ready = true) ∧
    (∃ s : State, isUp s = true) ∧
    (∃ s : State, isUp s = true ∧ s.mg.link = true) ∧
    (∃ s : State, ∃ m : MgmtMsg, isUp s = true ∧ s.hp.active = true ∧ s.hp.link = true ∧ s.hp.rb = [] ∧ m.data.length ≤ 64 ∧ (∃ x ∈ s.hp.forwarded,
      x.device = m.device ∧ x.mtag = m.mtag)) :=
  ⟨⟨up, by decide +kernel⟩,
   ⟨up, by decide +kernel⟩,
   ⟨up, by decide +kernel⟩,
   ⟨{ up with hp.active := true, hp.link := true, hp.forwarded := [msg 1 0 16 []] }, (msg 1 0 16 []), by decide +kernel⟩⟩

theorem witness_ManagementMessages :
    (∃ s : State, ∃ i : BitVec 3, ∃ m : MgmtMsg, isUp s = true ∧ Quiet s ∧ s.boot.shutdown = false ∧ (sourceOf s (.session i)).isSome = true ∧ m.mop
      = 1 ∧ m.len = 16 ∧ 1 ≤ m.count.toNat ∧ m.count.toNat ≤ 64 ∧ m.addr.extractLsb' 0 2 = 0 ∧ m.device = devId s ∧ (∀ k, k < m.count.toNat →
      (readAccess s (.session i) (m.addr + BitVec.ofNat 32 (4 * k))).2 = .ok)) ∧
    (∃ s : State, ∃ i : BitVec 3, ∃ m : MgmtMsg, Operator s i ∧ Quiet s ∧ s.boot.shutdown = false ∧ m.len = 20 ∧ m.count = 1 ∧ m.addr = 0x00010014 ∧
      m.device = devId s) :=
  ⟨⟨up, 2, (msg 1 0 16 []), by decide +kernel⟩,
   ⟨up, 1, (msg 2 0x00010014 20 [0]), by decide +kernel⟩⟩

theorem witness_RegisterWrites :
    (∃ s : State, ∃ i : BitVec 3, ∃ a : Word, Operator s i ∧ s.boot.shutdown = false ∧ blockKnown s (blkOfAddr a) = false) ∧
    (∃ s : State, ∃ i : BitVec 3, Operator s i ∧ s.boot.shutdown = false) ∧
    (∃ s : State, ∃ i : BitVec 3, Operator s i ∧ s.boot.shutdown = false) ∧
    (∃ s : State, ∃ i : BitVec 3, Operator s i ∧ s.boot.shutdown = false) :=
  ⟨⟨up, 1, 0x02000000, by decide +kernel⟩,
   ⟨up, 1, by decide +kernel⟩,
   ⟨up, 1, by decide +kernel⟩,
   ⟨up, 1, by decide +kernel⟩⟩

theorem witness_KeySlotCommands :
    (∃ s : State, ∃ i : BitVec 3, ∃ ten : TenantId, ∃ n : BitVec 10, ∃ mode : BitVec 2, Operator s i ∧ BlockFree s blkSec ∧ isRemoving s ten = false
      ∧ activeSlot s ten = none ∧ (tgetD (privOf s (.session i)).secData 0 0).extractLsb' 0 2 = mode ∧ mode.toNat ≤ 1 ∧ keyFull (privOf s (.session
      i)) mode = true ∧ freeSlotNo s = some n) ∧
    (∃ s : State, ∃ i : BitVec 3, ∃ ten : TenantId, ∃ n : BitVec 10, Operator s i ∧ BlockFree s blkSec ∧ isRemoving s ten = false ∧ activeSlot s ten
      = some n) ∧
    (∃ s : State, ∃ i : BitVec 3, ∃ ten : TenantId, Operator s i ∧ BlockFree s blkSec ∧ (isRemoving s ten = true ∨ (activeSlot s ten).isSome = true))
      :=
  ⟨⟨withPriv up (.session 1) fun p => { p with secData := words [1], keyMask := 0xFFFF }, 1, 5, 0, 1, by decide +kernel⟩,
   ⟨keyed, 1, 5, 3, by decide +kernel⟩,
   ⟨keyed, 1, 5, by decide +kernel⟩⟩

theorem witness_RemovalCoordinated :
    (∃ s : State, ∃ i : BitVec 3, ∃ ten : TenantId, Operator s i ∧ BlockFree s blkSec ∧ tget s.sec.removals ten = none ∧ isRemoving s ten = false) ∧
    (∃ s : State, ∃ i : BitVec 3, ∃ ten : TenantId, Operator s i ∧ (tget s.sec.removals ten).isSome = true) ∧
    (∃ s : State, ∃ ten : TenantId, ∃ r : Removal, isUp s = true ∧ tget s.sec.removals ten = some r) ∧
    (∃ s : State, ∃ d : DevId, ∃ ten : TenantId, ∃ r : Removal, isUp s = true ∧ tget s.sec.removals ten = some r ∧ r.scrubbing = false ∧ (∀ x ∈
      domainDevs s, x = d ∨ x ∈ r.drained)) ∧
    (∃ s : State, ∃ ten : TenantId, ∃ r : Removal, isUp s = true ∧ tget s.sec.removals ten = some r ∧ r.scrubbing = true ∧ r.sentAt + 200 ≤
      s.counter) :=
  ⟨⟨up, 1, 5, by decide +kernel⟩,
   ⟨{ up with sec.removals := [(5, ⟨.session 1, 0, 0, false, [], [], []⟩)] }, 1, 5, by decide +kernel⟩,
   ⟨{ up with sec.removals := [(5, ⟨.session 1, 0, 0, false, [], [], []⟩)] }, 5, ⟨.session 1, 0, 0, false, [], [], []⟩, by decide +kernel⟩,
   ⟨{ up with sec.removals := [(5, ⟨.session 1, 0, 0, false, [], [1], []⟩)] }, 2, 5, ⟨.session 1, 0, 0, false, [], [1], []⟩, by decide +kernel⟩,
   ⟨{ up with sec.removals := [(5, ⟨.session 1, 0, 999999800, true, [], [1, 2], []⟩)] }, 5, ⟨.session 1, 0, 999999800, true, [], [1, 2], []⟩, by
     decide +kernel⟩⟩

theorem witness_RemovalEnds :
    (∃ s : State, ∃ d : DevId, ∃ ten : TenantId, ∃ r : Removal, isUp s = true ∧ tget s.sec.removals ten = some r ∧ RunsAlone s r.who blkSec 0 ∧ (∀ x
      ∈ domainDevs s, x = d ∨ x ∈ r.scrubbed)) ∧
    (∃ s : State, ∃ d : DevId, ∃ ten : TenantId, ∃ r : RemStep, isUp s = true ∧ Quiet s ∧ tget s.sec.removals ten = none ∧ tget s.sec.runs ten = some
      r ∧ r.coord = d ∧ d ≠ devId s ∧ r.scrubDone = true) ∧
    (∃ s : State, ∃ d : DevId, ∃ ten : TenantId, ∃ r : Removal, isUp s = true ∧ tget s.sec.removals ten = some r ∧ RunsAlone s r.who blkSec 0 ∧
      r.firstAt + 800 ≤ s.counter ∧ r.scrubbing = true ∧ d ∈ domainDevs s ∧ d ∉ r.scrubbed) :=
  ⟨⟨cmdRuns { up with sec.removals := [(5, ⟨.session 1, 0, 0, true, [], [], [1]⟩)] } (.session 1) blkSec 0, 2, 5, ⟨.session 1, 0, 0, true, [], [],
    [1]⟩, by decide +kernel⟩,
   ⟨{ up with sec.runs := [(5, ⟨2, 0, 0, true, true, true⟩)] }, 2, 5, ⟨2, 0, 0, true, true, true⟩, by decide +kernel⟩,
   ⟨cmdRuns { up with sec.removals := [(5, ⟨.session 1, 999999200, 999999200, true, [], [], [1]⟩)] } (.session 1) blkSec 0, 2, 5, ⟨.session 1,
     999999200, 999999200, true, [], [], [1]⟩, by decide +kernel⟩⟩

theorem witness_RemovalTakenOver :
    (∃ s : State, ∃ i : BitVec 3, ∃ ten : TenantId, ∃ c : DevId, Operator s i ∧ BlockFree s blkSec ∧ tget s.sec.removals ten = none ∧ isRemoving s
      ten = true ∧ (tenantOf s ten).coord = some c ∧ c ≠ devId s) ∧
    (∃ s : State, isUp s = true) ∧
    (∃ s : State, ∃ d : DevId, ∃ ten : TenantId, ∃ w : Who, ∃ at_ : Nat, isUp s = true ∧ (tenantOf s ten).coord = some d ∧ s.sec.queries = [(ten, w,
      at_)] ∧ RunsAlone s w blkSec 0) ∧
    (∃ s : State, ∃ d : DevId, ∃ ten : TenantId, ∃ w : Who, ∃ at_ : Nat, isUp s = true ∧ (tenantOf s ten).coord = some d ∧ s.sec.queries = [(ten, w,
      at_)] ∧ RunsAlone s w blkSec 0) :=
  ⟨⟨{ up with sec.tenants := [(5, ⟨true, none, [], some 2⟩)] }, 1, 5, 2, by decide +kernel⟩,
   ⟨up, by decide +kernel⟩,
   ⟨cmdRuns { up with sec.tenants := [(5, ⟨true, none, [], some 2⟩)], sec.queries := [(5, .session 1, 0)] } (.session 1) blkSec 0, 2, 5, .session 1,
     0, by decide +kernel⟩,
   ⟨cmdRuns { up with sec.tenants := [(5, ⟨true, none, [], some 2⟩)], sec.queries := [(5, .session 1, 0)] } (.session 1) blkSec 0, 2, 5, .session 1,
     0, by decide +kernel⟩⟩

theorem witness_RemovalAtADevice :
    (∃ s : State, ∃ ten : TenantId, ∃ n : BitVec 10, isUp s = true ∧ tget s.sec.runs ten = none ∧ activeSlot s ten = some n ∧ (∀ r ∈ s.eng.reqs,
      r.f.tenant ≠ ten) ∧ (∀ x ∈ s.acc.slots, x.2.tenant ≠ ten) ∧ (∀ r ∈ s.ftl.seals, r.f.tenant ≠ ten)) ∧
    (∃ s : State, ∃ ten : TenantId, ∃ r : RemStep, isUp s = true ∧ tget s.sec.runs ten = some r ∧ r.drained = false ∧ tenantBusy s ten = false ∧
      r.lastFrame + 330 ≤ s.counter) ∧
    (∃ s : State, ∃ ten : TenantId, ∃ r : RemStep, isUp s = true ∧ tget s.sec.runs ten = some r ∧ (tenantBusy s ten = true ∨ s.counter < r.lastFrame
      + 330)) ∧
    (∃ s : State, ∃ ten : TenantId, ∃ r : RemStep, isUp s = true ∧ tget s.sec.runs ten = some r ∧ r.drained = true ∧ r.scrubAsked = false ∧
      r.scrubDone = false ∧ (∀ x ∈ s.obj.tab, x.2.tenant ≠ ten) ∧ (∀ x ∈ s.obj.plans, x.2.tenant ≠ ten)) ∧
    (∃ s : State, ∃ ten : TenantId, ∃ r : RemStep, isUp s = true ∧ tget s.sec.runs ten = some r ∧ r.scrubAsked = true ∧ r.scrubDone = false ∧ (∀ x ∈
      s.obj.tab, x.2.tenant ≠ ten)) :=
  ⟨⟨keyed, 5, 3, by decide +kernel⟩,
   ⟨{ up with sec.runs := [(5, ⟨2, 0, 999999670, false, false, false⟩)] }, 5, ⟨2, 0, 999999670, false, false, false⟩, by decide +kernel⟩,
   ⟨{ up with sec.runs := [(5, ⟨2, 0, 999999671, false, false, false⟩)] }, 5, ⟨2, 0, 999999671, false, false, false⟩, by decide +kernel⟩,
   ⟨{ up with sec.runs := [(5, ⟨2, 0, 0, true, false, false⟩)] }, 5, ⟨2, 0, 0, true, false, false⟩, by decide +kernel⟩,
   ⟨{ up with sec.runs := [(5, ⟨2, 0, 0, true, true, false⟩)] }, 5, ⟨2, 0, 0, true, true, false⟩, by decide +kernel⟩⟩

theorem witness_QuoteCommands :
    (∃ s : State, ∃ i : BitVec 3, Operator s i ∧ BlockFree s blkSec ∧ s.sec.update ≠ .switching ∧ s.sec.quotes.length < 4) ∧
    (∃ s : State, ∃ i : BitVec 3, Operator s i ∧ s.sec.update ≠ .switching ∧ 4 ≤ s.sec.quotes.length) ∧
    (∃ s : State, ∃ q : QuoteRun, ∃ rest : List QuoteRun, isUp s = true ∧ s.sec.quotes = q :: rest ∧ RunsAlone s q.w blkSec 0) :=
  ⟨⟨{ up with sec.quotes := List.replicate 3 ⟨.session 1, [], false⟩ }, 1, by decide +kernel⟩,
   ⟨{ up with sec.quotes := List.replicate 4 ⟨.session 1, [], false⟩ }, 1, by decide +kernel⟩,
   ⟨cmdRuns { up with sec.quotes := [⟨.session 1, [], false⟩] } (.session 1) blkSec 0, ⟨.session 1, [], false⟩, [], by decide +kernel⟩⟩

theorem witness_FirmwareStaging :
    (∃ s : State, ∃ i : BitVec 3, Admin s i ∧ BlockFree s blkSec ∧ s.sec.update ≠ .switching) ∧
    (∃ s : State, ∃ i : BitVec 3, Operator s i ∧ BlockFree s blkSec ∧ s.sec.update ≠ .switching ∧ isAdmin s (.session i) = false) ∧
    (∃ s : State, ∃ w : Who, ∃ svn : Word, isUp s = true ∧ s.sec.update = .pending ∧ s.sec.stager = some w ∧ RunsAlone s w blkSec 0 ∧
      s.sec.mrs.length = 8 ∧ s.sec.svnFloor ≤ svn.toNat) ∧
    (∃ s : State, ∃ w : Who, ∃ ok : Bool, ∃ svn : Word, isUp s = true ∧ s.sec.update = .pending ∧ s.sec.stager = some w ∧ RunsAlone s w blkSec 0 ∧
      (ok = false ∨ svn.toNat < s.sec.svnFloor)) :=
  ⟨⟨up, 0, by decide +kernel⟩,
   ⟨up, 1, by decide +kernel⟩,
   ⟨cmdRuns { up with sec.update := .pending, sec.stager := some (.session 0) } (.session 0) blkSec 0, .session 0, 2, by decide +kernel⟩,
   ⟨cmdRuns { up with sec.update := .pending, sec.stager := some (.session 0) } (.session 0) blkSec 0, .session 0, true, 1, by decide +kernel⟩⟩

theorem witness_FirmwareSwitching :
    (∃ s : State, ∃ i : BitVec 3, Admin s i ∧ BlockFree s blkSec ∧ s.sec.update = .staged) ∧
    (∃ s : State, ∃ w : Who, ∃ rom : List Byte, ∃ rest : List Meas, isUp s = true ∧ s.sec.update = .switching ∧ s.sec.stager = some w ∧ RunsAlone s w
      blkSec 0 ∧ s.sec.log = ⟨0, rom⟩ :: rest) ∧
    (∃ s : State, ∃ i : BitVec 3, Admin s i ∧ BlockFree s blkSec ∧ s.sec.update ≠ .switching ∧ s.sec.svnFloor < s.sec.svn ∧ s.sec.mrs.length = 8) ∧
    (∃ s : State, ∃ i : BitVec 3, Admin s i ∧ BlockFree s blkSec ∧ s.sec.update ≠ .switching ∧ s.sec.svn ≤ s.sec.svnFloor) :=
  ⟨⟨{ up with sec.update := .staged }, 0, by decide +kernel⟩,
   ⟨cmdRuns { up with sec.update := .switching, sec.stager := some (.session 0) } (.session 0) blkSec 0, .session 0, [], [], by decide +kernel⟩,
   ⟨up, 0, by decide +kernel⟩,
   ⟨{ up with sec.svnFloor := 3 }, 0, by decide +kernel⟩⟩

theorem witness_PowerUpSequence :
    (∃ s : State, ∃ b : BootInputs, ∃ h : BootHdr, ∃ f : FwBank, ∃ i : Image, mayBoot s = true ∧ bootHdr b = some h ∧ (if h.bankB then b.bankB else
      b.bankA) = f ∧ f.verifies = true ∧ max b.svnFloor s.sec.svnFloor ≤ f.svn ∧ ((b.imgA = some i ∧ b.imgB = none) ∨ (b.imgA = none ∧ b.imgB = some
      i)) ∧ imageOk i = true ∧ b.mgmtOk = true ∧ b.stacksOk = true) ∧
    (∃ s : State, ∃ b : BootInputs, mayBoot s = true ∧ (bootHdr b = none ∨ ((b.bankA.verifies = false ∨ b.bankA.svn < b.svnFloor) ∧ (b.bankB.verifies
      = false ∨ b.bankB.svn < b.svnFloor)))) ∧
    (∃ s : State, mayBoot s = false) :=
  ⟨⟨State.reset, bootIn, ⟨1, false, false⟩, bootIn.bankA, img, by decide +kernel⟩,
   ⟨State.reset, { bootIn with hdr0 := none }, by decide +kernel⟩,
   ⟨up, by decide +kernel⟩⟩

theorem witness_ConfigurationFlash :
    (∃ s : State, ∃ i : BitVec 3, Operator s i ∧ (privOf s (.session i)).flAddr.toNat % 256 = 0) ∧
    (∃ s : State, ∃ i : BitVec 3, ∃ a : Nat, Admin s i ∧ (privOf s (.session i)).flAddr.toNat = a ∧ a % 256 = 0 ∧ cflashOpen s a = true) ∧
    (∃ s : State, ∃ i : BitVec 3, ∃ a : Nat, Admin s i ∧ (privOf s (.session i)).flAddr.toNat = a ∧ a % 65536 = 0 ∧ cflashOpen s a = true) ∧
    (∃ s : State, ∃ i : BitVec 3, Operator s i ∧ (isAdmin s (.session i) = false ∨ cflashOpen s (privOf s (.session i)).flAddr.toNat = false)) :=
  ⟨⟨withPriv up (.session 1) fun p => { p with flAddr := 0x03FFFF00 }, 1, by decide +kernel⟩,
   ⟨withPriv up (.session 0) fun p => { p with flAddr := 0x01100000 }, 0, 0x01100000, by decide +kernel⟩,
   ⟨withPriv up (.session 0) fun p => { p with flAddr := 0x020F0000 }, 0, 0x020F0000, by decide +kernel⟩,
   ⟨withPriv up (.session 0) fun p => { p with flAddr := 0x00100000 }, 0, by decide +kernel⟩⟩

theorem witness_SupplyAndEnable :
    (∃ s : State, s.pins.vin = .off) ∧
    (∃ s : State, isUp s = true ∧ s.boot.ready = true ∧ s.pins.pfailN = true ∧ s.pins.vin = .operating ∧ dryingDown s = false) ∧
    (∃ s : State, (s.boot.held = .drydown ∨ s.boot.held = .shutdown) ∧ s.pins.vin = .operating) ∧
    (∃ s : State, isUp s = true ∧ s.boot.ready = true ∧ s.boot.shutdown = false ∧ s.pins.pwrEn = true ∧ dryingDown s = false) ∧
    (∃ s : State, s.boot.held = .failed ∧ s.pins.pwrEn = true ∧ dryingDown s = false) :=
  ⟨⟨{ State.reset with pins.vin := .off }, by decide +kernel⟩,
   ⟨up, by decide +kernel⟩,
   ⟨{ up with boot.held := .drydown }, by decide +kernel⟩,
   ⟨up, by decide +kernel⟩,
   ⟨{ up with boot.held := .failed }, by decide +kernel⟩⟩

theorem witness_OverVoltageAndClock :
    (∃ s : State, isUp s = true) ∧
    (∃ s : State, isUp s = true ∧ dryingDown s = false) ∧
    (∃ s : State, isUp s = true ∧ s.pins.refclk = true) ∧
    (∃ s : State, isUp s = true ∧ s.pins.holdoverAt.isSome = true ∧ dryingDown s = false) :=
  ⟨⟨up, by decide +kernel⟩,
   ⟨up, by decide +kernel⟩,
   ⟨up, by decide +kernel⟩,
   ⟨{ up with pins.refclk := false, pins.holdoverAt := some 1 }, by decide +kernel⟩⟩

theorem witness_DrydownSteps :
    (∃ s : State, isUp s = true ∧ s.boot.ready = true ∧ dryingDown s = false) ∧
    (∃ s : State, isUp s = true ∧ s.boot.ready = false ∧ s.dry.drying = false) ∧
    (∃ s : State, ∃ i : DryImg, isUp s = true ∧ s.dry.drying = true ∧ s.dry.image = some i ∧ i.chosen = true ∧ i.committed = false) ∧
    (∃ s : State, isUp s = true) :=
  ⟨⟨up, by decide +kernel⟩,
   ⟨{ up with boot.ready := false }, by decide +kernel⟩,
   ⟨{ up with dry.drying := true, dry.image := some ⟨1, 1, [], [], true, false, 0, 0, 0⟩ }, ⟨1, 1, [], [], true, false, 0, 0, 0⟩, by decide +kernel⟩,
   ⟨up, by decide +kernel⟩⟩

theorem witness_HoldUpEnergy :
    (∃ s : State, isUp s = true ∧ s.boot.huTimer = true) ∧
    (∃ s : State, isUp s = true ∧ s.boot.huTimer = true ∧ 10000000 ≤ s.counter) ∧
    (∃ s : State, isUp s = true ∧ s.dry.limitSet = true) :=
  ⟨⟨{ up with boot.huTimer := true }, by decide +kernel⟩,
   ⟨{ up with boot.huTimer := true, counter := 10000000 }, by decide +kernel⟩,
   ⟨up, by decide +kernel⟩⟩

theorem witness_ErrorRecords :
    (∃ s : State, ∃ e : Event, s.err.log.any (recMatches s.counter e) = true) ∧
    (∃ s : State, ∃ e : Event, s.err.log.any (recMatches s.counter e) = false ∧ s.err.log.length < 4096) ∧
    (∃ s : State, ∃ e : Event, s.err.log.any (recMatches s.counter e) = false ∧ s.err.log.length = 4096) ∧
    (∃ e : Event, 2 ≤ e.action.toNat) :=
  ⟨⟨{ up with err.log := [⟨1, 999999000, 0, false, 1, false, 3, .ok, .none, ⟨12, 0, 0, 0⟩, 0⟩] }, ⟨3, 1, 0, .ok, .none, ⟨12, 0, 0, 0⟩, false⟩, by
    decide +kernel⟩,
   ⟨{ up with err.log := [⟨1, 999999000, 0, false, 2, false, 3, .ok, .none, ⟨12, 0, 0, 0⟩, 0⟩] }, ⟨3, 1, 0, .ok, .none, ⟨12, 0, 0, 0⟩, false⟩, by
     decide +kernel⟩,
   ⟨{ up with err.log := List.replicate 4096 ⟨1, 999999000, 0, false, 2, false, 3, .ok, .none, ⟨12, 0, 0, 0⟩, 0⟩ }, ⟨3, 1, 0, .ok, .none, ⟨12, 0, 0,
     0⟩, false⟩, by decide +kernel⟩,
   ⟨⟨3, 2, 0, .ok, .none, ⟨12, 0, 0, 0⟩, false⟩, by decide +kernel⟩⟩

theorem witness_StackErrors :
    (∃ s : State, isUp s = true) ∧
    (∃ s : State, ∃ src : Ep, ∃ dst : Ep, ∃ cls : Cls, ∃ seq : Seq, ∃ e : LogEnt, isUp s = true ∧ s.err.cells = [] ∧ logFind s (src, dst, cls) seq =
      some e) ∧
    (∃ s : State, ∃ q : Quad, ∃ g : Nat, isUp s = true ∧ s.err.cells = [] ∧ s.err.rereads = [(q, g, false)] ∧ s.err.sticky.contains (q, g) = false ∧
      granuleAddr s q g = none) ∧
    (∃ s : State, ∃ q : Quad, ∃ g : Nat, ∃ a : Nat, ∃ oid : Oid, ∃ o : Obj, isUp s = true ∧ s.err.cells = [] ∧ s.err.rereads = [(q, g, false)] ∧
      granuleAddr s q g = some a ∧ objIn s a = some (oid, o) ∧ o.t1 = .none) :=
  ⟨⟨up, by decide +kernel⟩,
   ⟨{ up with egr.log := [⟨(0x11, 0x10, 0), 4, 5, .done ⟨Op.cpl, 0x11, 0x10, 3, 4, 0, 0, 0, 0, false, false, 0, 0, []⟩, 0⟩] }, 0x11, 0x10, 0, 4,
     ⟨(0x11, 0x10, 0), 4, 5, .done ⟨Op.cpl, 0x11, 0x10, 3, 4, 0, 0, 0, 0, false, false, 0, 0, []⟩, 0⟩, by decide +kernel⟩,
   ⟨{ up with err.rereads := [(0, 7, false)] }, 0, 7, by decide +kernel⟩,
   ⟨{ stored obj1 with err.rereads := [(0, 64, false)] }, 0, 64, 0x11000, oid1, obj1, by decide +kernel⟩⟩

theorem witness_ParityRailsAndResets :
    (∃ s : State, ∃ x : QFrame, isUp s = true ∧ s.err.cells = [] ∧ s.swc.land = [x] ∧ s.swc.queue = []) ∧
    (∃ s : State, ∃ t : TileNo, isUp s = true ∧ s.err.cells = [] ∧ (tileOf s t).failed = false) ∧
    (∃ s : State, ∃ t : TileNo, isUp s = true ∧ s.err.blocks = [] ∧ (tileOf s t).failed = false ∧ (tileOf s t).queue = [] ∧ s.acc.slots = [] ∧ (∀ x ∈
      s.eng.tiles, rereadOf x.2 = .none)) ∧
    (∃ s : State, ∃ dom : BitVec 5, isUp s = true ∧ dom.toNat < 8 ∧ s.err.resets = [] ∧ s.err.resetting = 0 ∧ s.eng.tiles = []) ∧
    (∃ s : State, ∃ e : EscEvent, ∃ r : BitVec 5, isUp s = true ∧ isResetting s r = true ∧ 14 ≤ r.toNat ∧ r.toNat < 22 ∧ s.err.resets = [e] ∧ e.die =
      regionDie r ∧ s.counter ≤ e.at_ + 5000) :=
  ⟨⟨{ up with swc.land := [frame1] }, frame1, by decide +kernel⟩,
   ⟨up, 511, by decide +kernel⟩,
   ⟨up, 511, by decide +kernel⟩,
   ⟨up, 7, by decide +kernel⟩,
   ⟨{ up with err.resetting := 0x4000, err.resets := [⟨12, 0, 0, 999995000⟩] }, ⟨12, 0, 0, 999995000⟩, 14, by decide +kernel⟩⟩

theorem witness_BlotterArm :
    (∃ s : State, ∃ i : BitVec 3, Admin s i ∧ s.sec.mrs.length = 8) ∧
    (∃ s : State, ∃ i : BitVec 3, Operator s i ∧ s.sec.mrs.length = 8) ∧
    (∃ s : State, ∃ i : BitVec 3, Operator s i ∧ isAdmin s (.session i) = false) :=
  ⟨⟨up, 0, by decide +kernel⟩,
   ⟨up, 1, by decide +kernel⟩,
   ⟨up, 1, by decide +kernel⟩⟩

theorem witness_CappingLoop :
    (∃ s : State, isUp s = true) ∧
    (∃ s : State, ∃ w : Nat, isUp s = true ∧ s.pwr.capNext = none ∧ s.pwr.capPos < 18 ∧ s.pwr.capPos ≠ 10 ∧ capW s < w ∧ capW s * (100 +
      s.pwr.fastPct.toNat) < w * 100) ∧
    (∃ s : State, ∃ w : Nat, isUp s = true ∧ s.pwr.capNext = none ∧ s.pwr.capPos = 18 ∧ capW s < w) :=
  ⟨⟨up, by decide +kernel⟩,
   ⟨{ up with pwr.capPos := 17 }, 1651, by decide +kernel⟩,
   ⟨{ up with pwr.capPos := 18 }, 1501, by decide +kernel⟩⟩

theorem witness_PowerRegisters :
    (∃ s : State, ∃ i : BitVec 3, ∃ v : Word, Operator s i ∧ (∀ k, k < 16 → bitsOf v.toNat (2 * k) 2 ≠ 3)) ∧
    (∃ s : State, ∃ i : BitVec 3, ∃ v : Word, ∃ k : Nat, Operator s i ∧ k < 16 ∧ bitsOf v.toNat (2 * k) 2 = 3) :=
  ⟨⟨up, 1, 0xAAAAAAAA, by decide +kernel⟩,
   ⟨up, 1, 0xEAAAAAAA, 15, by decide +kernel⟩⟩

theorem witness_NotesAndDroops :
    (∃ s : State, isUp s = true) ∧
    (∃ s : State, ∃ e : BitVec 3, ∃ r : Ramp, isUp s = true ∧ (dieOf s e).ramp = some r ∧ r.heldAt = none) ∧
    (∃ s : State, ∃ dom : BitVec 5, ∃ r : Ramp, isUp s = true ∧ dom.toNat < 8 ∧ (dieOf s (dom.setWidth 3)).ramp = some r) ∧
    (∃ s : State, ∃ dom : BitVec 5, ∃ r : Ramp, isUp s = true ∧ dom.toNat < 8 ∧ (dieOf s (dom.setWidth 3)).ramp = some r ∧ r.heldAt.isSome = true ∧
      noteCode r.start < noteCode r.target) ∧
    (∃ s : State, ∃ dom : BitVec 5, ∃ r : Ramp, isUp s = true ∧ dom.toNat < 8 ∧ (dieOf s (dom.setWidth 3)).ramp = some r ∧ r.heldAt.isSome = true ∧
      r.back = false ∧ 3 ≤ r.droops ∧ noteCode r.target < noteCode r.start) ∧
    (∃ s : State, ∃ dom : BitVec 5, ∃ r : Ramp, ∃ at_ : Nat, isUp s = true ∧ dom.toNat < 8 ∧ (dieOf s (dom.setWidth 3)).ramp = some r ∧ r.heldAt =
      some at_ ∧ at_ + 100 ≤ s.counter) ∧
    (∃ s : State, ∃ e : BitVec 3, isUp s = true ∧ (dieOf s e).ramp = none ∧ (dieOf s e).barUntil ≤ s.counter ∧ noteCode (grantedNote s e) < noteCode
      (dieOf s e).note) :=
  ⟨⟨up, by decide +kernel⟩,
   ⟨{ up with pwr.dies := [(7, ⟨.base, some ⟨.base, .heart, 0, none, false⟩, 0, []⟩)] }, 7, ⟨.base, .heart, 0, none, false⟩, by decide +kernel⟩,
   ⟨{ up with pwr.dies := [(7, ⟨.base, some ⟨.base, .heart, 0, none, false⟩, 0, []⟩)] }, 7, ⟨.base, .heart, 0, none, false⟩, by decide +kernel⟩,
   ⟨{ up with pwr.dies := [(7, ⟨.base, some ⟨.heart, .base, 0, some 5, false⟩, 0, []⟩)] }, 7, ⟨.heart, .base, 0, some 5, false⟩, by decide +kernel⟩,
   ⟨{ up with pwr.dies := [(7, ⟨.base, some ⟨.base, .top, 3, some 5, false⟩, 0, []⟩)] }, 7, ⟨.base, .top, 3, some 5, false⟩, by decide +kernel⟩,
   ⟨{ up with pwr.dies := [(7, ⟨.base, some ⟨.base, .top, 1, some 999999900, false⟩, 0, []⟩)] }, 7, ⟨.base, .top, 1, some 999999900, false⟩,
     999999900, by decide +kernel⟩,
   ⟨{ up with pwr.dies := [(7, ⟨.base, none, 1000000000, [(.top, 1000000000)]⟩)] }, 7, by decide +kernel⟩⟩

theorem witness_TilesAndHeat :
    (∃ s : State, ∃ t : TileNo, isUp s = true ∧ (tileOf s t).marked = true ∧ (tileOf s t).gated = false ∧ (tileOf s t).queue = [] ∧ hasStripe s t =
      false) ∧
    (∃ s : State, ∃ t : TileNo, isUp s = true ∧ hasStripe s t = true) ∧
    (∃ s : State, ∃ t : TileNo, isUp s = true ∧ (tileOf s t).ungating = true ∧ ungatedCount s ≤ allowance s) ∧
    (∃ s : State, ∃ temps : List Int, isUp s = true ∧ (∀ j y, temps[j]? = some y → y ≤ shutOf j)) ∧
    (∃ s : State, ∃ temps : List Int, ∃ k : Nat, ∃ x : Int, isUp s = true ∧ temps[k]? = some x ∧ critOf k < x ∧ (∀ j y, temps[j]? = some y → y ≤
      shutOf j)) ∧
    (∃ s : State, ∃ temps : List Int, ∃ k : Nat, ∃ x : Int, ∃ at_ : Nat, isUp s = true ∧ dryingDown s = false ∧ temps[k]? = some x ∧ shutOf k < x ∧
      tget s.pwr.overShut k = some at_ ∧ at_ + 100 ≤ s.counter) :=
  ⟨⟨{ up with eng.tiles := [(5, { TileRec.blank with gated := false, marked := true })] }, 5, by decide +kernel⟩,
   ⟨{ up with acc.slots := [(0, { Accord.blank with stripes := [⟨0, 0, 5, [], [], [], [], false⟩] })] }, 5, by decide +kernel⟩,
   ⟨{ up with eng.tiles := [(5, { TileRec.blank with gated := true, ungating := true })] }, 5, by decide +kernel⟩,
   ⟨up, [960], by decide +kernel, fun j y h => by rcases j with _ | j <;> simp at h; subst h; decide⟩,
   ⟨up, [881], 0, 881, by decide +kernel, by decide +kernel, by decide +kernel, fun j y h => by rcases j with _ | j <;> simp at h; subst h; decide⟩,
   ⟨{ up with pwr.overShut := [(0, 999999900)] }, [961], 0, 961, 999999900, by decide +kernel⟩⟩

theorem witness_LeaseCommands :
    (∃ s : State, ∃ i : BitVec 3, ∃ k : CompId, ∃ e : Ep, ∃ n : BitVec 16, ∃ d : List Byte, ∃ x : PoolEntry, Operator s i ∧ BlockFree s blkLse ∧
      (s.lse.synced = true ∨ isRegistrar s = true) ∧ lseBytes (privOf s (.session i)) = d ∧ zerosAt d 0 4 = true ∧ zerosAt d 24 2 = true ∧ zerosAt d
      28 4 = true ∧ leAt d 4 2 = k.toNat ∧ leAt d 6 2 = e.toNat ∧ leAt d 8 8 % 4096 = 0 ∧ leAt d 16 8 % 4096 = 0 ∧ leAt d 8 8 ≤ leAt d 16 8 ∧ leAt d
      26 2 ≠ 0 ∧ (compRec s k).state = .up ∧ x ∈ s.lse.pool ∧ x.ep = e ∧ x.base.toNat ≤ leAt d 8 8 ∧ leAt d 16 8 + 4095 ≤ x.limit.toNat ∧ (∀ y ∈
      s.lse.leases, leaseMeets e (leAt d 8 8) (leAt d 16 8) y.2 = false) ∧ freeLease s = some n) ∧
    (∃ s : State, ∃ i : BitVec 3, ∃ e : Ep, ∃ d : List Byte, ∃ y : BitVec 16 × Lease, Operator s i ∧ BlockFree s blkLse ∧ (s.lse.synced = true ∨
      isRegistrar s = true) ∧ lseBytes (privOf s (.session i)) = d ∧ leAt d 6 2 = e.toNat ∧ y ∈ s.lse.leases ∧ leaseMeets e (leAt d 8 8) (leAt d 16
      8) y.2 = true ∧ y.2.state ≠ .scrubbing) ∧
    (∃ s : State, ∃ i : BitVec 3, ∃ n : BitVec 16, ∃ term : Nat, Operator s i ∧ BlockFree s blkLse ∧ cmdLease s (.session i) = some n ∧ leAt
      (lseBytes (privOf s (.session i))) 26 2 = term ∧ (leaseOf s n).state ≠ .expired ∧ (leaseOf s n).state ≠ .scrubbing ∧ s.counter < (leaseOf s
      n).expiry) ∧
    (∃ s : State, ∃ i : BitVec 3, ∃ n : BitVec 16, Operator s i ∧ BlockFree s blkLse ∧ cmdLease s (.session i) = some n ∧ ((leaseOf s n).state =
      .reserved ∨ (leaseOf s n).state = .expired) ∧ (leaseOf s n).inPrev = false ∧ offerLease s (leaseOf s n) = false) ∧
    (∃ s : State, ∃ i : BitVec 3, ∃ n : BitVec 16, Operator s i ∧ BlockFree s blkLse ∧ cmdLease s (.session i) = some n ∧ (leaseOf s n).state = .lost
      ∧ (leaseOf s n).inPrev = false) ∧
    (∃ s : State, ∃ i : BitVec 3, ∃ n : BitVec 16, Operator s i ∧ BlockFree s blkLse ∧ cmdLease s (.session i) = some n) :=
  ⟨⟨lseSet { comped compUp up with lse.pool := [⟨0x21, 0x1000, 0x2FFF⟩] } [0, 0x00210007, 0x1000, 0, 0x2000, 0, 0xFFFF0000, 0], 1, 7, 0x21, 0, lseGot
    [0, 0x00210007, 0x1000, 0, 0x2000, 0, 0xFFFF0000, 0], ⟨0x21, 0x1000, 0x2FFF⟩, by decide +kernel⟩,
   ⟨lseSet (leased (lease4 .active)) [0, 0x00210007, 0x1000, 0, 0x2000, 0, 0xFFFF0000, 0], 1, 0x21, lseGot [0, 0x00210007, 0x1000, 0, 0x2000, 0,
     0xFFFF0000, 0], (4, lease4 .active), by decide +kernel⟩,
   ⟨leased { lease4 .active with expiry := 1000000001 }, 1, 4, 100, by decide +kernel⟩,
   ⟨leased (lease4 .expired), 1, 4, by decide +kernel⟩,
   ⟨leased (lease4 .lost), 1, 4, by decide +kernel⟩,
   ⟨leased (lease4 .scrubbing), 1, 4, by decide +kernel⟩⟩

theorem witness_LeaseAndDeviceLoss :
    (∃ s : State, ∃ n : BitVec 16, isUp s = true ∧ ((leaseOf s n).state = .reserved ∨ (leaseOf s n).state = .active) ∧ offerLease s (leaseOf s n) =
      false ∧ (leaseOf s n).expiry ≤ s.counter) ∧
    (∃ s : State, ∃ n : BitVec 16, isUp s = true ∧ s.counter < (leaseOf s n).expiry) ∧
    (∃ s : State, ∃ n : BitVec 16, isUp s = true ∧ (leaseOf s n).state = .scrubbing) ∧
    (∃ s : State, ∃ e : Ep, ∃ at_ : Nat, ∃ x : PoolEntry, isUp s = true ∧ Quiet s ∧ tget s.lse.noRouteEp e = some at_ ∧ s.lse.lostMembers.contains e
      = false ∧ x ∈ s.lse.pool ∧ x.ep = e ∧ at_ + lostBound s ≤ s.counter) ∧
    (∃ s : State, ∃ d : DevId, ∃ at_ : Nat, isUp s = true ∧ Quiet s ∧ isRegistrar s = true ∧ d ≠ devId s ∧ tget s.lse.noRouteDev d = some at_ ∧ at_ +
      lostBound s ≤ s.counter ∧ s.lse.lostDevs.contains d = false ∧ s.lse.comps = [] ∧ s.lse.changes = [] ∧ s.acc.slots = []) ∧
    (∃ s : State, ∃ d : DevId, isUp s = true ∧ Quiet s ∧ isRegistrar s = true ∧ d ≠ devId s ∧ s.lse.lostDevs.contains d = false ∧ s.lse.comps = [] ∧
      s.lse.changes = [] ∧ s.acc.slots = []) ∧
    (∃ s : State, ∃ c : CompId, isUp s = true ∧ Quiet s ∧ (compRec s c).state ≠ .free) :=
  ⟨⟨leased { lease4 .active with expiry := 1000000000 }, 4, by decide +kernel⟩,
   ⟨leased { lease4 .active with expiry := 1000000001 }, 4, by decide +kernel⟩,
   ⟨leased (lease4 .scrubbing), 4, by decide +kernel⟩,
   ⟨{ leased (lease4 .active) with lse.noRouteEp := [(0x21, 999999000)] }, 0x21, 999999000, ⟨0x21, 0, 0x7FFF⟩, by decide +kernel⟩,
   ⟨{ up with lse.noRouteDev := [(2, 999999000)] }, 2, 999999000, by decide +kernel⟩,
   ⟨up, 2, by decide +kernel⟩,
   ⟨comped compUp up, 7, by decide +kernel⟩⟩

theorem witness_StagingCommands :
    (∃ s : State, ∃ i : BitVec 3, ∃ c : CompId, ∃ d : List Byte, ∃ v : Win, Operator s i ∧ BlockFree s blkLse ∧ (s.lse.synced = true ∨ isRegistrar s
      = true) ∧ lseBytes (privOf s (.session i)) = d ∧ c ≠ 0 ∧ isEndpointPort s (byteAt d 0) = true ∧ (portCompOf s (.lane (byteAt d 0)) = c ∨ .port
      c (byteAt d 0) true ∈ s.lse.staged) ∧ s.lse.staged.length < 4096 ∧ v = ⟨BitVec.ofNat 32 (leAt d 4 4) &&& 0xFFFFF000, BitVec.ofNat 32 (leAt d 8
      4) &&& 0x03FFFFFF, BitVec.ofNat 32 (leAt d 12 4) &&& 0xFFFFF000, BitVec.ofNat 32 (leAt d 16 4) &&& 0x03FFFFFF, BitVec.ofNat 32 (leAt d 20 4)
      &&& 0xBFFFFFFF⟩) ∧
    (∃ s : State, ∃ i : BitVec 3, ∃ c : CompId, ∃ d : List Byte, Operator s i ∧ BlockFree s blkLse ∧ (s.lse.synced = true ∨ isRegistrar s = true) ∧
      lseBytes (privOf s (.session i)) = d ∧ (c = 0 ∨ isEndpointPort s (byteAt d 0) = false ∨ (portCompOf s (.lane (byteAt d 0)) ≠ c ∧ .port c
      (byteAt d 0) true ∉ s.lse.staged))) ∧
    (∃ s : State, ∃ i : BitVec 3, ∃ c : CompId, ∃ d : List Byte, Operator s i ∧ BlockFree s blkLse ∧ (s.lse.synced = true ∨ isRegistrar s = true) ∧
      lseBytes (privOf s (.session i)) = d ∧ c ≠ 0 ∧ isEndpointPort s (byteAt d 0) = true ∧ (compRec s c).state ≠ .free ∧ ((byteAt d 1).getLsbD 0 =
      false ∨ portCompOf s (.lane (byteAt d 0)) = 0 ∨ portCompOf s (.lane (byteAt d 0)) = c) ∧ s.lse.staged.length < 4096) ∧
    (∃ s : State, ∃ i : BitVec 3, ∃ c : CompId, ∃ d : List Byte, Operator s i ∧ BlockFree s blkLse ∧ (s.lse.synced = true ∨ isRegistrar s = true) ∧
      lseBytes (privOf s (.session i)) = d ∧ (byteAt d 1).getLsbD 0 = true ∧ portCompOf s (.lane (byteAt d 0)) ≠ 0 ∧ portCompOf s (.lane (byteAt d
      0)) ≠ c) ∧
    (∃ s : State, ∃ i : BitVec 3, ∃ c : CompId, ∃ n : BitVec 16, Operator s i ∧ BlockFree s blkLse ∧ (s.lse.synced = true ∨ isRegistrar s = true) ∧
      cmdLease s (.session i) = some n ∧ (leaseOf s n).comp = c ∧ (leaseOf s n).state ≠ .scrubbing ∧ offerLease s (leaseOf s n) = false ∧
      s.lse.staged.length < 4096) ∧
    (∃ s : State, ∃ i : BitVec 3, ∃ c : CompId, ∃ n : BitVec 16, Operator s i ∧ BlockFree s blkLse ∧ (s.lse.synced = true ∨ isRegistrar s = true) ∧
      cmdLease s (.session i) = some n ∧ (leaseOf s n).comp ≠ c) ∧
    (∃ s : State, ∃ i : BitVec 3, Operator s i ∧ BlockFree s blkLse ∧ (s.lse.synced = true ∨ isRegistrar s = true)) :=
  ⟨⟨lseSet { up with lse.portComp := [(0, 7)], lse.staged := [.win 3 0 1 noWin, .win 7 0 2 noWin] } [0x0100, 0x12345FFF, 0xFFFFFFFF, 0x22222FFF,
    0xFEFFFFFF, 0xFFFFFFFF], 1, 7, lseGot [0x0100, 0x12345FFF, 0xFFFFFFFF, 0x22222FFF, 0xFEFFFFFF, 0xFFFFFFFF], ⟨0x12345000, 0x03FFFFFF, 0x22222000,
    0x02FFFFFF, 0xBFFFFFFF⟩, by decide +kernel⟩,
   ⟨lseSet { up with lse.portComp := [(0, 3)] } [0], 1, 7, lseGot [0], by decide +kernel⟩,
   ⟨lseSet (comped compUp { up with lse.staged := [.port 3 0 false] }) [0x0100], 1, 7, lseGot [0x0100], by decide +kernel⟩,
   ⟨lseSet (comped compUp { up with lse.portComp := [(0, 3)] }) [0x0100], 1, 7, lseGot [0x0100], by decide +kernel⟩,
   ⟨{ leased (lease4 .active) with lse.staged := [.lease 7 4 true] }, 1, 7, 4, by decide +kernel⟩,
   ⟨leased (lease4 .active), 1, 3, 4, by decide +kernel⟩,
   ⟨{ leased { lease4 .active with leave := true } with lse.staged := [.lease 7 4 true, .port 3 0 false] }, 1, by decide +kernel⟩⟩

theorem witness_CompositionCommands :
    (∃ s : State, ∃ i : BitVec 3, Operator s i ∧ BlockFree s blkLse ∧ registrarReachable s = true) ∧
    (∃ s : State, ∃ i : BitVec 3, Operator s i ∧ BlockFree s blkLse ∧ registrarReachable s = false) ∧
    (∃ s : State, ∃ home : DevId, ∃ c : CompId, isUp s = true ∧ Quiet s ∧ isRegistrar s = true ∧ home ≠ devId s ∧ c ≠ 0 ∧ (compRec s c).state = .free
      ∧ (∀ k, k ≠ 0 → k < c → (compRec s k).state ≠ .free)) ∧
    (∃ s : State, ∃ home : DevId, isUp s = true ∧ Quiet s ∧ isRegistrar s = true ∧ home ≠ devId s ∧ (∀ k, k ≠ 0 → (compRec s k).state ≠ .free)) ∧
    (∃ s : State, ∃ w : Who, isUp s = true ∧ isRegistrar s = false ∧ s.lse.creating = [w] ∧ RunsAlone s w blkLse 0) ∧
    (∃ s : State, ∃ w : Who, isUp s = true ∧ isRegistrar s = false ∧ s.lse.creating = [w] ∧ RunsAlone s w blkLse 0) ∧
    (∃ s : State, ∃ i : BitVec 3, ∃ c : CompId, ∃ d : List Byte, ∃ e : Epoch, ∃ devs : BitVec 64, ∃ reach : BitVec 64, Operator s i ∧ BlockFree s
      blkLse ∧ (s.lse.synced = true ∨ isRegistrar s = true) ∧ isHome s c = true ∧ changeOf s c = none ∧ lseBytes (privOf s (.session i)) = d ∧ byteAt
      d 0 = e ∧ e = (compRec s c).epoch + 1 ∧ BitVec.ofNat 64 (leAt d 8 8) = devs ∧ BitVec.ofNat 64 (leAt d 16 8) = reach ∧ devs ≠ 0) ∧
    (∃ s : State, ∃ i : BitVec 3, ∃ c : CompId, ∃ d : List Byte, ∃ e : Epoch, ∃ reach : BitVec 64, Operator s i ∧ BlockFree s blkLse ∧ (s.lse.synced
      = true ∨ isRegistrar s = true) ∧ isHome s c = true ∧ changeOf s c = none ∧ lseBytes (privOf s (.session i)) = d ∧ byteAt d 0 = e ∧ e = (compRec
      s c).epoch + 1 ∧ leAt d 8 8 = 0 ∧ BitVec.ofNat 64 (leAt d 16 8) = reach ∧ s.lse.lostDevs = []) ∧
    (∃ s : State, ∃ i : BitVec 3, ∃ c : CompId, ∃ d : List Byte, Operator s i ∧ BlockFree s blkLse ∧ (s.lse.synced = true ∨ isRegistrar s = true) ∧
      isHome s c = true ∧ changeOf s c = none ∧ lseBytes (privOf s (.session i)) = d ∧ byteAt d 0 ≠ (compRec s c).epoch + 1) ∧
    (∃ s : State, ∃ i : BitVec 3, ∃ c : CompId, Operator s i ∧ BlockFree s blkLse ∧ (s.lse.synced = true ∨ isRegistrar s = true) ∧ isHome s c = true
      ∧ changeOf s c = none) ∧
    (∃ s : State, ∃ i : BitVec 3, ∃ c : CompId, ∃ d : List Byte, Operator s i ∧ BlockFree s blkLse ∧ (s.lse.synced = true ∨ isRegistrar s = true) ∧
      isHome s c = true ∧ (changeOf s c).isSome = true ∧ lseBytes (privOf s (.session i)) = d ∧ byteAt d 0 ≠ homeEpoch s c) ∧
    (∃ s : State, ∃ i : BitVec 3, ∃ c : CompId, Operator s i ∧ BlockFree s blkLse ∧ (s.lse.synced = true ∨ isRegistrar s = true) ∧ isHome s c = true
      ∧ (changeOf s c).isSome = true) ∧
    (∃ s : State, ∃ i : BitVec 3, ∃ c : CompId, Operator s i ∧ BlockFree s blkLse ∧ (s.lse.synced = true ∨ isRegistrar s = true) ∧ isHome s c =
      false) ∧
    (∃ s : State, ∃ i : BitVec 3, ∃ c : CompId, Operator s i ∧ BlockFree s blkLse ∧ (s.lse.synced = true ∨ isRegistrar s = true) ∧ isHome s c =
      false) :=
  ⟨⟨up, 1, by decide +kernel⟩,
   ⟨{ member with swc.failed := [0] }, 1, by decide +kernel⟩,
   ⟨{ up with lse.comps := [(1, compUp)] }, 2, 2,
     by and_intros <;> first | exact (fun k h1 h2 => by have e : k = 1 := (by bv_omega); subst e; decide +kernel) | decide +kernel⟩,
   ⟨{ up with lse.comps := (List.range 1023).map fun k => (BitVec.ofNat 10 (k + 1), compUp) }, 2,
     by and_intros <;> first | exact fullComps | decide +kernel⟩,
   ⟨cmdRuns { member with lse.creating := [.session 1] } (.session 1) blkLse 0, .session 1, by decide +kernel⟩,
   ⟨cmdRuns { member with lse.creating := [.session 1] } (.session 1) blkLse 0, .session 1, by decide +kernel⟩,
   ⟨lseSet (comped { compUp with epoch := 255 } up) [0, 0, 6, 0, 5, 0], 1, 7, lseGot [0, 0, 6, 0, 5, 0], 0, 6, 5, by decide +kernel⟩,
   ⟨lseSet (comped { compUp with epoch := 255 } up) [0, 0, 0, 0, 5, 0], 1, 7, lseGot [0, 0, 0, 0, 5, 0], 0, 5, by decide +kernel⟩,
   ⟨lseSet (comped compUp up) [2], 1, 7, lseGot [2], by decide +kernel⟩,
   ⟨comped compUp up, 1, 7, by decide +kernel⟩,
   ⟨lseSet
     { comped { compUp with state := .changing } up with lse.changes := [(7, ⟨.session 1, 6, 6, 1, .up, false, 2, 999999200, 0, 2, 0, 0, [], false, 0⟩)] }
     [2], 1, 7, lseGot [2], by decide +kernel⟩,
   ⟨{ comped { compUp with state := .changing } up with lse.changes := [(7, ⟨.session 1, 6, 6, 1, .up, false, 2, 999999200, 0, 2, 0, 0, [], false, 0⟩)] },
     1, 7, by decide +kernel⟩,
   ⟨up, 1, 7, by decide +kernel⟩,
   ⟨up, 1, 7, by decide +kernel⟩⟩

theorem witness_EpochChangeAtHome :
    (∃ s : State, ∃ d : DevId, ∃ c : CompId, ∃ r : ReadyNote, ∃ x : Change, ∃ y : Change, isUp s = true ∧ Quiet s ∧ changeOf s c = some x ∧ x.step =
      2 ∧ x.ready &&& devBit d = 0 ∧ y =
      { x with ready := x.ready ||| devBit d, binds := x.binds ++ r.binds, lost := x.lost || r.lost, holders := if r.holds then x.holders ||| devBit d else x.holders })
      ∧
    (∃ s : State, ∃ d : DevId, ∃ c : CompId, ∃ x : Change, isUp s = true ∧ changeOf s c = some x ∧ x.step = 4 ∧ RunsAlone s x.w blkLse 0 ∧
      s.lse.lostDevs = [] ∧ x.devices &&& ~~~(x.switched ||| devBit d) = 0) ∧
    (∃ s : State, ∃ d : DevId, ∃ c : CompId, ∃ x : Change, isUp s = true ∧ Quiet s ∧ changeOf s c = some x ∧ x.step = 4 ∧ s.lse.lostDevs = [] ∧
      x.devices &&& ~~~(x.switched ||| devBit d) ≠ 0) ∧
    (∃ s : State, ∃ d : DevId, ∃ c : CompId, ∃ x : Change, isUp s = true ∧ Quiet s ∧ changeOf s c = some x ∧ x.step = 6 ∧ s.lse.lostDevs = [] ∧
      x.devices &&& ~~~(x.drained ||| devBit d) = 0) ∧
    (∃ s : State, ∃ c : CompId, ∃ x : Change, isUp s = true ∧ changeOf s c = some x ∧ x.step = 2 ∧ x.at_ + 800 ≤ s.counter ∧ RunsAlone s x.w blkLse 0
      ∧ (compRec s c).state = .changing) ∧
    (∃ s : State, ∃ c : CompId, ∃ x : Change, isUp s = true ∧ Quiet s ∧ changeOf s c = some x ∧ x.step = 4 ∧ s.lse.lostDevs = [] ∧ s.counter <
      x.firstSwitch + 800 ∧ x.at_ + 200 ≤ s.counter) :=
  ⟨⟨{ comped { compUp with state := .changing } up with lse.changes := [(7, ⟨.session 1, 6, 6, 1, .up, false, 2, 999999200, 0, 2, 0, 0, [], false, 0⟩)] },
    2, 7, ⟨[(0x11, 7)], true, true⟩, ⟨.session 1, 6, 6, 1, .up, false, 2, 999999200, 0, 2, 0, 0, [], false, 0⟩,
    { (⟨.session 1, 6, 6, 1, .up, false, 2, 999999200, 0, 2, 0, 0, [], false, 0⟩ : Change) with ready := 6, binds := [(0x11, 7)], lost := true, holders := 4 },
    by decide +kernel⟩,
   ⟨cmdRuns
     { comped { compUp with state := .changing } up with lse.changes := [(7, ⟨.session 1, 6, 6, 1, .up, false, 4, 0, 0, 6, 2, 0, [], false, 0⟩)] }
     (.session 1) blkLse 0, 2, 7, ⟨.session 1, 6, 6, 1, .up, false, 4, 0, 0, 6, 2, 0, [], false, 0⟩, by decide +kernel⟩,
   ⟨{ comped { compUp with state := .changing } up with lse.changes := [(7, ⟨.session 1, 6, 6, 1, .up, false, 4, 999999800, 999999800, 6, 0, 0, [], false, 0⟩)] },
     2, 7, ⟨.session 1, 6, 6, 1, .up, false, 4, 999999800, 999999800, 6, 0, 0, [], false, 0⟩, by decide +kernel⟩,
   ⟨{ comped compUp up with lse.changes := [(7, ⟨.session 1, 6, 6, 1, .up, false, 6, 0, 0, 6, 6, 2, [], false, 0⟩)] }, 2, 7, ⟨.session 1, 6, 6, 1,
     .up, false, 6, 0, 0, 6, 6, 2, [], false, 0⟩, by decide +kernel⟩,
   ⟨cmdRuns
     { comped { compUp with state := .changing } up with lse.changes := [(7, ⟨.session 1, 6, 6, 1, .up, false, 2, 999999200, 0, 2, 0, 0, [], false, 0⟩)] }
     (.session 1) blkLse 0, 7, ⟨.session 1, 6, 6, 1, .up, false, 2, 999999200, 0, 2, 0, 0, [], false, 0⟩, by decide +kernel⟩,
   ⟨{ comped { compUp with state := .changing } up with lse.changes := [(7, ⟨.session 1, 6, 6, 1, .up, false, 4, 999999800, 999999800, 6, 2, 0, [], false, 0⟩)] },
     7, ⟨.session 1, 6, 6, 1, .up, false, 4, 999999800, 999999800, 6, 2, 0, [], false, 0⟩, by decide +kernel⟩⟩

theorem witness_EpochChangeAtDevice :
    (∃ s : State, ∃ c : CompId, isUp s = true ∧ (compRec s c).sillage = false ∧ (compRec s c).state = .up) ∧
    (∃ s : State, ∃ c : CompId, isUp s = true ∧ (compRec s c).sillage = true ∧ (compRec s c).stamp ≠ (compRec s c).epoch ∧ (compRec s c).destroying =
      false) ∧
    (∃ s : State, ∃ c : CompId, ∃ e : Epoch, ∃ p : PortNo, ∃ w : BitVec 8, ∃ v : Win, isUp s = true ∧ (compRec s c).sillage = true ∧ (compRec s
      c).epoch = e ∧ (compRec s c).stamp ≠ e ∧ (compRec s c).destroying = false ∧ s.lse.staged = [.win c p w v, .port c p true]) ∧
    (∃ s : State, ∃ c : CompId, isUp s = true ∧ (compRec s c).sillage = true ∧ (compRec s c).stamp = (compRec s c).epoch ∧ (compRec s c).drained =
      false ∧ oldOut s c = 0 ∧ (∀ at_, (compRec s c).oldAt = some at_ → at_ + 330 ≤ s.counter)) ∧
    (∃ s : State, ∃ c : CompId, isUp s = true ∧ (compRec s c).state ≠ .free ∧ (∀ x ∈ s.lse.leases, x.2.leave = false)) ∧
    (∃ s : State, ∃ t : SyncTable, isUp s = true ∧ t.full = true ∧ isRegistrar s = false ∧ s.hp.moving = false ∧ s.lse.comps = [] ∧ (t.comps.map
      (·.comp)).Nodup) :=
  ⟨⟨comped { compUp with home := 2 } member, 7, by decide +kernel⟩,
   ⟨comped { compUp with state := .changing, home := 2, epoch := 3, stamp := 2, sillage := true } member, 7, by decide +kernel⟩,
   ⟨{ comped { compUp with state := .changing, home := 2, epoch := 3, stamp := 2, sillage := true } member with lse.staged := [.win 7 0 1 ⟨1, 2, 3, 4, 5⟩, .port 7 0 true] },
     7, 3, 0, 1, ⟨1, 2, 3, 4, 5⟩, by decide +kernel⟩,
   ⟨comped { compUp with state := .changing, home := 2, epoch := 3, stamp := 3, sillage := true, drained := false, oldAt := some 999999670 } member,
     7, by decide +kernel, by decide +kernel, by decide +kernel, by decide +kernel, by decide +kernel,
     fun a h => by have e : some a = some 999999670 := h.symm.trans (by decide +kernel); cases e; decide +kernel⟩,
   ⟨comped { compUp with state := .changing, home := 2, epoch := 3, stamp := 3, sillage := true } member, 7, by decide +kernel⟩,
   ⟨member, ⟨true, [⟨7, 1, 2, 3, 6⟩, ⟨8, 1, 2, 0, 0⟩], [], 2⟩, by decide +kernel⟩⟩

theorem witness_OwnershipRecords :
    (∃ s : State, ∃ i : BitVec 3, ∃ k : CompId, ∃ oid : Oid, ∃ d : List Byte, ∃ n : Nat, Operator s i ∧ BlockFree s blkLse ∧ isRegistrar s = true ∧
      lseBytes (privOf s (.session i)) = d ∧ leAt d 0 5 = oid.toNat ∧ zerosAt d 5 3 = true ∧ leAt d 8 2 = k.toNat ∧ ownOf s oid = none ∧ (oidDev oid
      = devId s → (objOf s oid).isSome = true) ∧ reaches s k oid = true ∧ freeOwn s = some n ∧ ownDurable s n = none) ∧
    (∃ s : State, ∃ i : BitVec 3, ∃ oid : Oid, ∃ d : List Byte, ∃ r : OwnRec, Operator s i ∧ BlockFree s blkLse ∧ isRegistrar s = true ∧ lseBytes
      (privOf s (.session i)) = d ∧ leAt d 0 5 = oid.toNat ∧ zerosAt d 5 3 = true ∧ ownOf s oid = some r ∧ r.offered = false ∧ r.waiting = .none ∧
      ownDurable s r.line = none) ∧
    (∃ s : State, ∃ oid : Oid, ∃ r : OwnRec, ∃ w : Who, isUp s = true ∧ ownOf s oid = some r ∧ r.waiting = .cmd w ∧ r.dropping = false ∧ r.queue = []
      ∧ RunsAlone s w blkLse 0) ∧
    (∃ s : State, ∃ oid : Oid, ∃ r : OwnRec, ∃ f : Req, isUp s = true ∧ Quiet s ∧ ownOf s oid = some r ∧ r.waiting = .cpl f ∧ r.dropping = false ∧
      r.queue = [] ∧ (localAt s f.src).isSome = true) ∧
    (∃ s : State, ∃ oid : Oid, ∃ r : OwnRec, ∃ w : Who, isUp s = true ∧ ownOf s oid = some r ∧ r.waiting = .cmd w ∧ r.dropping = false ∧ r.adding =
      true ∧ r.queue = [] ∧ RunsAlone s w blkLse 0 ∧ (s.lse.own.filter (fun x => x.1 = oid)).length = 1) :=
  ⟨⟨lseSet { owning own1 with lse.own := [] } [1, 4, 7], 1, 7, oid1, lseGot [1, 4, 7], 0, by decide +kernel⟩,
   ⟨lseSet (owning own1) [1, 4], 1, oid1, lseGot [1, 4], own1, by decide +kernel⟩,
   ⟨cmdRuns (owning { own1 with waiting := .cmd (.session 1) }) (.session 1) blkLse 0, oid1, { own1 with waiting := .cmd (.session 1) }, .session 1,
     by decide +kernel⟩,
   ⟨owning { own1 with waiting := .cpl rq }, oid1, { own1 with waiting := .cpl rq }, rq, by decide +kernel⟩,
   ⟨cmdRuns (owning { own1 with waiting := .cmd (.session 1), adding := true }) (.session 1) blkLse 0, oid1,
     { own1 with waiting := .cmd (.session 1), adding := true }, .session 1, by decide +kernel⟩⟩

theorem witness_GatesAndOffers :
    (∃ s : State, ∃ oid : Oid, isUp s = true ∧ (objOf s oid).isSome = true) ∧
    (∃ s : State, isUp s = true) ∧
    (∃ s : State, ∃ n : BitVec 16, ∃ m : BitVec 16, ∃ oid : Oid, ∃ r : OwnRec, isUp s = true ∧ s.lse.own = [(oid, r)] ∧ r.offered = true ∧
      r.offerLease.extractLsb' 0 16 = n ∧ leaseNamed s r.offerLease = some m ∧ offerLease s (leaseOf s m) = true ∧ (leaseOf s m).expiry ≤ s.counter ∧
      r.waiting = .none ∧ ownDurable s r.line = none) :=
  ⟨⟨stored obj1, oid1, by decide +kernel⟩,
   ⟨up, by decide +kernel⟩,
   ⟨owning { own1 with offerTo := 7, offered := true, offerLease := 0x04010004 }, 4, 4, oid1,
     { own1 with offerTo := 7, offered := true, offerLease := 0x04010004 }, by decide +kernel⟩⟩

theorem witness_OwnershipTransitions :
    (∃ s : State, ∃ f : Req, ∃ oid : Oid, ∃ r : OwnRec, ∃ k : CompId, ∃ n : BitVec 16, isUp s = true ∧ ownBad s
      { f with opcode := Op.ownOffer, subop := 0 } = false ∧ leAt f.payload 0 5 = oid.toNat ∧ ownOf s oid = some r ∧ r.waiting = .none ∧ r.offered =
      false ∧ compOf s f.src = r.owner ∧ r.owner ≠ 0 ∧ leAt f.payload 8 2 = k.toNat ∧ leAt f.payload 10 2 ≠ 0 ∧ (compRec s k).state = .up ∧ reaches s
      r.owner oid = true ∧ reaches s k oid = true ∧ freeLease s = some n ∧ ownDurable s r.line = none) ∧
    (∃ s : State, ∃ f : Req, ∃ oid : Oid, ∃ r : OwnRec, ∃ m : BitVec 16, isUp s = true ∧ ownBad s { f with opcode := Op.ownOffer, subop := 1 } =
      false ∧ leAt f.payload 0 5 = oid.toNat ∧ ownOf s oid = some r ∧ r.waiting = .none ∧ r.offered = true ∧ compOf s f.src = r.owner ∧ r.owner ≠ 0 ∧
      leaseNamed s r.offerLease = some m ∧ offerLease s (leaseOf s m) = true ∧ ownDurable s r.line = none) ∧
    (∃ s : State, ∃ f : Req, ∃ oid : Oid, ∃ r : OwnRec, ∃ m : BitVec 16, isUp s = true ∧ ownBad s { f with opcode := Op.ownAccept } = false ∧ leAt
      f.payload 0 5 = oid.toNat ∧ ownOf s oid = some r ∧ r.waiting = .none ∧ r.offered = true ∧ compOf s f.src = r.offerTo ∧ leaseNamed s
      r.offerLease = some m ∧ offerLease s (leaseOf s m) = true ∧ s.counter < (leaseOf s m).expiry ∧ ownDurable s r.line = none) ∧
    (∃ s : State, ∃ f : Req, ∃ oid : Oid, ∃ r : OwnRec, isUp s = true ∧ ownBad s { f with opcode := Op.ownOffer, subop := 2 } = false ∧ f.subop = 2 ∧
      leAt f.payload 0 5 = oid.toNat ∧ ownOf s oid = some r ∧ r.waiting = .none ∧ compOf s f.src = r.owner ∧ r.owner ≠ 0 ∧ s.dry.armed = true ∧
      (localAt s f.src).isSome = true) ∧
    (∃ s : State, ∃ f : Req, ∃ oid : Oid, ∃ r : OwnRec, isUp s = true ∧ ownBad s { f with opcode := Op.ownOffer, subop := 2 } = false ∧ f.subop = 2 ∧
      leAt f.payload 0 5 = oid.toNat ∧ ownOf s oid = some r ∧ r.waiting = .none ∧ compOf s f.src ≠ r.owner ∧ (localAt s f.src).isSome = true) :=
  ⟨⟨owning own1, ownReq Op.ownOffer 0 2 (leBytes 0x10007 8 ++ zeros 16), oid1, own1, 7, 0, by decide +kernel⟩,
   ⟨owning { own1 with offerTo := 7, offered := true, offerLease := 0x04010004 }, ownReq Op.ownOffer 1 2 (zeros 24), oid1,
     { own1 with offerTo := 7, offered := true, offerLease := 0x04010004 }, 4, by decide +kernel⟩,
   ⟨{ owning { own1 with owner := 6, offerTo := 7, offered := true, offerLease := 0x04010004 } with lse.leases := [(4, { lease4 .reserved with target := 0x10, base := 0, limit := 0, expiry := 1000000001 })] },
     ownReq Op.ownAccept 0 1 (zeros 8), oid1, { own1 with owner := 6, offerTo := 7, offered := true, offerLease := 0x04010004 }, 4, by
     decide +kernel⟩,
   ⟨owning own1, ownReq Op.ownOffer 2 2 (zeros 24), oid1, own1, by decide +kernel⟩,
   ⟨owning { own1 with owner := 6 }, ownReq Op.ownOffer 2 2 (zeros 24), oid1, { own1 with owner := 6 }, by decide +kernel⟩⟩

theorem witness_HostFrames :
    (∃ s : State, ∃ h : Shim, ∃ body : List Byte, ∃ f : Req, isUp s = true ∧ s.hp.phy = true ∧ macKeeps s h = true ∧ h.ver = 1 ∧ h.kind = 0 ∧
      s.hp.link = true ∧ h.ackv = false ∧ h.nak = false ∧ h.eseq = hostNext s ∧ h.crcnt = 0 ∧ s.hp.part = [] ∧ 0 < wireLength body ∧ wireLength body
      = body.length ∧ frameOfWire body = .req f ∧ opRequest f.opcode = true ∧ byteAt body 0 ≠ 0) ∧
    (∃ s : State, ∃ h : Shim, isUp s = true ∧ s.hp.phy = true ∧ (h.fcsOk = false ∨ h.etype ≠ s.hp.etype)) ∧
    (∃ s : State, ∃ h : Shim, ∃ x : HpFrame, isUp s = true ∧ Quiet s ∧ s.hp.phy = true ∧ s.hp.link = true ∧ macKeeps s h = true ∧ h.ver = 1 ∧ h.kind
      = 1 ∧ h.ackv = true ∧ h.nak = false ∧ h.crcnt = 0 ∧ s.hp.rb = [x] ∧ x.sent = true ∧ h.ackseq = x.eseq) ∧
    (∃ s : State, ∃ h : Shim, ∃ m : MgmtMsg, ∃ r : Decided, isUp s = true ∧ Quiet s ∧ s.hp.phy = true ∧ s.hp.active = true ∧ s.hp.link = true ∧
      macKeeps s h = true ∧ h.ver = 1 ∧ h.kind = 2 ∧ h.ackv = false ∧ h.nak = false ∧ h.eseq = hostNext s ∧ h.crcnt = 0 ∧ unansweredOf s .hostPath =
      0 ∧ m.device ≠ devId s ∧ s.lse.lostDevs.contains m.device = false ∧ effRoute s m.device = some r) :=
  ⟨⟨hosted, shim 0 false 7, frameWire (.req rq), rq, by decide +kernel⟩,
   ⟨hosted, { shim 0 false 7 with fcsOk := false }, by decide +kernel⟩,
   ⟨{ hosted with hp.rb := [hpFrame] }, shim 1 true 0, hpFrame, by decide +kernel⟩,
   ⟨hosted, shim 2 false 7, { msg 1 0 16 [] with device := 2 }, ⟨1, 8, 1⟩, by decide +kernel⟩⟩

theorem witness_HostLinkBringUp :
    (∃ s : State, isUp s = true ∧ hostEnabled s = true ∧ s.hp.phy = false) ∧
    (∃ s : State, isUp s = true ∧ s.hp.phy = true ∧ s.hp.link = false ∧ s.hp.paramAt + 1000 ≤ s.counter) ∧
    (∃ s : State, ∃ h : Shim, ∃ credits : List Nat, isUp s = true ∧ Quiet s ∧ hostEnabled s = true ∧ s.hp.phy = true ∧ s.hp.link = false ∧
      s.hp.active = true ∧ macKeeps s h = true ∧ h.ver = 1 ∧ h.kind = 3 ∧ h.eseq = 0 ∧ s.hp.rx = none ∧ h.ackv = false ∧ h.nak = false ∧ h.crcnt = 0
      ∧ s.hp.gotParam = false ∧ credits.length = 8) ∧
    (∃ s : State, ∃ x : HpFrame, isUp s = true ∧ s.hp.phy = true ∧ s.hp.rb = [x] ∧ x.sent = true ∧ x.replays < 7 ∧ s.hp.ackAt + 20 ≤ s.counter ∧
      s.hp.replayAt + 20 ≤ s.counter) ∧
    (∃ s : State, isUp s = true ∧ s.hp.phy = true ∧ s.hp.rb = []) :=
  ⟨⟨{ hosted with hp.phy := false }, by decide +kernel⟩,
   ⟨{ hosted with hp.link := false, hp.paramAt := 999999000 }, by decide +kernel⟩,
   ⟨{ hosted with hp.link := false, hp.rx := none }, shim 3 false 0, List.replicate 8 1, by decide +kernel⟩,
   ⟨{ hosted with hp.rb := [hpFrame], hp.ackAt := 999999980 }, hpFrame, by decide +kernel⟩,
   ⟨hosted, by decide +kernel⟩⟩

theorem witness_HostInterfaceMove :
    (∃ s : State, ∃ i : BitVec 3, Admin s i ∧ s.hp.active = false ∧ s.hp.moving = false ∧ s.hp.move = none) ∧
    (∃ s : State, ∃ i : BitVec 3, Operator s i ∧ (s.hp.active = true ∨ isAdmin s (.session i) = false)) ∧
    (∃ s : State, ∃ i : BitVec 3, Operator s i ∧ (s.hp.active = true ∨ isAdmin s (.session i) = false)) ∧
    (∃ s : State, isUp s = true ∧ isRegistrar s = true ∧ s.dry.armed = true ∧ dryRoom s 0 hostLine = true ∧ s.hp.move = none) ∧
    (∃ s : State, isUp s = true ∧ isRegistrar s = true ∧ s.dry.armed = false) ∧
    (∃ s : State, ∃ new : DevId, isUp s = true ∧ s.hp.active = true ∧ new ≠ devId s) ∧
    (∃ s : State, ∃ h : HostHandover, isUp s = true ∧ Quiet s ∧ s.hp.moving = true ∧ h.handed = true ∧ h.shp = [] ∧ s.hp.gotParam = false) ∧
    (∃ s : State, ∃ origin : DevId, ∃ nseq : Word, isUp s = true ∧ s.hp.active = false ∧ s.hp.moving = false ∧ (∀ k, tget s.hp.nseqs origin = some k
      → k < nseq)) ∧
    (∃ s : State, ∃ w : Who, isUp s = true ∧ s.hp.moving = true ∧ s.hp.hostDev ≠ devId s ∧ s.hp.mover = some w ∧ RunsAlone s w blkSwc 0x204 ∧
      s.hp.part = [] ∧ s.cmb.ents = [] ∧ s.egr.dest = [] ∧ s.acc.slots = [] ∧ s.swc.land = [] ∧ s.swc.queue = []) :=
  ⟨⟨up, 0, by decide +kernel⟩,
   ⟨hosted, 1, by decide +kernel⟩,
   ⟨up, 1, by decide +kernel⟩,
   ⟨up, by decide +kernel⟩,
   ⟨{ up with dry.armed := false }, by decide +kernel⟩,
   ⟨hosted, 2, by decide +kernel⟩,
   ⟨{ up with hp.moving := true }, ⟨true, [(1, noWin)], []⟩, by decide +kernel⟩,
   ⟨{ up with hp.nseqs := [(2, 5)] }, 2, 6,
     by and_intros <;> first | exact (fun k h => by have e : some k = some 5 := h.symm.trans (by decide +kernel); cases e; decide) | decide +kernel⟩,
   ⟨cmdRuns { up with hp.moving := true, hp.hostDev := 2, hp.mover := some (.session 0) } (.session 0) blkSwc 0x204, .session 0, by decide +kernel⟩⟩

theorem witness_RequestsForwarded :
    (∃ s : State, ∃ p : Port, ∃ f : Req, ∃ x, x ∈ requestRows p f ∧ x.2 = true ∧ isUp s = true ∧ Alone s f ∧ Passes s p f ∧ (localAt s f.dst).isSome
      = true) ∧
    (∃ s : State, ∃ p : Port, ∃ f : Req, ∃ d : DevId, ∃ sl : Nat, ∃ q : PortNo, ∃ x, x ∈ requestRows p f ∧ x.2 = true ∧ isUp s = true ∧ Alone s f ∧
      Passes s p f ∧ localAt s f.dst = none ∧ epDev s f.dst = some d ∧ (if opPaired f.opcode then pairPort s d f else staticSlot s d f.src f.dst
      f.cls) = some (sl, q) ∧ outputUp s (.lane q) = true) ∧
    (∃ s : State, ∃ p : Port, ∃ f : Req, ∃ k : Track, isUp s = true ∧ Alone s f ∧ f.opcode = Op.accContrib ∧ f.subop = 1 ∧ formBad s p f = false ∧
      trackOf s f.src f.tag = some k ∧ k.f.opcode = Op.accContrib ∧ k.f.subop = 0 ∧ f.addr.toNat / 65536 < (winOf s f.src f.tag).1 + (winOf s f.src
      f.tag).2 ∧ NotPoliced s p f) :=
  ⟨⟨windowed, .lane 0, req Op.rdLine 0 0x10080 [], (Instr.rdLine (.lane 0) (req Op.rdLine 0 0x10080 []), true), by decide +kernel⟩,
   ⟨windowed, .lane 0, far, 2, 0, 8, (Instr.rdLine (.lane 0) far, true), by decide +kernel⟩,
   ⟨tracking { track1 with f := req Op.accContrib 0 0 [] }, .lane 0, req Op.accContrib 1 0xFFFF (zeros 16),
     { track1 with f := req Op.accContrib 0 0 [] }, by decide +kernel⟩⟩

theorem witness_ReleaseStoresAndFences :
    (∃ s : State, ∃ p : Port, ∃ f : Req, isUp s = true ∧ f.opcode = Op.wrLineRel ∧ Alone s f ∧ Passes s p f ∧ (localAt s f.dst).isSome = true ∧ (∀ k
      ∈ s.ing.trk, k.f.src ≠ f.src) ∧ (scopeEnd s f.src (srcOf s f.src).scope).notOk = false) ∧
    (∃ s : State, ∃ p : Port, ∃ f : Req, isUp s = true ∧ f.opcode = Op.wrLineRel ∧ Alone s f ∧ ingressBad s p f = false ∧ delivers s p = true ∧ (∀ k
      ∈ s.ing.trk, k.f.src ≠ f.src) ∧ (scopeEnd s f.src (srcOf s f.src).scope).notOk = true) ∧
    (∃ s : State, ∃ p : Port, ∃ f : Req, isUp s = true ∧ f.opcode = Op.fence ∧ Alone s f ∧ fenceBad s p f = false ∧ delivers s p = true ∧ (∀ k ∈
      s.ing.trk, k.f.src ≠ f.src)) ∧
    (∃ s : State, ∃ p : Port, ∃ f : Req, ∃ k : Track, isUp s = true ∧ f.opcode = Op.fence ∧ Alone s f ∧ fenceBad s p f = false ∧ k ∈ s.ing.trk ∧
      k.f.src = f.src ∧ k.order < (srcOf s f.src).order) ∧
    (∃ s : State, ∃ h : Held, isUp s = true ∧ delivers s h.port = true ∧ (srcOf s h.f.src).fence = some h ∧ earlierOpen s h (fun _ => true) = false) ∧
    (∃ s : State, ∃ h : Held, isUp s = true ∧ h.f.opcode = Op.wrLineRel ∧ (srcOf s h.f.src).rels = [h] ∧ relReady s h = true ∧ (scopeEnd s h.f.src
      h.scope).notOk = false ∧ ingressBad (takeRel s h) h.port h.f = false ∧ heldByTables s h.f = false ∧ (compRec s (portCompOf s h.port)).state ≠
      .down ∧ hasRoute s h.f.dst = true ∧ NotPoliced s h.port h.f ∧ (localAt s h.f.dst).isSome = true) ∧
    (∃ s : State, ∃ h : Held, ∃ rest : List Held, isUp s = true ∧ s.ing.buf = h :: rest ∧ opScoped h.f.opcode = true ∧ h.f.opcode ≠ Op.wrLineRel ∧
      (srcOf s h.f.src).fence = none ∧ (srcOf s h.f.src).rels = [] ∧ Passes s h.port h.f ∧ (localAt s h.f.dst).isSome = true) :=
  ⟨⟨windowed, .lane 0, { rq with opcode := Op.wrLineRel, len := 8, payload := zeros 128 }, by decide +kernel⟩,
   ⟨{ windowed with ing.srcs := [(0x11, { SrcRec.blank with order := 1, ends := [⟨0, false, true, true⟩] })] }, .lane 0,
     { rq with opcode := Op.wrLineRel, len := 8, payload := zeros 128 }, by decide +kernel⟩,
   ⟨windowed, .lane 0, { rq with opcode := Op.fence }, by decide +kernel⟩,
   ⟨tracking track1, .lane 0, { rq with opcode := Op.fence, tag := 4 }, track1, by decide +kernel⟩,
   ⟨{ windowed with ing.srcs := [(0x11, { SrcRec.blank with order := 6, fence := some (held1 Op.fence) })] }, held1 Op.fence, by decide +kernel⟩,
   ⟨{ windowed with ing.srcs := [(0x11, { SrcRec.blank with order := 6, rels := [held1 Op.wrLineRel] })] }, held1 Op.wrLineRel, by decide +kernel⟩,
   ⟨{ windowed with ing.buf := [held1 Op.rdLine] }, held1 Op.rdLine, [], by decide +kernel⟩⟩

theorem witness_OutstandingRequests :
    (∃ s : State, ∃ c : Cpl, isUp s = true ∧ c.dst ≠ ownEp s ∧ trackOf s c.dst c.tag = none) ∧
    (∃ s : State, ∃ c : Cpl, ∃ k : Track, isUp s = true ∧ c.dst ≠ ownEp s ∧ trackOf s c.dst c.tag = some k ∧ opSequenced k.f.opcode = true ∧ (c.seq ≠
      k.f.seq ∨ c.cls ≠ k.f.cls ∨ fromDest s k.f c = false)) ∧
    (∃ s : State, ∃ c : Cpl, ∃ k : Track, isUp s = true ∧ c.dst ≠ ownEp s ∧ trackOf s c.dst c.tag = some k ∧ (opSequenced k.f.opcode = true → c.seq =
      k.f.seq ∧ c.cls = k.f.cls ∧ c.src = k.f.dst) ∧ delivers s k.port = true ∧ statusOf c.status = .pathLost ∧ opPaired k.f.opcode = true ∧ (∀ x ∈
      s.ing.trk, delivers s x.port = true)) ∧
    (∃ s : State, ∃ c : Cpl, ∃ k : Track, isUp s = true ∧ c.dst ≠ ownEp s ∧ trackOf s c.dst c.tag = some k ∧ (opSequenced k.f.opcode = true → c.seq =
      k.f.seq ∧ c.cls = k.f.cls ∧ c.src = k.f.dst) ∧ delivers s k.port = true ∧ statusOf c.status ≠ .pathLost) ∧
    (∃ s : State, ∃ i : Instr, ∃ k : Track, isUp s = true ∧ (i = .resendTimeout k.f.src k.f.tag ∧ trackOf s k.f.src k.f.tag = some k ∧ k.latest + 200
      ≤ s.counter ∨ ∃ d p, i = .pathFaultNotice d p ∧ s.acc.slots = [] ∧ trackOf s k.f.src k.f.tag = some k ∧ s.ing.trk.filter (fun x => opPaired
      x.f.opcode && x.path.contains (d, p)) = [k]) ∧ opPaired k.f.opcode = true ∧ k.f.pgen ≠ 3 ∧ hasRoute s k.f.dst = true ∧ (localAt s
      k.f.dst).isSome = true) ∧
    (∃ s : State, ∃ i : Instr, ∃ k : Track, isUp s = true ∧ (i = .resendTimeout k.f.src k.f.tag ∧ trackOf s k.f.src k.f.tag = some k ∧ k.latest + 200
      ≤ s.counter ∨ ∃ d p, i = .pathFaultNotice d p ∧ s.acc.slots = [] ∧ trackOf s k.f.src k.f.tag = some k ∧ s.ing.trk.filter (fun x => opPaired
      x.f.opcode && x.path.contains (d, p)) = [k]) ∧ opPaired k.f.opcode = true ∧ k.f.pgen ≠ 3 ∧ hasRoute s k.f.dst = true ∧ (localAt s
      k.f.dst).isSome = true) ∧
    (∃ s : State, ∃ k : Track, ∃ d : DevId, ∃ sl : Nat, ∃ q : PortNo, isUp s = true ∧ trackOf s k.f.src k.f.tag = some k ∧ k.latest + 200 ≤ s.counter
      ∧ opPaired k.f.opcode = true ∧ k.f.pgen ≠ 3 ∧ hasRoute s k.f.dst = true ∧ localAt s k.f.dst = none ∧ epDev s k.f.dst = some d ∧ pairPort s d
      k.f = some (sl, q) ∧ outputUp s (.lane q) = true) ∧
    (∃ s : State, ∃ k : Track, isUp s = true ∧ trackOf s k.f.src k.f.tag = some k ∧ k.first + 800 ≤ s.counter ∧ (∀ x ∈ s.ing.trk, delivers s x.port =
      true)) ∧
    (∃ s : State, ∃ k : Track, isUp s = true ∧ trackOf s k.f.src k.f.tag = some k ∧ k.first + 800 ≤ s.counter ∧ (∀ x ∈ s.ing.trk, delivers s x.port =
      true)) ∧
    (∃ s : State, isUp s = true) ∧
    (∃ s : State, ∃ src : Ep, ∃ dst : Ep, ∃ c : Cls, ∃ r : Pair, isUp s = true ∧ pairRec s (src, dst, c) = some r ∧ r.settleUntil ≤ s.counter) ∧
    (∃ s : State, ∃ k : Track, isUp s = true ∧ trackOf s k.f.src k.f.tag = some k ∧ opPaired k.f.opcode = false) :=
  ⟨⟨up, ⟨Op.cpl, 0x11, 0x10, 3, 7, 0, 0, 0, 0, false, false, 0, 0, []⟩, by decide +kernel⟩,
   ⟨tracking track1, ⟨Op.cpl, 0x11, 0x10, 3, 8, 0, 0, 0, 0, false, false, 0, 0, []⟩, track1,
     by and_intros <;> first | exact Or.inl (by decide +kernel) | decide +kernel⟩,
   ⟨{ tracking track1 with ing.pairs := [((0x11, 0x10, 0), newPair 0 0)] },
     { (⟨Op.cpl, 0x11, 0x10, 3, 7, 0, 0, 0, 0, false, false, 0, 0, []⟩ : Cpl) with status := Status.code .pathLost }, track1, by decide +kernel⟩,
   ⟨tracking track1, ⟨Op.cpl, 0x11, 0x10, 3, 7, 0, 0, 0, 0, false, false, 0, 0, []⟩, track1, by decide +kernel⟩,
   ⟨tracking track1, .resendTimeout 0x11 3, track1,
     by decide +kernel, Or.inl ⟨rfl, by decide +kernel, by decide +kernel⟩, by and_intros <;> first  | decide +kernel⟩,
   ⟨tracking { track1 with path := [(2, 8)] }, .pathFaultNotice 2 8, { track1 with path := [(2, 8)] },
     by decide +kernel, Or.inr ⟨2, 8, rfl, by decide +kernel, by decide +kernel, by decide +kernel⟩, by and_intros <;> first  | decide +kernel⟩,
   ⟨tracking { track1 with f := { far with opcode := Op.wrLine, seqd := true, seq := 7 } },
     { track1 with f := { far with opcode := Op.wrLine, seqd := true, seq := 7 } }, 2, 0, 8, by decide +kernel⟩,
   ⟨tracking track1, track1, by decide +kernel⟩,
   ⟨tracking { track1 with f := req Op.filter 0 0 [] }, { track1 with f := req Op.filter 0 0 [] }, by decide +kernel⟩,
   ⟨tracking track1, by decide +kernel⟩,
   ⟨{ windowed with ing.pairs := [((0x11, 0x10, 0), { newPair 0 0 with settleUntil := 1000000000 })] }, 0x11, 0x10, 0,
     { newPair 0 0 with settleUntil := 1000000000 }, by decide +kernel⟩,
   ⟨tracking { track1 with f := req Op.filter 0 0 [] }, { track1 with f := req Op.filter 0 0 [] }, by decide +kernel⟩⟩

theorem witness_TrunkArrivalsAndWindows :
    (∃ s : State, ∃ p : PortNo, ∃ f : Req, isUp s = true ∧ isTrunk s p = true ∧ (portOf s p).auth = true ∧ f.chk = true ∧ staysHere s f = true) ∧
    (∃ s : State, ∃ p : PortNo, ∃ f : Req, ∃ o : Port, isUp s = true ∧ isTrunk s p = true ∧ (portOf s p).auth = true ∧ f.chk = true ∧ localAt s f.dst
      = some o ∧ staysHere s f = false ∧ outputUp s o = true) ∧
    (∃ s : State, ∃ p : PortNo, ∃ f : Req, ∃ d : DevId, ∃ r : Decided, isUp s = true ∧ isTrunk s p = true ∧ (portOf s p).auth = true ∧ f.chk = true ∧
      localAt s f.dst = none ∧ epDev s f.dst = some d ∧ effRoute s d = some r ∧ outputUp s (.lane r.port) = true) ∧
    (∃ s : State, ∃ p : PortNo, ∃ f : Req, isUp s = true ∧ isTrunk s p = true ∧ (portOf s p).auth = true ∧ f.chk = false ∧ s.err.log = [] ∧ (localAt
      s f.src).isSome = true) ∧
    (∃ s : State, ∃ p : PortNo, isUp s = true ∧ (isTrunk s p = false ∨ (portOf s p).auth = false)) ∧
    (∃ s : State, ∃ p : PortNo, isUp s = true ∧ (isTrunk s p = false ∨ (portOf s p).auth = false)) ∧
    (∃ s : State, ∃ i : BitVec 3, ∃ q : PortNo, ∃ win : BitVec 8, ∃ reg : BitVec 3, Operator s i ∧ isEndpointPort s q = true ∧ blockKnown s
      (blkOfAddr (windowAddr (.lane q) win reg)) = true ∧ reg.toNat ≤ 4 ∧ portCompOf s (.lane q) = 0) ∧
    (∃ s : State, ∃ i : BitVec 3, ∃ q : PortNo, ∃ win : BitVec 8, ∃ reg : BitVec 3, Operator s i ∧ isEndpointPort s q = true ∧ blockKnown s
      (blkOfAddr (windowAddr (.lane q) win reg)) = true ∧ reg.toNat ≤ 4 ∧ portCompOf s (.lane q) ≠ 0) :=
  ⟨⟨up, 8, { rq with chk := true }, by decide +kernel⟩,
   ⟨up, 8, { req Op.accContrib 1 0 (zeros 16) with chk := true, dst := 0x11, src := 0x20 }, .lane 0, by decide +kernel⟩,
   ⟨{ up with lnk := [(8, trunk8), (9, trunk8)], swc.eps := img.eps ++ [(⟨0x30, 3, .own⟩ : EpEntry)], swc.links := [⟨1, 8, 2, 8⟩, ⟨1, 9, 3, 8⟩], swc.routes := [⟨1, 3, 9, 9, [(9, 9)]⟩] },
     8, { rq with chk := true, dst := 0x30 }, 3, ⟨1, 9, 1⟩, by decide +kernel⟩,
   ⟨up, 8, rq, by decide +kernel⟩,
   ⟨up, 0, by decide +kernel⟩,
   ⟨{ up with lnk := [(8, { trunk8 with auth := false })] }, 8, by decide +kernel⟩,
   ⟨up, 1, 0, 255, 4, by decide +kernel⟩,
   ⟨{ up with lse.portComp := [(0, 7)] }, 1, 0, 255, 4, by decide +kernel⟩⟩

theorem witness_EgressOrder :
    (∃ s : State, ∃ f : Req, ∃ oid : Oid, ∃ o : Obj, isUp s = true ∧ f.opcode = Op.rdLine ∧ f.raw = false ∧ Plain s f ∧ Clean s f oid o ∧ (localAt s
      f.src).isSome = true) ∧
    (∃ s : State, ∃ f : Req, ∃ oid : Oid, ∃ o : Obj, isUp s = true ∧ f.opcode = Op.rdLine ∧ f.raw = false ∧ Plain s f ∧ localAt s f.dst = some .own ∧
      objAt s f.addr.toNat = some (oid, o) ∧ s.err.arm = false ∧ s.err.sticky = [] ∧ isPoisoned s (lineNo s f.addr) = true ∧ (localAt s f.src).isSome
      = true) ∧
    (∃ s : State, ∃ f : Req, isUp s = true ∧ f.opcode = Op.rdLine ∧ f.raw = true ∧ ordOf s (pairOf f) = none ∧ (localAt s f.src).isSome = true) ∧
    (∃ s : State, ∃ f : Req, ∃ r : Ord, isUp s = true ∧ f.opcode = Op.rdLine ∧ f.raw = true ∧ ordOf s (pairOf f) = some r ∧ behind r.e f.seq = false)
      ∧
    (∃ s : State, ∃ f : Req, ∃ oid : Oid, ∃ o : Obj, isUp s = true ∧ (opLineWrite f.opcode = true ∨ opAtomic f.opcode = true) ∧ Plain s f ∧ Clean s f
      oid o ∧ Memory.wf s.mem = true ∧ (localAt s f.src).isSome = true ∧ logFind s (pairOf f) f.seq = none ∧ s.egr.log.length < logCapacity ∧ ((ordOf
      s (pairOf f) = none ∧ s.egr.ord.length < ordCapacity) ∨ ∃ r, ordOf s (pairOf f) = some r ∧ f.newp = false ∧ r.e = f.seq ∧ r.joiner = none ∧
      pairWaits s (pairOf f) = false ∧ r.refusing = false ∧ r.held = [] ∧ r.raws = [])) ∧
    (∃ s : State, ∃ f : Req, ∃ oid : Oid, ∃ o : Obj, isUp s = true ∧ (opLineWrite f.opcode = true ∨ opAtomic f.opcode = true) ∧ Plain s f ∧ Clean s f
      oid o ∧ Memory.wf s.mem = true ∧ (localAt s f.src).isSome = true ∧ logFind s (pairOf f) f.seq = none ∧ s.egr.log.length < logCapacity ∧ ((ordOf
      s (pairOf f) = none ∧ s.egr.ord.length < ordCapacity) ∨ ∃ r, ordOf s (pairOf f) = some r ∧ f.newp = false ∧ r.e = f.seq ∧ r.joiner = none ∧
      pairWaits s (pairOf f) = false ∧ r.refusing = false ∧ r.held = [] ∧ r.raws = [])) ∧
    (∃ s : State, ∃ f : Req, ∃ r : Ord, isUp s = true ∧ opSequenced f.opcode = true ∧ ordOf s (pairOf f) = some r ∧ f.newp = false ∧ behind r.e f.seq
      = false ∧ r.refusing = false ∧ 1 ≤ (f.seq - r.e).toNat ∧ (f.seq - r.e).toNat ≤ 4095 ∧ (∀ h ∈ r.held, h.f.seq ≠ f.seq)) ∧
    (∃ s : State, ∃ f : Req, ∃ r : Ord, isUp s = true ∧ opSequenced f.opcode = true ∧ ordOf s (pairOf f) = some r ∧ f.newp = false ∧ behind r.e f.seq
      = false ∧ r.refusing = false ∧ 1 ≤ (f.seq - r.e).toNat ∧ (f.seq - r.e).toNat ≤ 4095 ∧ (∀ h ∈ r.held, h.f.seq ≠ f.seq)) ∧
    (∃ s : State, ∃ f : Req, ∃ r : Ord, ∃ e : LogEnt, ∃ c : Cpl, isUp s = true ∧ opSequenced f.opcode = true ∧ ordOf s (pairOf f) = some r ∧ f.newp =
      false ∧ behind r.e f.seq = true ∧ logFind s (pairOf f) f.seq = some e ∧ e.state = .done c ∧ (localAt s c.dst).isSome = true) ∧
    (∃ s : State, ∃ f : Req, ∃ r : Ord, isUp s = true ∧ opSequenced f.opcode = true ∧ ordOf s (pairOf f) = some r ∧ f.newp = false ∧ behind r.e f.seq
      = false ∧ r.refusing = false ∧ 4095 < (f.seq - r.e).toNat) ∧
    (∃ s : State, ∃ src : Ep, ∃ dst : Ep, ∃ cls : Cls, ∃ q : Seq, ∃ e : LogEnt, isUp s = true ∧ logFind s (src, dst, cls) q = some e ∧ (∀ l, e.state
      ≠ .pending l) ∧ e.at_ + 4000 ≤ s.counter) :=
  ⟨⟨lined, { rq with ncmb := true }, oid1, obj1, by decide +kernel⟩,
   ⟨{ lined with mem.poison := [512] }, { rq with ncmb := true }, oid1, obj1, by decide +kernel⟩,
   ⟨lined, { rq with raw := true, seq := 7 }, by decide +kernel⟩,
   ⟨ordered, { rq with raw := true, seq := 7 }, ord0, by decide +kernel⟩,
   ⟨lined, wr, oid1, obj1, by and_intros <;> first | exact Or.inl (by decide +kernel) | decide +kernel⟩,
   ⟨ordered, { req Op.atomAdd 0 0x10004 (zeros 16) with ncmb := true, seq := 7 }, oid1, obj1,
     by and_intros <;> first | exact Or.inr ⟨ord0, by decide +kernel⟩ | decide +kernel⟩,
   ⟨ordered, { wr with seq := 8 }, ord0, by decide +kernel⟩,
   ⟨ordered, { wr with seq := 4102 }, ord0, by decide +kernel⟩,
   ⟨{ ordered with egr.log := [log0 6 (.done cplOk)] }, { wr with seq := 6 }, ord0, log0 6 (.done cplOk), cplOk, by decide +kernel⟩,
   ⟨ordered, { wr with seq := 4103 }, ord0, by decide +kernel⟩,
   ⟨{ ordered with egr.log := [log0 6 .unknown] }, 0x11, 0x10, 0, 6, log0 6 .unknown,
     by and_intros <;> first | exact (fun l h => by cases h) | decide +kernel⟩⟩

theorem witness_CombinedRequests :
    (∃ s : State, ∃ f : Req, ∃ oid : Oid, ∃ o : Obj, isUp s = true ∧ f.opcode = Op.rdLine ∧ f.raw = false ∧ combinable s f = true ∧ agentOf s f =
      none ∧ preCheck s ⟨f, genTag s f.tenant⟩ = none ∧ Clean s f oid o ∧ s.cmb.ents = []) ∧
    (∃ s : State, ∃ f : Req, ∃ x : CEntry, isUp s = true ∧ f.opcode = Op.rdLine ∧ f.raw = false ∧ combinable s f = true ∧ localAt s f.dst = some .own
      ∧ preCheck s ⟨f, genTag s f.tenant⟩ = none ∧ s.cmb.ents = [x] ∧ x.slice = sliceOf s f ∧ x.key = keyOf s f ∧ x.isOpen = true) ∧
    (∃ s : State, ∃ k : Nat, ∃ x : CEntry, isUp s = true ∧ entOf s k = some x ∧ x.at_ + max 1 s.cmb.joinUs.toNat ≤ s.counter) ∧
    (∃ s : State, ∃ x : CEntry, ∃ d : List Byte, isUp s = true ∧ s.cmb.ents = [x] ∧ x.followup = false ∧ x.filling = false ∧ s.coh.txns = [] ∧ x.res
      = some (.ok, d) ∧ x.key.opcode = Op.rdLine ∧ x.key.coherent = false ∧ x.members ≠ [] ∧ (∀ e ∈ s.egr.dest, e.entry = none) ∧ (∀ e ∈ x.members,
      e.f.opcode = Op.rdLine ∧ (localAt s e.f.src).isSome = true)) ∧
    (∃ s : State, ∃ x : CEntry, ∃ d : List Byte, isUp s = true ∧ s.cmb.ents = [x] ∧ x.followup = true ∧ s.coh.txns = [] ∧ x.res = some (.ok, d) ∧ (∀
      e ∈ x.members, opAtomic e.f.opcode = true ∧ (localAt s e.f.src).isSome = true ∧ (∀ r, ordOf s (pairOf e.f) = some r → r.held = [] ∧ r.raws =
      []) ∧ ∃ l, logFind s (pairOf e.f) e.f.seq = some l ∧ l.state = .pending [])) ∧
    (∃ s : State, ∃ x : CEntry, isUp s = true ∧ s.cmb.ents = [x] ∧ x.res = none ∧ x.sentAt + 400 ≤ s.counter ∧ s.coh.txns = [] ∧ (∀ e ∈ x.members,
      e.f.opcode = Op.rdLine ∧ (localAt s e.f.src).isSome = true)) ∧
    (∃ s : State, ∃ d : DestReq, ∃ c : Cpl, isUp s = true ∧ s.egr.dest = [d] ∧ d.entry = none ∧ d.f.opcode = Op.rdLine ∧ c.dst = d.f.src ∧ c.tag =
      d.f.tag ∧ c.src = d.f.dst ∧ (localAt s d.f.src).isSome = true) :=
  ⟨⟨lined, rq, oid1, obj1, by decide +kernel⟩,
   ⟨{ lined with cmb.ents := [ent1 rq] }, rq, ent1 rq, by decide +kernel⟩,
   ⟨{ lined with cmb.ents := [ent1 rq] }, 0, ent1 rq, by decide +kernel⟩,
   ⟨{ lined with cmb.ents := [{ ent1 rq with res := some (.ok, zeros 128) }] }, { ent1 rq with res := some (.ok, zeros 128) }, zeros 128, by
     decide +kernel⟩,
   ⟨{ ordered with cmb.ents := [{ ent1 { req Op.atomAdd 0 0x10004 (zeros 16) with seq := 7 } with res := some (.ok, zeros 4), followup := true }], egr.log := [log0 7 (.pending [])] },
     { ent1 { req Op.atomAdd 0 0x10004 (zeros 16) with seq := 7 } with res := some (.ok, zeros 4), followup := true }, zeros 4,
     by and_intros <;> first | exact (fun e h => by rcases List.mem_singleton.mp h with rfl; exact ⟨by decide +kernel, by decide +kernel, fun r k => by (have e : some r = some ord0 := k.symm.trans (by decide +kernel)); cases e; decide, log0 7 (.pending []), by decide +kernel, rfl⟩) | decide +kernel⟩,
   ⟨{ lined with cmb.ents := [ent1 rq] }, ent1 rq, by decide +kernel⟩,
   ⟨{ up with egr.dest := [⟨rq, .lane 4, none⟩] }, ⟨rq, .lane 4, none⟩, cplOk, by decide +kernel⟩⟩

theorem witness_CoherentLines :
    (∃ s : State, ∃ f : Req, ∃ p : PortNo, ∃ oid : Oid, ∃ o : Obj, ∃ x, x ∈ [(Instr.readShared f, (0 : BitVec 4), CohState.shared), (.readOwn f, 1,
      .owned)] ∧ isUp s = true ∧ f.opcode = Op.rdLine ∧ f.subop = x.2.1 ∧ f.raw = false ∧ f.dur = false ∧ combinable s f = false ∧ agentOf s f = some
      p ∧ preCheck s ⟨f, genTag s f.tenant⟩ = none ∧ Clean s f oid o ∧ (partOf s p).attached = true ∧ (partOf s p).detaching = false ∧ s.coh.txns =
      [] ∧ holds (partOf s p) (lineNo s f.addr) = none ∧ otherHolders s p (lineNo s f.addr) = [] ∧ setFull s p (lineNo s f.addr) = false ∧ (localAt s
      f.src).isSome = true) ∧
    (∃ s : State, ∃ f : Req, ∃ p : PortNo, ∃ oid : Oid, ∃ o : Obj, ∃ x, x ∈ [(Instr.readShared f, (0 : BitVec 4), CohState.shared), (.readOwn f, 1,
      .owned)] ∧ isUp s = true ∧ f.opcode = Op.rdLine ∧ f.subop = x.2.1 ∧ f.raw = false ∧ f.dur = false ∧ combinable s f = false ∧ agentOf s f = some
      p ∧ preCheck s ⟨f, genTag s f.tenant⟩ = none ∧ Clean s f oid o ∧ (partOf s p).attached = true ∧ (partOf s p).detaching = false ∧ s.coh.txns =
      [] ∧ holds (partOf s p) (lineNo s f.addr) = none ∧ otherHolders s p (lineNo s f.addr) = [] ∧ setFull s p (lineNo s f.addr) = false ∧ (localAt s
      f.src).isSome = true) ∧
    (∃ s : State, ∃ f : Req, ∃ p : PortNo, ∃ oid : Oid, ∃ o : Obj, isUp s = true ∧ f.opcode = Op.rdLine ∧ f.subop = 2 ∧ f.raw = false ∧ f.dur = false
      ∧ agentOf s f = some p ∧ preCheck s ⟨f, genTag s f.tenant⟩ = none ∧ Clean s f oid o ∧ Memory.wf s.mem = true ∧ (partOf s p).attached = true ∧
      (partOf s p).detaching = false ∧ s.coh.txns = [] ∧ holds (partOf s p) (lineNo s f.addr) = none ∧ otherHolders s p (lineNo s f.addr) = [] ∧
      setFull s p (lineNo s f.addr) = false ∧ (localAt s f.src).isSome = true) ∧
    (∃ s : State, ∃ f : Req, ∃ p : PortNo, ∃ q : PortNo, ∃ oid : Oid, ∃ o : Obj, isUp s = true ∧ f.opcode = Op.rdLine ∧ f.subop = 1 ∧ f.raw = false ∧
      agentOf s f = some p ∧ preCheck s ⟨f, genTag s f.tenant⟩ = none ∧ Clean s f oid o ∧ s.coh.txns = [] ∧ s.coh.snoops = [] ∧ otherHolders s p
      (lineNo s f.addr) = [q] ∧ setFull s p (lineNo s f.addr) = false) ∧
    (∃ s : State, ∃ n : Snoop, ∃ x : Txn, ∃ oid : Oid, ∃ o : Obj, ∃ data : Option (List Byte), isUp s = true ∧ s.coh.snoops = [n] ∧ s.coh.txns = [x]
      ∧ n.sent = true ∧ n.inval = true ∧ n.txn = x.id ∧ n.line = x.line ∧ n.port ≠ x.port ∧ x.begun = true ∧ x.back = none ∧ x.wait = [n.tag] ∧
      x.kind = .readOwn ∧ x.lost = false ∧ x.entry = none ∧ x.f.f.opcode = Op.rdLine ∧ x.f.f.dur = false ∧ x.line = lineNo s x.f.f.addr ∧ Clean s
      x.f.f oid o ∧ objAt s (t1Base s + n.line * 128) = some (oid, o) ∧ t1Check s x.f.f.addr.toNat x.f.f.tenant x.f.f.src x.f.gen false = none ∧
      (partOf s x.port).attached = true ∧ (partOf s x.port).detaching = false ∧ s.egr.ord = [] ∧ (∀ d, data = some d → d.length = 128) ∧ Memory.wf
      s.mem = true ∧ (localAt s x.f.f.src).isSome = true) ∧
    (∃ s : State, ∃ n : Snoop, isUp s = true ∧ n ∈ s.coh.snoops ∧ n.sent = true ∧ n.at_ + 200 ≤ s.counter ∧ s.coh.txns = [] ∧ (partOf s
      n.port).attached = true ∧ s.err.log = []) ∧
    (∃ s : State, ∃ i : BitVec 3, ∃ p : PortNo, ∃ ways : BitVec 4, ∃ sets : BitVec 4, Operator s i ∧ isEndpointPort s p = true ∧ (partOf s
      p).attached = false ∧ (partOf s p).detaching = false ∧ ways.toNat + sets.toNat ≤ 15 ∧ ways.toNat ≤ 4) ∧
    (∃ s : State, ∃ i : BitVec 3, ∃ p : PortNo, Operator s i ∧ (partOf s p).attached = true ∧ (partOf s p).detaching = false ∧ (partOf s p).lines =
      []) ∧
    (∃ s : State, ∃ p : PortNo, isUp s = true ∧ (partOf s p).detaching = true ∧ (∀ x ∈ s.coh.txns, ¬ (x.ran = false ∧ x.port = p))) :=
  ⟨⟨coherent [(0, part0)], { rq with ncmb := true }, 0, oid1, obj1, (Instr.readShared { rq with ncmb := true }, 0, CohState.shared), by
    decide +kernel⟩,
   ⟨coherent [(0, part0)], { rq with subop := 1 }, 0, oid1, obj1, (Instr.readOwn { rq with subop := 1 }, 1, CohState.owned), by decide +kernel⟩,
   ⟨coherent [(0, part0)], { rq with subop := 2 }, 0, oid1, obj1, by decide +kernel⟩,
   ⟨coherent [(0, part0), (4, { part0 with lines := [⟨512, .shared, 0⟩] })], { rq with subop := 1 }, 0, 4, oid1, obj1, by decide +kernel⟩,
   ⟨{ coherent [(0, part0), (4, part0)] with coh.snoops := [⟨4, 1, 512, true, 0, true, 0⟩], coh.txns := [⟨0, 512, .readOwn, 0, ⟨{ rq with subop := 1 }, 0⟩, true, none, [1], false, none, false⟩] },
     ⟨4, 1, 512, true, 0, true, 0⟩, ⟨0, 512, .readOwn, 0, ⟨{ rq with subop := 1 }, 0⟩, true, none, [1], false, none, false⟩, oid1, obj1, some (zeros
     128), by and_intros <;> first | exact (fun d h => by cases h; decide +kernel) | decide +kernel⟩,
   ⟨{ coherent [(4, part0)] with coh.snoops := [⟨4, 1, 512, true, 0, true, 999999800⟩] }, ⟨4, 1, 512, true, 0, true, 999999800⟩, by decide +kernel⟩,
   ⟨up, 1, 0, 4, 11, by decide +kernel⟩,
   ⟨coherent [(0, part0)], 1, 0, by decide +kernel⟩,
   ⟨coherent [(0, { part0 with detaching := true })], 0, by decide +kernel⟩⟩

theorem witness_LinkFlits :
    (∃ s : State, ∃ p : PortNo, ∃ r : PortRec, ∃ fl : Flit, ∃ ok : Bool, ∃ fixed : List Nat, ∃ i, i ∈ [Instr.flitIdle p fl ⟨ok, fixed⟩, .flitData p
      fl ⟨ok, fixed⟩, .flitCtrlReserved p fl] ∧ isUp s = true ∧ tget s.lnk p = some r ∧ 0 < r.st ∧ r.rx = none ∧ r.tx = none ∧ flitSound fl = false ∧
      r.gap = false ∧ r.hold = false ∧ (∀ x ∈ r.rb, x.replays < 8)) ∧
    (∃ s : State, ∃ p : PortNo, ∃ r : PortRec, ∃ fl : Flit, ∃ ok : Bool, ∃ fixed : List Nat, ∃ i, i ∈ [Instr.flitIdle p fl ⟨ok, fixed⟩, .flitData p
      fl ⟨ok, fixed⟩, .flitCtrlReserved p fl] ∧ isUp s = true ∧ tget s.lnk p = some r ∧ 0 < r.st ∧ r.rx = none ∧ r.tx = none ∧ flitSound fl = false ∧
      r.gap = false ∧ r.hold = false ∧ (∀ x ∈ r.rb, x.replays < 8)) ∧
    (∃ s : State, ∃ p : PortNo, ∃ r : PortRec, ∃ fl : Flit, ∃ ok : Bool, ∃ fixed : List Nat, ∃ i, i ∈ [Instr.flitIdle p fl ⟨ok, fixed⟩, .flitData p
      fl ⟨ok, fixed⟩, .flitCtrlReserved p fl] ∧ isUp s = true ∧ tget s.lnk p = some r ∧ 0 < r.st ∧ r.rx = none ∧ flitSound fl = false ∧ r.gap = true
      ∧ (∀ x ∈ r.rb, x.replays < 8)) ∧
    (∃ s : State, ∃ p : PortNo, ∃ r : PortRec, ∃ fl : Flit, ∃ ok : Bool, ∃ fixed : List Nat, ∃ i, i ∈ [Instr.flitIdle p fl ⟨ok, fixed⟩, .flitData p
      fl ⟨ok, fixed⟩, .flitCtrlReserved p fl] ∧ isUp s = true ∧ tget s.lnk p = some r ∧ 0 < r.st ∧ r.rx = none ∧ flitSound fl = false ∧ r.gap = true
      ∧ (∀ x ∈ r.rb, x.replays < 8)) ∧
    (∃ s : State, ∃ p : PortNo, ∃ r : PortRec, ∃ fl : Flit, isUp s = true ∧ Ready s p r ∧ 0 < r.st ∧ r.rx = none ∧ flitSound fl = true ∧ fl.ftype =
      ftIdle ∧ fl.ackv = false ∧ fl.nak = false) ∧
    (∃ s : State, ∃ p : PortNo, ∃ r : PortRec, ∃ fl : Flit, isUp s = true ∧ Ready s p r ∧ 0 < r.st ∧ r.rx = none ∧ flitSound fl = true ∧ fl.ftype =
      ftData ∧ fl.ackv = false ∧ fl.nak = false ∧ r.rxF.isSome = true ∧ fl.fseq ≠ nextRx r ∧ fseqBehind fl.fseq (nextRx r) ≤ 2048) ∧
    (∃ s : State, ∃ p : PortNo, ∃ r : PortRec, ∃ fl : Flit, isUp s = true ∧ Ready s p r ∧ 0 < r.st ∧ r.rx = none ∧ flitSound fl = true ∧ fl.ftype =
      ftData ∧ fl.ackv = false ∧ fl.nak = false ∧ r.rxF.isSome = true ∧ fl.fseq ≠ nextRx r ∧ fseqBehind fl.fseq (nextRx r) ≤ 2048) ∧
    (∃ s : State, ∃ p : PortNo, ∃ r : PortRec, ∃ fl : Flit, ∃ f : Req, isUp s = true ∧ Ready s p r ∧ 0 < r.st ∧ r.rx = none ∧ r.part = [] ∧ r.cut =
      none ∧ r.nak = false ∧ flitSound fl = true ∧ fl.ftype = ftData ∧ fl.fseq = nextRx r ∧ fl.ackv = false ∧ fl.nak = false ∧ f.wf = true ∧
      opRequest f.opcode = true ∧ frameBytes (.req f) ≤ 240 ∧ fl.payload = padTo 240 (frameWire (.req f)) ∧ (r.role = 2 ∨ s.swc.ctEn = false ∨
      outPort s (.lane p) (.req f) = some .own)) ∧
    (∃ s : State, ∃ p : PortNo, ∃ r : PortRec, ∃ fl : Flit, isUp s = true ∧ Ready s p r ∧ 0 < r.st ∧ r.nak = false ∧ flitSound fl = true ∧ fl.ftype =
      ftCtrl ∧ fl.fseq = nextRx r ∧ fl.ackv = false ∧ fl.nak = false) ∧
    (∃ s : State, ∃ p : PortNo, ∃ r : PortRec, isUp s = true ∧ tget s.lnk p = some r ∧ 0 < r.st ∧ 0 < unacked r ∧ r.ackAt + 1 ≤ s.counter ∧ (∀ x ∈
      r.rb, x.replays < 7) ∧ s.err.arm = false ∧ r.reord = none) ∧
    (∃ s : State, ∃ p : PortNo, ∃ r : PortRec, ∃ f : Req, ∃ at_ : Nat, isUp s = true ∧ tget s.lnk p = some r ∧ r.ended = none ∧ r.fresh = [(.req f,
      at_)]) :=
  ⟨⟨ported 0 lane0, 0, lane0, badFlit, true, [], Instr.flitIdle 0 badFlit ⟨true, []⟩, List.mem_cons_self, by decide +kernel, by decide +kernel, by
    decide +kernel, by decide +kernel, by decide +kernel, badFlit_unsound, by decide +kernel, by decide +kernel, by decide +kernel⟩,
   ⟨ported 0 lane0, 0, lane0, badFlit, true, [], .flitCtrlReserved 0 badFlit, List.mem_cons_of_mem _ (List.mem_cons_of_mem _ List.mem_cons_self), by
     decide +kernel, by decide +kernel, by decide +kernel, by decide +kernel, by decide +kernel, badFlit_unsound, by decide +kernel, by
     decide +kernel, by decide +kernel⟩,
   ⟨ported 0 { lane0 with gap := true, rb := [txFlit 7] }, 0, { lane0 with gap := true, rb := [txFlit 7] }, badFlit, true, [], Instr.flitIdle 0
     badFlit ⟨true, []⟩, List.mem_cons_self, by decide +kernel, by decide +kernel, by decide +kernel, by decide +kernel, badFlit_unsound, by
     decide +kernel, by decide +kernel⟩,
   ⟨ported 0 { lane0 with gap := true, rb := [txFlit 7] }, 0, { lane0 with gap := true, rb := [txFlit 7] }, badFlit, true, [], .flitData 0 badFlit
     ⟨true, []⟩, List.mem_cons_of_mem _ List.mem_cons_self, by decide +kernel, by decide +kernel, by decide +kernel, by decide +kernel,
     badFlit_unsound, by decide +kernel, by decide +kernel⟩,
   ⟨ported 0 lane0, 0, lane0, flit ftIdle 0 [], by decide +kernel, by decide +kernel, by decide +kernel, by decide +kernel, flit_sound _ _ _ (by
     decide), by decide +kernel, by decide +kernel, by decide +kernel⟩,
   ⟨ported 0 lane0, 0, lane0, flit ftData 0 [], by decide +kernel, by decide +kernel, by decide +kernel, by decide +kernel, flit_sound _ _ _ (by
     decide), by decide +kernel, by decide +kernel, by decide +kernel, by decide +kernel, by decide +kernel, by decide +kernel⟩,
   ⟨ported 0 lane0, 0, lane0, flit ftData 0x801 [], by decide +kernel, by decide +kernel, by decide +kernel, by decide +kernel, flit_sound _ _ _ (by
     decide), by decide +kernel, by decide +kernel, by decide +kernel, by decide +kernel, by decide +kernel, by decide +kernel⟩,
   ⟨ported 0 lane0, 0, lane0, flit ftData 1 (padTo 240 (frameWire (.req wr))), wr, by decide +kernel, by decide +kernel, by decide +kernel, by
     decide +kernel, by decide +kernel, by decide +kernel, by decide +kernel, flit_sound _ _ _ (by decide), by decide +kernel, by decide +kernel, by
     decide +kernel, by decide +kernel, by decide +kernel, by decide +kernel, by decide +kernel, rfl, by decide +kernel⟩,
   ⟨ported 0 lane0, 0, lane0, flit ftCtrl 1 [], by decide +kernel, by decide +kernel, by decide +kernel, by decide +kernel, flit_sound _ _ _ (by
     decide), by decide +kernel, by decide +kernel, by decide +kernel, by decide +kernel⟩,
   ⟨ported 0 { lane0 with rb := [txFlit 6], ackAt := 999999999 }, 0, { lane0 with rb := [txFlit 6], ackAt := 999999999 }, by decide +kernel⟩,
   ⟨ported 0 { lane0 with fresh := [(.req rq, 0)] }, 0, { lane0 with fresh := [(.req rq, 0)] }, rq, 0, by decide +kernel⟩⟩

theorem witness_LinkTraining :
    (∃ s : State, ∃ i : BitVec 3, ∃ p : PortNo, ∃ r : PortRec, Operator s i ∧ tget s.lnk p = some r ∧ r.role ≠ 0 ∧ r.st = 0) ∧
    (∃ s : State, ∃ p : PortNo, ∃ r : PortRec, isUp s = true ∧ tget s.lnk p = some r ∧ r.st = 0 ∧ r.enable = true ∧ r.lastFault ≠ 8 ∧ r.lastFault ≠ 0
      ∧ r.waitUntil ≤ s.counter) ∧
    (∃ s : State, ∃ p : PortNo, ∃ r : PortRec, isUp s = true ∧ Ready s p r ∧ r.st = 1 ∧ r.step = 1 ∧ r.enable = true ∧ trainWidth r ≠ 0) ∧
    (∃ s : State, isUp s = true) ∧
    (∃ s : State, ∃ p : PortNo, ∃ r : PortRec, ∃ m : LinkParam, isUp s = true ∧ Ready s p r ∧ r.st = 1 ∧ r.step = 5 ∧ r.role = 1 ∧ m.role = 3 ∧
      m.cipher = r.cipher) ∧
    (∃ s : State, ∃ p : PortNo, ∃ r : PortRec, ∃ m : LinkParam, isUp s = true ∧ Ready s p r ∧ r.st = 1 ∧ r.step = 5 ∧ r.role = 2 ∧ m.role = 2 ∧
      m.cipher = r.cipher) ∧
    (∃ s : State, ∃ p : PortNo, ∃ r : PortRec, ∃ m : LinkParam, isUp s = true ∧ Ready s p r ∧ r.st = 1 ∧ r.step = 5 ∧ s.err.log = [] ∧ (m.role ≠
      partnerRole r ∨ m.cipher ≠ r.cipher)) ∧
    (∃ s : State, ∃ p : PortNo, ∃ r : PortRec, isUp s = true ∧ tget s.lnk p = some r ∧ (r.st = 1 ∨ r.st = 2) ∧ 1 < r.step ∧ s.err.log = []) ∧
    (∃ s : State, ∃ p : PortNo, ∃ r : PortRec, isUp s = true ∧ tget s.lnk p = some r ∧ (r.st = 1 ∨ r.st = 2) ∧ 1 < r.step ∧ s.err.log = []) ∧
    (∃ s : State, ∃ p : PortNo, ∃ r : PortRec, isUp s = true ∧ Ready s p r ∧ r.st = 2 ∧ r.hello = none) ∧
    (∃ s : State, ∃ p : PortNo, ∃ r : PortRec, ∃ m : AuthProof, isUp s = true ∧ Ready s p r ∧ r.st = 2 ∧ r.accepted = false ∧ r.proof = [] ∧
      m.countLess1 = 0 ∧ peerOk s p m = true) ∧
    (∃ s : State, ∃ p : PortNo, ∃ r : PortRec, ∃ m : AuthProof, isUp s = true ∧ Ready s p r ∧ r.st = 2 ∧ r.accepted = false ∧ r.proof = [] ∧
      m.countLess1 = 0 ∧ peerOk s p m = false ∧ s.err.log = []) ∧
    (∃ s : State, ∃ p : PortNo, ∃ r : PortRec, isUp s = true ∧ Ready s p r ∧ r.st = 2 ∧ r.accepted = true ∧ r.point = none) ∧
    (∃ s : State, ∃ p : PortNo, ∃ r : PortRec, isUp s = true ∧ Ready s p r ∧ r.st = 2 ∧ r.accepted = true ∧ r.point.isSome = true) ∧
    (∃ s : State, ∃ p : PortNo, ∃ r : PortRec, isUp s = true ∧ Ready s p r ∧ r.st = 2 ∧ r.accepted = true ∧ r.point.isSome = true ∧ s.err.log = []) ∧
    (∃ s : State, ∃ p : PortNo, ∃ r : PortRec, isUp s = true ∧ Ready s p r ∧ (r.st = 1 ∨ r.st = 2) ∧ r.step = 7) ∧
    (∃ s : State, ∃ p : PortNo, ∃ r : PortRec, isUp s = true ∧ Ready s p r ∧ (r.st = 1 ∨ r.st = 2) ∧ r.step = 7) ∧
    (∃ s : State, ∃ p : PortNo, ∃ r : PortRec, ∃ m : JoinMsg, isUp s = true ∧ Ready s p r ∧ r.role = 2 ∧ portCarries r = true ∧ (∀ i, tget
      s.boot.incs m.dev = some i → i = m.incarnation) ∧ m.digest = (ownJoin s).digest ∧ m.registrar = (ownJoin s).registrar ∧ m.host = (ownJoin
      s).host) ∧
    (∃ s : State, ∃ p : PortNo, ∃ r : PortRec, ∃ m : JoinMsg, ∃ k : BitVec 64, isUp s = true ∧ Ready s p r ∧ r.role = 2 ∧ portCarries r = true ∧ tget
      s.boot.incs m.dev = some k ∧ k ≠ m.incarnation ∧ m.digest ≠ (ownJoin s).digest ∧ s.err.log = []) ∧
    (∃ s : State, ∃ p : PortNo, ∃ r : PortRec, isUp s = true ∧ Ready s p r ∧ r.role = 2 ∧ portCarries r = true ∧ r.gotJoin = false ∧ r.joinAt + 100 ≤
      s.counter) ∧
    (∃ s : State, ∃ p : PortNo, ∃ r : PortRec, ∃ c : Cipher, isUp s = true ∧ tget s.lnk p = some r ∧ r.rb = [] ∧ 0 < r.width.toNat ∧ r.hold = false ∧
      r.tx = some c ∧ r.enc = true ∧ c.pend = false ∧ c.since + 1000000 ≤ s.counter) ∧
    (∃ s : State, ∃ p : PortNo, ∃ r : PortRec, ∃ c : Cipher, isUp s = true ∧ tget s.lnk p = some r ∧ r.fresh = [] ∧ r.ended = none ∧ r.rx = some c) :=
  ⟨⟨ported 0 (train 0 0), 1, 0, (train 0 0), by decide +kernel⟩,
   ⟨ported 0 { train 0 0 with lastFault := 5, waitUntil := 1000000000 }, 0, { train 0 0 with lastFault := 5, waitUntil := 1000000000 }, by
     decide +kernel⟩,
   ⟨ported 0 { train 1 1 with lanesOk := 0x0F }, 0, { train 1 1 with lanesOk := 0x0F }, by decide +kernel⟩,
   ⟨up, by decide +kernel⟩,
   ⟨ported 0 (train 1 5), 0, (train 1 5), ⟨3, 4, 0, 2, 0x21, 0xFF, []⟩, by decide +kernel⟩,
   ⟨ported 8 { trunk8 with st := 1, step := 5 }, 8, { trunk8 with st := 1, step := 5 }, ⟨2, 4, 0, 2, 0x21, 0xFF, []⟩, by decide +kernel⟩,
   ⟨ported 0 (train 1 5), 0, (train 1 5), ⟨2, 4, 0, 2, 0x21, 0xFF, []⟩, by decide +kernel⟩,
   ⟨ported 0 (train 1 2), 0, (train 1 2), by decide +kernel⟩,
   ⟨ported 0 (train 2 6), 0, (train 2 6), by decide +kernel⟩,
   ⟨ported 8 { trunk8 with st := 2, step := 6 }, 8, { trunk8 with st := 2, step := 6 }, by decide +kernel⟩,
   ⟨ported 8 { trunk8 with st := 2, step := 6, hello := some ⟨2, 8, 7, []⟩ }, 8, { trunk8 with st := 2, step := 6, hello := some ⟨2, 8, 7, []⟩ }, ⟨0,
     0, 0, [], true, true⟩, by decide +kernel⟩,
   ⟨ported 8 { trunk8 with st := 2, step := 6, hello := some ⟨2, 8, 7, []⟩ }, 8, { trunk8 with st := 2, step := 6, hello := some ⟨2, 8, 7, []⟩ }, ⟨0,
     0, 0, [], false, true⟩, by decide +kernel⟩,
   ⟨ported 8 { trunk8 with st := 2, step := 7, accepted := true }, 8, { trunk8 with st := 2, step := 7, accepted := true }, by decide +kernel⟩,
   ⟨ported 8 { trunk8 with st := 2, step := 7, accepted := true, point := some [] }, 8,
     { trunk8 with st := 2, step := 7, accepted := true, point := some [] }, by decide +kernel⟩,
   ⟨ported 8 { trunk8 with st := 2, step := 7, accepted := true, point := some [] }, 8,
     { trunk8 with st := 2, step := 7, accepted := true, point := some [] }, by decide +kernel⟩,
   ⟨ported 0 (train 1 7), 0, (train 1 7), by decide +kernel⟩,
   ⟨ported 8 { trunk8 with st := 2, step := 7, accepted := true, point := some [] }, 8,
     { trunk8 with st := 2, step := 7, accepted := true, point := some [] }, by decide +kernel⟩,
   ⟨ported 8 trunk8, 8, trunk8, ⟨2, 1, 1, 9, []⟩, by and_intros <;> first | exact (fun i h => by cases h) | decide +kernel⟩,
   ⟨{ ported 8 trunk8 with boot.incs := [(2, 5)] }, 8, trunk8, ⟨2, 1, 1, 6, [1]⟩, 5, by decide +kernel⟩,
   ⟨ported 8 { trunk8 with gotJoin := false, joinAt := 999999900 }, 8, { trunk8 with gotJoin := false, joinAt := 999999900 }, by decide +kernel⟩,
   ⟨ported 0 { lane0 with tx := some { cipher0 with since := 999000000 }, enc := true }, 0,
     { lane0 with tx := some { cipher0 with since := 999000000 }, enc := true }, { cipher0 with since := 999000000 }, by decide +kernel⟩,
   ⟨ported 0 { lane0 with rx := some cipher0 }, 0, { lane0 with rx := some cipher0 }, cipher0, by decide +kernel⟩⟩

theorem witness_LinkDownAndDrain :
    (∃ s : State, ∃ p : PortNo, ∃ r : PortRec, ∃ i : Instr, ∃ code : BitVec 4, isUp s = true ∧ Bare s p r ∧ portCarries r = true ∧ ((∃ lane, i =
      .signalLoss p lane ∧ code = 1 ∧ lane.toNat < r.actWidth.toNat) ∨ (i = .ackStallTimeout p ∧ code = 3 ∧ 0 < unacked r ∧ r.ackAt + 3 ≤ s.counter)
      ∨ (i = .noGoodFlitTimeout p ∧ code = 4 ∧ r.lastGood + 1 ≤ s.counter) ∨ (i = .replayRateWindow p ∧ code = 5 ∧ 64 < r.winReplays) ∨ (∃ c, i =
      .linkDown p c ∧ code = 7))) ∧
    (∃ s : State, ∃ p : PortNo, ∃ r : PortRec, ∃ i : Instr, ∃ code : BitVec 4, isUp s = true ∧ Bare s p r ∧ portCarries r = true ∧ ((∃ lane, i =
      .signalLoss p lane ∧ code = 1 ∧ lane.toNat < r.actWidth.toNat) ∨ (i = .ackStallTimeout p ∧ code = 3 ∧ 0 < unacked r ∧ r.ackAt + 3 ≤ s.counter)
      ∨ (i = .noGoodFlitTimeout p ∧ code = 4 ∧ r.lastGood + 1 ≤ s.counter) ∨ (i = .replayRateWindow p ∧ code = 5 ∧ 64 < r.winReplays) ∨ (∃ c, i =
      .linkDown p c ∧ code = 7))) ∧
    (∃ s : State, ∃ p : PortNo, ∃ r : PortRec, ∃ i : Instr, ∃ code : BitVec 4, isUp s = true ∧ Bare s p r ∧ portCarries r = true ∧ ((∃ lane, i =
      .signalLoss p lane ∧ code = 1 ∧ lane.toNat < r.actWidth.toNat) ∨ (i = .ackStallTimeout p ∧ code = 3 ∧ 0 < unacked r ∧ r.ackAt + 3 ≤ s.counter)
      ∨ (i = .noGoodFlitTimeout p ∧ code = 4 ∧ r.lastGood + 1 ≤ s.counter) ∨ (i = .replayRateWindow p ∧ code = 5 ∧ 64 < r.winReplays) ∨ (∃ c, i =
      .linkDown p c ∧ code = 7))) ∧
    (∃ s : State, ∃ p : PortNo, ∃ r : PortRec, ∃ i : Instr, ∃ code : BitVec 4, isUp s = true ∧ Bare s p r ∧ portCarries r = true ∧ ((∃ lane, i =
      .signalLoss p lane ∧ code = 1 ∧ lane.toNat < r.actWidth.toNat) ∨ (i = .ackStallTimeout p ∧ code = 3 ∧ 0 < unacked r ∧ r.ackAt + 3 ≤ s.counter)
      ∨ (i = .noGoodFlitTimeout p ∧ code = 4 ∧ r.lastGood + 1 ≤ s.counter) ∨ (i = .replayRateWindow p ∧ code = 5 ∧ 64 < r.winReplays) ∨ (∃ c, i =
      .linkDown p c ∧ code = 7))) ∧
    (∃ s : State, ∃ p : PortNo, ∃ r : PortRec, ∃ i : Instr, ∃ code : BitVec 4, isUp s = true ∧ Bare s p r ∧ portCarries r = true ∧ ((∃ lane, i =
      .signalLoss p lane ∧ code = 1 ∧ lane.toNat < r.actWidth.toNat) ∨ (i = .ackStallTimeout p ∧ code = 3 ∧ 0 < unacked r ∧ r.ackAt + 3 ≤ s.counter)
      ∨ (i = .noGoodFlitTimeout p ∧ code = 4 ∧ r.lastGood + 1 ≤ s.counter) ∨ (i = .replayRateWindow p ∧ code = 5 ∧ 64 < r.winReplays) ∨ (∃ c, i =
      .linkDown p c ∧ code = 7))) ∧
    (∃ s : State, ∃ p : PortNo, ∃ r : PortRec, isUp s = true ∧ tget s.lnk p = some r ∧ r.winReplays ≤ 64) ∧
    (∃ s : State, ∃ i : BitVec 3, ∃ p : PortNo, ∃ r : PortRec, Operator s i ∧ Bare s p r ∧ r.role ≠ 0 ∧ portCarries r = true) ∧
    (∃ s : State, ∃ i : BitVec 3, ∃ p : PortNo, ∃ r : PortRec, Operator s i ∧ Bare s p r ∧ r.role ≠ 0 ∧ r.enable = true ∧ r.st = 3) ∧
    (∃ s : State, ∃ p : PortNo, ∃ r : PortRec, isUp s = true ∧ Bare s p r ∧ portCarries r = true) ∧
    (∃ s : State, ∃ i : BitVec 3, ∃ p : PortNo, ∃ r : PortRec, Operator s i ∧ Bare s p r ∧ r.role ≠ 0 ∧ r.st = 3) ∧
    (∃ s : State, ∃ p : PortNo, ∃ r : PortRec, ∃ i : Instr, isUp s = true ∧ s.boot.shutdown = false ∧ Bare s p r ∧ r.st = 4 ∧ (i = .portDrainEmpty p
      ∨ i = .portDrainTimeout p ∧ r.drainAt + 400 ≤ s.counter)) ∧
    (∃ s : State, ∃ p : PortNo, ∃ r : PortRec, ∃ i : Instr, isUp s = true ∧ s.boot.shutdown = false ∧ Bare s p r ∧ r.st = 4 ∧ (i = .portDrainEmpty p
      ∨ i = .portDrainTimeout p ∧ r.drainAt + 400 ≤ s.counter)) ∧
    (∃ s : State, ∃ p : PortNo, ∃ r : PortRec, isUp s = true ∧ Ready s p r ∧ portCarries r = true) :=
  ⟨⟨ported 0 lane0, 0, lane0, .signalLoss 0 3, 1, by and_intros <;> first | exact Or.inl ⟨3, rfl, rfl, by decide +kernel⟩ | decide +kernel⟩,
   ⟨ported 0 { lane0 with rb := [txFlit 0], ackAt := 999999997 }, 0, { lane0 with rb := [txFlit 0], ackAt := 999999997 }, .ackStallTimeout 0, 3,
     by and_intros <;> first | exact Or.inr (Or.inl ⟨rfl, rfl, by decide +kernel, by decide +kernel⟩) | decide +kernel⟩,
   ⟨ported 0 { lane0 with lastGood := 999999999 }, 0, { lane0 with lastGood := 999999999 }, .noGoodFlitTimeout 0, 4,
     by and_intros <;> first | exact Or.inr (Or.inr (Or.inl ⟨rfl, rfl, by decide +kernel⟩)) | decide +kernel⟩,
   ⟨ported 0 { lane0 with winReplays := 65 }, 0, { lane0 with winReplays := 65 }, .replayRateWindow 0, 5,
     by and_intros <;> first | exact Or.inr (Or.inr (Or.inr (Or.inl ⟨rfl, rfl, by decide +kernel⟩))) | decide +kernel⟩,
   ⟨ported 0 lane0, 0, lane0, .linkDown 0 2, 7, by and_intros <;> first | exact Or.inr (Or.inr (Or.inr (Or.inr ⟨2, rfl, rfl⟩))) | decide +kernel⟩,
   ⟨ported 0 { lane0 with winReplays := 64 }, 0, { lane0 with winReplays := 64 }, by decide +kernel⟩,
   ⟨ported 0 lane0, 1, 0, lane0, by decide +kernel⟩,
   ⟨ported 0 lane0, 1, 0, lane0, by decide +kernel⟩,
   ⟨ported 0 lane0, 0, lane0, by decide +kernel⟩,
   ⟨ported 8 trunk8, 1, 8, trunk8, by decide +kernel⟩,
   ⟨ported 0 (train 4 0), 0, (train 4 0), .portDrainEmpty 0, by and_intros <;> first | exact Or.inl rfl | decide +kernel⟩,
   ⟨ported 0 { train 4 0 with drainAt := 999999600 }, 0, { train 4 0 with drainAt := 999999600 }, .portDrainTimeout 0,
     by and_intros <;> first | exact Or.inr ⟨rfl, by decide +kernel⟩ | decide +kernel⟩,
   ⟨ported 0 lane0, 0, lane0, by decide +kernel⟩⟩

theorem witness_SwitchCore :
    (∃ s : State, ∃ p : Port, ∃ c : Cls, ∃ x : QFrame, ∃ i : PortNo, ∃ o : PortNo, ∃ r : PortRec, isUp s = true ∧ s.swc.land.find? (fun y => decide
      (y.inp = p) && y.cls == c) = some x ∧ cutPair s x = some (i, o) ∧ i ≠ o ∧ Ready s o r ∧ s.err.arm = false ∧ frameBytes x.f ≤ 240) ∧
    (∃ s : State, ∃ p : Port, ∃ c : Cls, ∃ x : QFrame, isUp s = true ∧ s.swc.land.find? (fun y => decide (y.inp = p) && y.cls == c) = some x ∧
      cutPair s x = none ∧ fitsMax s s.swc.queue x = true ∧ fitsFree s s.swc.queue x = true) ∧
    (∃ s : State, ∃ p : Port, ∃ c : Cls, ∃ x : QFrame, isUp s = true ∧ s.swc.land.find? (fun y => decide (y.inp = p) && y.cls == c) = some x ∧
      cutPair s x = none ∧ (fitsMax s s.swc.queue x = false ∨ (fitsFree s s.swc.queue x = false ∧ s.swc.poEn = false))) ∧
    (∃ s : State, ∃ id : Nat, ∃ x : QFrame, isUp s = true ∧ (s.swc.land ++ s.swc.queue).find? (fun y => y.id == id) = some x ∧ x.res + 36 ≤
      s.counter) ∧
    (∃ s : State, ∃ p : PortNo, ∃ r : PortRec, ∃ x : QFrame, isUp s = true ∧ Ready s p r ∧ canStart s (.lane p) = true ∧ candidate s (.lane p) 7 =
      some x ∧ s.err.arm = false ∧ frameCls x.f = 7 ∧ frameBytes x.f ≤ 240 ∧ ¬ (r.role = 2 ∧ frameHop x.f = 7)) ∧
    (∃ s : State, ∃ p : PortNo, ∃ r : PortRec, ∃ x : QFrame, isUp s = true ∧ Ready s p r ∧ canStart s (.lane p) = true ∧ s.swc.queue = [x] ∧ x.outp =
      .lane p ∧ x.cls ≠ 7 ∧ frameCls x.f = x.cls ∧ hasCredits s (.lane p) x.f = true ∧ x.res + 24 ≤ s.counter ∧ s.err.arm = false ∧ frameBytes x.f ≤
      240 ∧ ¬ (r.role = 2 ∧ frameHop x.f = 7)) ∧
    (∃ s : State, ∃ p : PortNo, ∃ r : PortRec, ∃ x : QFrame, isUp s = true ∧ tget s.lnk p = some r ∧ canStart s (.lane p) = true ∧ candidate s (.lane
      p) 7 = some x ∧ r.tail = [] ∧ r.role = 2 ∧ frameHop x.f = 7) :=
  ⟨⟨{ up with lnk := [(0, { lane0 with early := [(0x11, 3)] }), (8, { trunk8 with actWidth := 4 })], swc.ctEn := true, swc.land := [frame1] }, .lane
    0, 0, frame1, 0, 8, { trunk8 with actWidth := 4 }, by decide +kernel⟩,
   ⟨{ up with swc.land := [frame1] }, .lane 0, 0, frame1, by decide +kernel⟩,
   ⟨{ up with swc.land := [frame1], swc.clsMax := [(0, 0)] }, .lane 0, 0, frame1, by decide +kernel⟩,
   ⟨{ up with swc.queue := [{ frame1 with res := 999999964 }] }, 1, { frame1 with res := 999999964 }, by decide +kernel⟩,
   ⟨{ up with swc.queue := [{ frame1 with cls := 7, f := .req { rq with cls := 7, dst := 0x21, hop := 0 } }] }, 8, trunk8,
     { frame1 with cls := 7, f := .req { rq with cls := 7, dst := 0x21, hop := 0 } }, by decide +kernel⟩,
   ⟨{ up with swc.queue := [{ frame1 with res := 999999976 }] }, 8, trunk8, { frame1 with res := 999999976 }, by decide +kernel⟩,
   ⟨{ up with swc.queue := [{ frame1 with cls := 7, f := .req { rq with cls := 7, dst := 0x21, hop := 7 } }] }, 8, trunk8,
     { frame1 with cls := 7, f := .req { rq with cls := 7, dst := 0x21, hop := 7 } }, by decide +kernel⟩⟩

theorem witness_RoutesAndShapers :
    (∃ s : State, ∃ f : Req, isUp s = true ∧ (∀ h, tget s.swc.notes ((noteOf f.payload).1, (noteOf f.payload).2.1) = some h → h.nseq < (noteOf
      f.payload).2.2.nseq) ∧ (noteOf f.payload).2.2.endpoint = false ∧ (noteOf f.payload).2.2.restore = false) ∧
    (∃ s : State, ∃ f : Req, ∃ h : NoteRec, isUp s = true ∧ tget s.swc.notes ((noteOf f.payload).1, (noteOf f.payload).2.1) = some h ∧ ¬ (h.nseq <
      (noteOf f.payload).2.2.nseq)) ∧
    (∃ s : State, ∃ p : PortNo, ∃ r : PortRec, isUp s = true ∧ tget s.lnk p = some r ∧ r.role = 1 ∧ r.st = 3 ∧ r.restored = false ∧ r.upAt + 1000 ≤
      s.counter) ∧
    (∃ s : State, ∃ p : PortNo, ∃ r : PortRec, isUp s = true ∧ tget s.lnk p = some r ∧ r.role = 2 ∧ r.st = 3 ∧ 64 ≤ r.samples.length) ∧
    (∃ s : State, ∃ i : BitVec 3, Operator s i) ∧
    (∃ s : State, ∃ i : BitVec 3, ∃ q : PortNo, Operator s i ∧ isTrunk s q = true) ∧
    (∃ s : State, ∃ p : Port, ∃ e : Nat, isUp s = true ∧ s.ing.buf = [] ∧ (shpOf s p).port.entry = some e ∧ e ≤ wheelTick (shpOf s p)) :=
  ⟨⟨{ up with swc.notes := [((2, 8), ⟨4, 0, false, false⟩)] },
    { rq with opcode := Op.routeNotice, payload := [2, 8, 0, 0, 0, 0, 0, 0, 5, 0, 0, 0] ++ zeros 4 },
    by and_intros <;> first | exact (fun h k => by (have e : some h = some ⟨4, 0, false, false⟩ := k.symm.trans (by decide +kernel)); cases e; decide +kernel) | decide +kernel⟩,
   ⟨{ up with swc.notes := [((2, 8), ⟨5, 0, false, false⟩)] },
     { rq with opcode := Op.routeNotice, payload := [2, 8, 0, 0, 0, 0, 0, 0, 5, 0, 0, 0] ++ zeros 4 }, ⟨5, 0, false, false⟩, by decide +kernel⟩,
   ⟨ported 0 { lane0 with upAt := 999999000 }, 0, { lane0 with upAt := 999999000 }, by decide +kernel⟩,
   ⟨ported 8 { trunk8 with samples := List.replicate 64 1 }, 8, { trunk8 with samples := List.replicate 64 1 }, by decide +kernel⟩,
   ⟨up, 1, by decide +kernel⟩,
   ⟨up, 1, 8, by decide +kernel⟩,
   ⟨{ up with shp.sets := [(.lane 0, { ShpSet.blank 24 with port := ⟨1, 1, 0, 0, some 0⟩ })] }, .lane 0, 0, by decide +kernel⟩⟩

theorem witness_EngineRequests :
    (∃ s : State, ∃ q : Quad, ∃ f : Req, ∃ x, x ∈ [(Instr.tileXfer (.device q) f, f.opcode == Op.tileXfer), (.gatherDirect (.device q) f, f.opcode ==
      Op.gather && f.subop == 0), (.gatherIndexed (.device q) f, f.opcode == Op.gather && f.subop == 1), (.scatterDirect (.device q) f, f.opcode ==
      Op.scatter && f.subop == 0), (.scatterIndexed (.device q) f, f.opcode == Op.scatter && f.subop == 1), (.filter (.device q) f, f.opcode ==
      Op.filter), (.scoreSel (.device q) f, f.opcode == Op.scoreSel), (.expand (.device q) f, f.opcode == Op.expand)] ∧ x.2 = true ∧ isUp s = true ∧
      entryStatus s q f none (opBad s f) = none ∧ (f.dlx = false ∨ isGs f = false)) ∧
    (∃ s : State, ∃ q : Quad, ∃ f : Req, ∃ st : Status, ∃ x, x ∈ [(Instr.tileXfer (.device q) f, f.opcode == Op.tileXfer), (.gatherDirect (.device q)
      f, f.opcode == Op.gather && f.subop == 0), (.gatherIndexed (.device q) f, f.opcode == Op.gather && f.subop == 1), (.scatterDirect (.device q)
      f, f.opcode == Op.scatter && f.subop == 0), (.scatterIndexed (.device q) f, f.opcode == Op.scatter && f.subop == 1), (.filter (.device q) f,
      f.opcode == Op.filter), (.scoreSel (.device q) f, f.opcode == Op.scoreSel), (.expand (.device q) f, f.opcode == Op.expand)] ∧ x.2 = true ∧ isUp
      s = true ∧ entryStatus s q f none (opBad s f) = some st ∧ (localAt s f.src).isSome = true) ∧
    (∃ s : State, ∃ q : Quad, ∃ f : Req, ∃ x, x ∈ [(Instr.gatherDirect (.device q) f, f.opcode == Op.gather && f.subop == 0), (.gatherIndexed
      (.device q) f, f.opcode == Op.gather && f.subop == 1), (.scatterDirect (.device q) f, f.opcode == Op.scatter && f.subop == 0), (.scatterIndexed
      (.device q) f, f.opcode == Op.scatter && f.subop == 1)] ∧ x.2 = true ∧ isUp s = true ∧ entryStatus s q f none (opBad s f) = none ∧ f.dlx = true
      ∧ (localAt s f.src).isSome = true ∧ controlReady s (newReq s q f (genTag s f.tenant) none) = true ∧ per (dlBudget f) 1 < estimate s (newReq s q
      f (genTag s f.tenant) none) ∧ usableAlt s f = none) ∧
    (∃ s : State, ∃ q : Quad, ∃ r : EngReq, ∃ p : Portion, ∃ k : Nat, ∃ tl : TileNo, isUp s = true ∧ s.obj.fills = [] ∧ waitingReqs s q = [r] ∧
      r.f.opcode ≠ Op.accOpen ∧ waitsOrdered s r = false ∧ (openTiles s (reqQuads r.f)).isEmpty = false ∧ controlReady s r = true ∧ r.portions ≠ [] ∧
      nextPortion r = some (p, k) ∧ nextTile s r p = some tl ∧ (tileOf s tl).queue.length < 15) ∧
    (∃ s : State, ∃ q : Quad, ∃ r : EngReq, ∃ p : Portion, ∃ k : Nat, ∃ tl : TileNo, isUp s = true ∧ s.obj.fills = [] ∧ waitingReqs s q = [r] ∧
      r.f.opcode ≠ Op.accOpen ∧ waitsOrdered s r = false ∧ (openTiles s (reqQuads r.f)).isEmpty = false ∧ controlReady s r = true ∧ r.portions = [] ∧
      r.deadline = none ∧ nextPortion { r with portions := divide s r } = some (p, k) ∧ nextTile s r p = some tl ∧ (tileOf s tl).queue.length < 15) ∧
    (∃ s : State, ∃ r : EngReq, ∃ a : Addr, ∃ n : Nat, isUp s = true ∧ engReq s r.f.src r.f.tag = some r ∧ r.f.src ≠ ownEp s ∧ frameAt r.frames
      a.toNat = some ⟨a.toNat, n, none⟩ ∧ r.closing = false) ∧
    (∃ s : State, ∃ r : EngReq, ∃ a : Addr, ∃ n : Nat, ∃ d : List Byte, isUp s = true ∧ engReq s r.f.src r.f.tag = some r ∧ r.f.src ≠ ownEp s ∧
      r.frames = [⟨a.toNat, n, some d⟩] ∧ r.closing = true ∧ r.own = none ∧ r.alt = none ∧ r.f.opcode = Op.expand ∧ (localAt s r.f.src).isSome =
      true) ∧
    (∃ s : State, ∃ r : EngReq, ∃ a : Addr, ∃ x : FarFrame, isUp s = true ∧ engReq s r.f.src r.f.tag = some r ∧ r.f.src ≠ ownEp s ∧ frameAt r.frames
      a.toNat = some x) ∧
    (∃ s : State, ∃ r : EngReq, ∃ a : Addr, ∃ x : FarFrame, ∃ st : Status, isUp s = true ∧ engReq s r.f.src r.f.tag = some r ∧ r.f.src ≠ ownEp s ∧
      frameAt r.frames a.toNat = some x ∧ r.own = none ∧ (st ∈ [Status.denied, .revoked, .notOwner, .remap, .pathLost, .aborted] ∨ (st = .poison ∧
      usableAlt s r.f = none)) ∧ (localAt s r.f.src).isSome = true) ∧
    (∃ s : State, ∃ r : EngReq, isUp s = true ∧ engReq s r.f.src r.f.tag = some r ∧ r.own = none ∧ (localAt s r.f.src).isSome = true ∧ r.at_ + 1000 ≤
      s.counter ∧ unplaced r = true ∧ waitsOrdered s r = false ∧ openTiles s (reqQuads r.f) = []) ∧
    (∃ s : State, ∃ r : EngReq, ∃ d : DevId, isUp s = true ∧ engReq s r.f.src r.f.tag = some r ∧ r.notice + 200 ≤ s.counter ∧ epDev s r.f.src = some
      d) :=
  ⟨⟨engined, 0, xferReq 1, (Instr.tileXfer (.device 0) (xferReq 1), true), by decide +kernel⟩,
   ⟨{ engined with eng.enabled := [.reduce] }, 0, gatherReq, .funcOff, (Instr.gatherDirect (.device 0) gatherReq, true), by decide +kernel⟩,
   ⟨engined, 0, { gatherReq with dlx := true, ext := 0x100000000 }, (Instr.gatherDirect (.device 0)
     ({ gatherReq with dlx := true, ext := 0x100000000 }), true), by decide +kernel⟩,
   ⟨placing (ereq gatherReq [later, later]), 0, ereq gatherReq [later, later], later, 0, 0, by decide +kernel⟩,
   ⟨placing (ereq gatherReq []), 0, ereq gatherReq [], ⟨[(0, 512)], false, false, []⟩, 0, 0, by decide +kernel⟩,
   ⟨placing ({ ereq expandReq [whole] with frames := [⟨0x8000010000, 64, none⟩], closing := false }),
     { ereq expandReq [whole] with frames := [⟨0x8000010000, 64, none⟩], closing := false }, 0x8000010000, 64, by decide +kernel⟩,
   ⟨placing ({ ereq expandReq [whole] with frames := [⟨0x8000010000, 64, some (zeros 64)⟩], closing := true }),
     { ereq expandReq [whole] with frames := [⟨0x8000010000, 64, some (zeros 64)⟩], closing := true }, 0x8000010000, 64, zeros 64, by decide +kernel⟩,
   ⟨placing ({ ereq expandReq [whole] with frames := [⟨0x8000010000, 64, none⟩], closing := false }),
     { ereq expandReq [whole] with frames := [⟨0x8000010000, 64, none⟩], closing := false }, 0x8000010000, ⟨0x8000010000, 64, none⟩, by
     decide +kernel⟩,
   ⟨placing ({ ereq expandReq [whole] with frames := [⟨0x8000010000, 64, none⟩], closing := false }),
     { ereq expandReq [whole] with frames := [⟨0x8000010000, 64, none⟩], closing := false }, 0x8000010000, ⟨0x8000010000, 64, none⟩, .denied, by
     decide +kernel⟩,
   ⟨{ placing (ereq gatherReq []) with eng.tiles := [] }, ereq gatherReq [], by decide +kernel⟩,
   ⟨placing (ereq gatherReq [whole, later]), ereq gatherReq [whole, later], 1, by decide +kernel⟩⟩

theorem witness_EngineWork :
    (∃ s : State, ∃ tl : TileNo, ∃ r : EngReq, ∃ p : Portion, isUp s = true ∧ running_ s tl = some (r, 0, p) ∧ r.f.opcode = Op.tileXfer ∧ xferOk r.f
      = true ∧ r.portions.length = 1 ∧ r.staged = [] ∧ r.frames = [] ∧ r.own = none ∧ s.err.arm = false ∧ s.err.sticky = [] ∧ Memory.wf s.mem = true
      ∧ r.f.src ≠ ownEp s ∧ (localAt s r.f.src).isSome = true ∧ replicaOn s tl (portionRuns s r p) = none ∧ (∀ n j, n < 64 * xferCount r.f → j < 64 →
      inT1 s (xferSrc r.f + n * xferSrcPitch r.f + j) = true ∧ inT1 s (xferDst r.f + n * xferDstPitch r.f + j) = true) ∧ runsCheck s r false
      (portionRuns s r p) = none ∧ (∀ n, n < 64 * xferCount r.f → runWriteCheck s r (xferDst r.f + n * xferDstPitch r.f, 64) = none)) ∧
    (∃ s : State, ∃ s' : State, ∃ tl : TileNo, ∃ r : EngReq, ∃ r1 : EngReq, ∃ k : Nat, ∃ j : Nat, ∃ p : Portion, ∃ e : Effect, isUp s = true ∧
      running_ s tl = some (r, k, p) ∧ s.err.arm = false ∧ s.err.sticky = [] ∧ replicaOn s tl (portionRuns s r p) = none ∧ expanding r = false ∧
      portionReady s r p = true ∧ runsCheck s r false (portionIndexRuns r p) = none ∧ runsCheck s r false (portionRuns s r p) = none ∧ portionEffect
      s (engByte s r) r p = e ∧ engWrites s e.req e.writes = (s', r1, none) ∧ j ≠ k ∧ (r.portions[j]?).map (·.done) = some false) ∧
    (∃ s : State, ∃ tl : TileNo, ∃ r : EngReq, ∃ k : Nat, ∃ p : Portion, ∃ z : ZskRun, ∃ x : Nat × Nat, ∃ i : Nat, ∃ y : Nat × List Byte, ∃ n : Nat,
      Expands s tl r k p z x i y ∧ blockCheck s r x i y = .passes n) ∧
    (∃ s : State, ∃ tl : TileNo, ∃ r : EngReq, ∃ k : Nat, ∃ p : Portion, ∃ z : ZskRun, ∃ x : Nat × Nat, ∃ i : Nat, ∃ y : Nat × List Byte, Expands s
      tl r k p z x i y ∧ blockCheck s r x i y = .stall) ∧
    (∃ s : State, ∃ tl : TileNo, ∃ r : EngReq, ∃ k : Nat, ∃ p : Portion, ∃ z : ZskRun, ∃ x : Nat × Nat, ∃ i : Nat, ∃ y : Nat × List Byte, ∃ e :
      ZskItem, Expands s tl r k p z x i y ∧ blockCheck s r x i y = .fails e) ∧
    (∃ s : State, ∃ tl : TileNo, ∃ r : EngReq, ∃ k : Nat, ∃ p : Portion, ∃ e : ZskItem, ∃ bytes : List Byte, Rereads s tl r k p e ∧ rereadTiles s tl
      r e = [tl] ∧ zskItemOk (engByte s (withItem s r e bytes)) (readTensor r) e = true) ∧
    (∃ s : State, ∃ tl : TileNo, ∃ r : EngReq, ∃ k : Nat, ∃ p : Portion, ∃ e : ZskItem, ∃ bytes : List Byte, ∃ oid : Oid, ∃ o : Obj, Rereads s tl r k
      p e ∧ s.eng.reqs = [r] ∧ zskItemOk (engByte s (withItem s r e bytes)) (readTensor r) e = false ∧ s.obj.tab = [(oid, o)] ∧ r.own = none ∧
      objHolds o (readTensor r).base = true ∧ o.damaged = false ∧ s.err.log = [] ∧ (localAt s r.f.src).isSome = true) :=
  ⟨⟨working (ereq (xferReq 1) [whole]) none, 0, ereq (xferReq 1) [whole], whole,
    by and_intros <;> first | exact (fun n j hn hj => xfer_inT1 _ n j (by decide +kernel) hn hj) | decide +kernel⟩,
   ⟨working (ereq gatherReq [whole, later]) none, (engWrites (working (ereq gatherReq [whole, later]) none) (portionEffect (working (ereq gatherReq
     [whole, later]) none) (engByte (working (ereq gatherReq [whole, later]) none) (ereq gatherReq [whole, later])) (ereq gatherReq [whole, later])
     whole).req (portionEffect (working (ereq gatherReq [whole, later]) none) (engByte (working (ereq gatherReq [whole, later]) none) (ereq gatherReq
     [whole, later])) (ereq gatherReq [whole, later]) whole).writes).1, 0, ereq gatherReq [whole, later], (engWrites (working (ereq gatherReq [whole,
     later]) none) (portionEffect (working (ereq gatherReq [whole, later]) none) (engByte (working (ereq gatherReq [whole, later]) none) (ereq
     gatherReq [whole, later])) (ereq gatherReq [whole, later]) whole).req (portionEffect (working (ereq gatherReq [whole, later]) none) (engByte
     (working (ereq gatherReq [whole, later]) none) (ereq gatherReq [whole, later])) (ereq gatherReq [whole, later]) whole).writes).2.1, 0, 1, whole,
     portionEffect (working (ereq gatherReq [whole, later]) none) (engByte (working (ereq gatherReq [whole, later]) none) (ereq gatherReq [whole,
     later])) (ereq gatherReq [whole, later]) whole, by decide +kernel⟩,
   ⟨zskGood (working (ereq expandReq [whole]) (some (zskAt .none))), 0, ereq expandReq [whole], 0, whole, zskAt .none, (0, 1), 0, (48, zskBlock), 48,
     by decide +kernel⟩,
   ⟨working farExpand (some (zskAt .none)), 0, farExpand, 0, whole, zskAt .none, (0, 1), 0, (0, []), by decide +kernel⟩,
   ⟨zskStored (working (ereq expandReq [whole]) (some (zskAt .none))), 0, ereq expandReq [whole], 0, whole, zskAt .none, (0, 1), 0, (48, zeros 48),
     .block 0, by decide +kernel⟩,
   ⟨zskStored (working (ereq expandReq [whole]) (some (zskAt (.asked (.block 0))))), 0, ereq expandReq [whole], 0, whole, .block 0, zskBlock, by
     decide +kernel⟩,
   ⟨zskStored (working (ereq expandReq [whole]) (some (zskAt (.asked (.block 0))))), 0, ereq expandReq [whole], 0, whole, .block 0, zeros 48, oid1,
     obj1, by decide +kernel⟩⟩

theorem witness_EngineFunctions :
    (∃ s : State, ∃ i : BitVec 3, ∃ fn : EngFn, ∃ r : EngReq, Operator s i ∧ fn ∈ s.eng.enabled ∧ s.eng.reqs = [r] ∧ fn ∈ needsFns r.f ∧ r.started =
      false ∧ roundsActive s = false ∧ s.obj.reads = [] ∧ r.own = none ∧ (localAt s r.f.src).isSome = true) ∧
    (∃ s : State, ∃ i : BitVec 3, ∃ x : ObjRead, Operator s i ∧ .expand ∈ s.eng.enabled ∧ s.eng.reqs = [] ∧ s.obj.reads = [x] ∧ (byteAt x.f.payload
      20).getLsbD 0 = true ∧ x.useAlt = false ∧ x.done = none ∧ (localAt s x.f.src).isSome = true) ∧
    (∃ s : State, ∃ i : BitVec 3, ∃ fn : EngFn, ∃ r : EngReq, Operator s i ∧ fn ∈ s.eng.enabled ∧ s.eng.reqs = [r] ∧ fn ∈ needsFns r.f ∧ inFlight r =
      true ∧ (fn ≠ .expand ∨ s.obj.reads = [])) ∧
    (∃ s : State, ∃ i : BitVec 3, ∃ fn : EngFn, Operator s i ∧ fn ∉ s.eng.enabled) ∧
    (∃ s : State, ∃ fn : EngFn, ∃ r : EngReq, ∃ t0 : Nat, isUp s = true ∧ roundsActive s = false ∧ s.eng.draining = [(fn, some t0)] ∧ t0 + max 10
      s.eng.drainUs.toNat ≤ s.counter ∧ s.eng.reqs = [r] ∧ fn ∈ needsFns r.f ∧ inFlight r = true ∧ r.own = none ∧ (localAt s r.f.src).isSome = true) ∧
    (∃ s : State, ∃ fn : EngFn, isUp s = true ∧ s.eng.draining = [(fn, none)]) ∧
    (∃ s : State, ∃ i : BitVec 3, ∃ tl : TileNo, ∃ v : Word, Operator s i ∧ bitsOf v.toNat 0 5 ≤ 23 ∧ (∀ e ∈ s.obj.tab, ∀ x ∈ e.2.t0tiles, x.tile ≠
      tl)) ∧
    (∃ s : State, ∃ i : BitVec 3, ∃ tl : TileNo, ∃ v : Word, Operator s i ∧ (23 < bitsOf v.toNat 0 5 ∨ ∃ e ∈ s.obj.tab, ∃ x ∈ e.2.t0tiles, x.tile =
      tl)) :=
  ⟨⟨placing (ereq gatherReq [whole, later]), 1, .gs, ereq gatherReq [whole, later], by decide +kernel⟩,
   ⟨{ engined with obj.reads := [oread] }, 1, oread, by decide +kernel⟩,
   ⟨working { (ereq gatherReq [whole, later]) with started := true } none, 1, .gs, { (ereq gatherReq [whole, later]) with started := true }, by
     decide +kernel⟩,
   ⟨{ up with eng.enabled := [.reduce] }, 1, .gs, by decide +kernel⟩,
   ⟨{ working { (ereq gatherReq [whole, later]) with started := true } none with eng.draining := [(.gs, some 999998000)] }, .gs,
     { (ereq gatherReq [whole, later]) with started := true }, 999998000, by decide +kernel⟩,
   ⟨{ up with eng.draining := [(.gs, none)] }, .gs, by decide +kernel⟩,
   ⟨up, 1, 0, 23, by decide +kernel⟩,
   ⟨up, 1, 0, 24, by decide +kernel⟩⟩

theorem witness_AccordsOpenAndClose :
    (∃ s : State, ∃ q : Quad, ∃ f : Req, isUp s = true ∧ f.opcode = Op.accOpen ∧ accOpenBad f = false ∧ f.dlx = false ∧ isRemoving s f.tenant = false
      ∧ fnsOn s f = true ∧ (freeAccSlot s).isSome = true ∧ membersUsed s + accMembers f ≤ 262144 ∧ entryStatus s q f none (opBad s f) = none) ∧
    (∃ s : State, ∃ q : Quad, ∃ r : EngReq, ∃ n : BitVec 12, ∃ tl : TileNo, isUp s = true ∧ s.obj.fills = [] ∧ waitingReqs s q = [r] ∧ r.f.opcode =
      Op.accOpen ∧ waitsOrdered s r = false ∧ r.tiles.length + 1 = r.portions.length ∧ (∀ k x, r.portions[k]? = some x → k ≠ r.tiles.length →
      x.placed = true) ∧ (openTiles s (reqQuads r.f)).isEmpty = false ∧ accTile s r = some tl ∧ freeAccSlot s = some n ∧ membersUsed s + accMembers
      r.f ≤ 262144 ∧ accParent r.f = 0 ∧ r.own = none ∧ (localAt s r.f.src).isSome = true) ∧
    (∃ s : State, ∃ q : Quad, ∃ r : EngReq, ∃ n : BitVec 12, ∃ tl : TileNo, isUp s = true ∧ s.obj.fills = [] ∧ waitingReqs s q = [r] ∧ r.f.opcode =
      Op.accOpen ∧ waitsOrdered s r = false ∧ r.tiles.length + 1 = r.portions.length ∧ (∀ k x, r.portions[k]? = some x → k ≠ r.tiles.length →
      x.placed = true) ∧ (openTiles s (reqQuads r.f)).isEmpty = false ∧ accTile s r = some tl ∧ freeAccSlot s = some n ∧ membersUsed s + accMembers
      r.f ≤ 262144 ∧ accParent r.f ≠ 0) ∧
    (∃ s : State, ∃ f : Req, ∃ n : BitVec 12, ∃ m : MemberRec, ∃ d : DevId, isUp s = true ∧ f.opcode = Op.accContrib ∧ f.subop = 0 ∧ accNamed s
      (BitVec.ofNat 32 (leAt f.payload 16 4)) = some n ∧ (accOf s n).state = .idle ∧ (accOf s n).bound = true ∧ (accOf s n).parent = 0 ∧ f.tenant =
      (accOf s n).tenant ∧ (accOf s n).members[bitsOf (leAt f.payload 20 2) 0 10]? = some m ∧ m.ep = f.src ∧ bitsOf (leAt f.payload 20 2) 10 6 = 0 ∧
      zerosAt f.payload 24 8 = true ∧ hdrTiles f = 0 ∧ hdrQmask f = 0 ∧ hdrOrdered f = false ∧ BitVec.ofNat 16 (leAt f.payload 22 2) = (accOf s
      n).nextRound ∧ isRemoving s f.tenant = false ∧ fnsOn s f = true ∧ epDev s m.ep = some d) ∧
    (∃ s : State, ∃ f : Req, isUp s = true ∧ f.opcode = Op.accContrib ∧ f.subop = 0 ∧ accNamed s (BitVec.ofNat 32 (leAt f.payload 16 4)) = none ∧
      (localAt s f.src).isSome = true) ∧
    (∃ s : State, ∃ f : Req, ∃ n : BitVec 12, ∃ m : MemberRec, isUp s = true ∧ f.opcode = Op.accContrib ∧ f.subop = 0 ∧ accNamed s (BitVec.ofNat 32
      (leAt f.payload 16 4)) = some n ∧ (accOf s n).state = .active ∧ (accOf s n).bound = true ∧ f.tenant = (accOf s n).tenant ∧ (accOf s
      n).members[bitsOf (leAt f.payload 20 2) 0 10]? = some m ∧ m.ep = f.src ∧ bitsOf (leAt f.payload 20 2) 10 6 = 0 ∧ zerosAt f.payload 24 8 = true
      ∧ hdrTiles f = 0 ∧ hdrQmask f = 0 ∧ hdrOrdered f = false ∧ BitVec.ofNat 16 (leAt f.payload 22 2) = (accOf s n).nextRound + 1 ∧ isRemoving s
      f.tenant = false ∧ fnsOn s f = true ∧ (localAt s f.src).isSome = true) ∧
    (∃ s : State, ∃ d : DevId, ∃ b : Binding, ∃ n : BitVec 12, ∃ m : MemberRec, isUp s = true ∧ accNamed s b.parent = some n ∧ (accOf s
      n).members[b.member.toNat]? = some m ∧ ownEpOf s d = some m.ep ∧ (accOf s n).op = b.op ∧ (accOf s n).etype = b.etype ∧ (accOf s n).elemBytes =
      b.elemBytes ∧ (accOf s n).depth ≤ 3 ∧ m.child = none ∧ (accOf s n).bound = true) ∧
    (∃ s : State, ∃ b : Binding, isUp s = true ∧ accNamed s b.parent = none) ∧
    (∃ s : State, ∃ n : BitVec 12, ∃ r : EngReq, isUp s = true ∧ Opening s n r) ∧
    (∃ s : State, ∃ n : BitVec 12, ∃ r : EngReq, isUp s = true ∧ Opening s n r) ∧
    (∃ s : State, ∃ n : BitVec 12, ∃ r : EngReq, isUp s = true ∧ Opening s n r ∧ (accOf s n).bindAt + 800 ≤ s.counter) ∧
    (∃ s : State, ∃ f : Req, ∃ n : BitVec 12, isUp s = true ∧ f.opcode = Op.accClose ∧ accNamed s (BitVec.ofNat 32 (leAt f.payload 16 4)) = some n ∧
      (accOf s n).state = .idle ∧ f.src = (accOf s n).opener ∧ f.tenant = (accOf s n).tenant ∧ zerosAt f.payload 20 12 = true ∧ hdrTiles f = 0 ∧
      hdrQmask f = 0 ∧ hdrOrdered f = false ∧ (localAt s f.src).isSome = true) ∧
    (∃ s : State, ∃ n : BitVec 12, isUp s = true ∧ (accOf s n).state = .idle ∧ (accOf s n).bound = true ∧ (accOf s n).idleSince + 1000 * (accOf s
      n).idleMs ≤ s.counter) :=
  ⟨⟨engined, 0, openReq 0, by decide +kernel⟩,
   ⟨placing { ereq (openReq 0) [⟨[], true, false, []⟩, ⟨[], false, false, []⟩] with tiles := [0] }, 0,
     { ereq (openReq 0) [⟨[], true, false, []⟩, ⟨[], false, false, []⟩] with tiles := [0] }, 0, 1,
     by and_intros <;> first | exact (fun k x h hk => by match k, h with | 0, h => cases h; rfl | 1, h => exact absurd rfl hk | k + 2, h => cases h) | decide +kernel⟩,
   ⟨placing { ereq (openReq 0x08001000) [⟨[], true, false, []⟩, ⟨[], false, false, []⟩] with tiles := [0] }, 0,
     { ereq (openReq 0x08001000) [⟨[], true, false, []⟩, ⟨[], false, false, []⟩] with tiles := [0] }, 0, 1,
     by and_intros <;> first | exact (fun k x h hk => by match k, h with | 0, h => cases h; rfl | 1, h => exact absurd rfl hk | k + 2, h => cases h) | decide +kernel⟩,
   ⟨accorded (accord .idle), startReq1 0, 0, member0, 1, by decide +kernel⟩,
   ⟨engined, startReq1 0, by decide +kernel⟩,
   ⟨accorded (accord .active), startReq1 1, 0, member0, by decide +kernel⟩,
   ⟨accorded { accord .idle with members := [{ member0 with ep := 0x20 }] }, 2, ⟨0x04001000, 0, 0x08001000, 0, 0, 65536⟩, 0,
     { member0 with ep := 0x20 }, by decide +kernel⟩,
   ⟨up, ⟨0x04001000, 0, 0x08001000, 0, 0, 65536⟩, by decide +kernel⟩,
   ⟨{ accorded { accord .idle with bound := false, bindAt := 999999200, openTag := 3 } with eng.reqs := [{ ereq (openReq 0x08001000) [] with started := true }] },
     0, { ereq (openReq 0x08001000) [] with started := true }, by decide +kernel⟩,
   ⟨{ accorded { accord .idle with bound := false, bindAt := 999999200, openTag := 3 } with eng.reqs := [{ ereq (openReq 0x08001000) [] with started := true }] },
     0, { ereq (openReq 0x08001000) [] with started := true }, by decide +kernel⟩,
   ⟨{ accorded { accord .idle with bound := false, bindAt := 999999200, openTag := 3 } with eng.reqs := [{ ereq (openReq 0x08001000) [] with started := true }] },
     0, { ereq (openReq 0x08001000) [] with started := true }, by decide +kernel⟩,
   ⟨accorded (accord .idle), closeReq, 0, by decide +kernel⟩,
   ⟨accorded (accord .idle), 0, by decide +kernel⟩⟩

theorem witness_AccordRounds :
    (∃ s : State, ∃ f : Req, ∃ n : BitVec 12, ∃ i : Nat, ∃ m : MemberRec, isUp s = true ∧ segmentOf s f = some (n, i, m) ∧ (accOf s n).members[i]? =
      some m ∧ m.failed = false ∧ m.done = false ∧ m.expected < accSegs (accOf s n) ∧ f.addr.toNat / 65536 = m.expected ∧ f.len.toNat = segLen (accOf
      s n) m.expected) ∧
    (∃ s : State, ∃ f : Req, isUp s = true ∧ segmentOf s f = none) ∧
    (∃ s : State, ∃ n : BitVec 12, ∃ k : Nat, ∃ j : Nat, ∃ x : Stripe, isUp s = true ∧ (accOf s n).state = .active ∧ k < accSegs (accOf s n) ∧ j <
      segStripes (accOf s n) k ∧ (accOf s n).b ≤ k ∧ (accOf s n).b < accSegs (accOf s n) ∧ (accOf s n).stripes.find? (fun y => y.seg == k && y.stripe
      == j) = some x ∧ ((accOf s n).members.zipIdx.all fun m => m.1.failed || x.arrived.contains m.2) = true ∧ (∃ i, i < segStripes (accOf s n)
      (accOf s n).b ∧ ¬ ((accOf s n).b = k ∧ i = j) ∧ ∀ y ∈ (accOf s n).stripes, ¬ (y.seg = (accOf s n).b ∧ y.stripe = i ∧ y.done = true))) ∧
    (∃ s : State, ∃ n : BitVec 12, ∃ j : Nat, ∃ x : Stripe, isUp s = true ∧ (accOf s n).state = .active ∧ accSegs (accOf s n) = 1 ∧ (accOf s n).b = 0
      ∧ j < segStripes (accOf s n) 0 ∧ (accOf s n).stripes.find? (fun y => y.seg == 0 && y.stripe == j) = some x ∧ ((accOf s n).members.zipIdx.all
      fun m => m.1.failed || x.arrived.contains m.2) = true ∧ (∀ i, i < segStripes (accOf s n) 0 → i ≠ j → ∃ y ∈ (accOf s n).stripes, y.seg = 0 ∧
      y.stripe = i ∧ y.done = true) ∧ (accOf s n).parent = 0 ∧ (accOf s n).result = none ∧ (accOf s n).writes = [] ∧ (∀ m ∈ (accOf s n).members,
      m.child = none ∧ m.report = none ∧ (localAt s m.ep).isSome = true)) ∧
    (∃ s : State, ∃ f : Req, ∃ n : BitVec 12, isUp s = true ∧ n = f.tag.setWidth 12 ∧ (accOf s n).state = .active ∧ (accOf s n).parent ≠ 0 ∧ ownEpOf
      s ((accOf s n).parent.extractLsb' 26 6) = some f.src ∧ (accOf s n).deliver ≠ 2 ∧ (accOf s n).result = none ∧ (∀ m ∈ (accOf s n).members, ∃ q,
      localAt s m.ep = some (.lane q) ∧ outputUp s (.lane q) = true)) ∧
    (∃ s : State, ∃ h : Word, ∃ n : BitVec 12, ∃ i : BitVec 10, ∃ m : MemberRec, isUp s = true ∧ accNamed s h = some n ∧ (accOf s n).state = .active
      ∧ (accOf s n).members[i.toNat]? = some m ∧ (accOf s n).b < accSegs (accOf s n)) ∧
    (∃ s : State, ∃ n : BitVec 12, ∃ i : BitVec 10, ∃ m : MemberRec, ∃ tag : Tag, isUp s = true ∧ (accOf s n).state = .active ∧ (accOf s
      n).members[i.toNat]? = some m ∧ m.startTag = some tag ∧ m.failed = false ∧ m.done = false ∧ m.expected < accSegs (accOf s n) ∧ max (accOf s
      n).roundAt m.last + (accOf s n).stallUs ≤ s.counter ∧ (accOf s n).onFail = false ∧ (∀ x ∈ (accOf s n).members, (localAt s x.ep).isSome = true))
      ∧
    (∃ s : State, ∃ h : Word, ∃ n : BitVec 12, isUp s = true ∧ accNamed s h = some n ∧ (accOf s n).state = .active ∧ (∀ x ∈ (accOf s n).members,
      (localAt s x.ep).isSome = true)) ∧
    (∃ s : State, ∃ h : Word, ∃ n : BitVec 12, isUp s = true ∧ accNamed s h = some n ∧ (accOf s n).state = .idle ∧ (accOf s n).parent = 0 ∧ (∀ m ∈
      (accOf s n).members, m.child = none)) ∧
    (∃ s : State, ∃ src : Ep, ∃ tag : Tag, ∃ a : Addr, ∃ n : BitVec 12, ∃ x : FarFrame, ∃ st : Status, isUp s = true ∧ src ≠ ownEp s ∧ engReq s src
      tag = none ∧ s.obj.reads = [] ∧ accWriting s src tag a = some (n, x) ∧ (accOf s n).state = .active ∧ st ∈ [Status.denied, .revoked, .notOwner,
      .remap, .pathLost] ∧ (∀ x ∈ (accOf s n).members, (localAt s x.ep).isSome = true)) ∧
    (∃ s : State, ∃ e : Ep, ∃ tag : Tag, ∃ w : WinNote, isUp s = true ∧ windowFits s e tag w = false) ∧
    (∃ s : State, ∃ e : Ep, ∃ tag : Tag, ∃ w : WinNote, isUp s = true ∧ windowFits s e tag w = true ∧ e ≠ ownEp s ∧ s.ing.buf = []) :=
  ⟨⟨accorded { accord .active with elemBytes := 64 }, req Op.accContrib 1 0 (zeros 80), 0, 0, member0, by decide +kernel⟩,
   ⟨up, req Op.accContrib 1 0 (zeros 80), by decide +kernel⟩,
   ⟨accorded { accord .active with stripes := [stripe 0 false, stripe 1 false] }, 0, 0, 1, stripe 1 false, by decide +kernel⟩,
   ⟨accorded { accord .active with stripes := [stripe 0 true, stripe 1 false] }, 0, 1, stripe 1 false, by decide +kernel⟩,
   ⟨accorded { accord .active with parent := 0x08001000 }, { req Op.accContrib 1 0 (zeros 16) with src := 0x20, tag := 0 }, 0,
     by and_intros <;> first | exact (fun m h => by rcases List.mem_singleton.mp h with rfl; exact ⟨0, by decide +kernel, by decide +kernel⟩) | decide +kernel⟩,
   ⟨accorded { accord .active with members := [{ member0 with ep := 0x20 }] }, 0x04001000, 0, 0, { member0 with ep := 0x20 }, by decide +kernel⟩,
   ⟨accorded (accord .active), 0, 0, member0, 3, by decide +kernel⟩,
   ⟨accorded (accord .active), 0x04001000, 0, by decide +kernel⟩,
   ⟨accorded (accord .idle), 0x04001000, 0, by decide +kernel⟩,
   ⟨accorded { accord .active with openTag := 9, writes := [⟨0x10000, 16, some (zeros 16)⟩] }, 0x11, 9, 0x10000, 0, ⟨0x10000, 16, some (zeros 16)⟩,
     .denied, by decide +kernel⟩,
   ⟨up, 0x11, 3, ⟨0, 0, 0, 0⟩, by decide +kernel⟩,
   ⟨{ accorded (accord .active) with ing.trk := [{ track1 with f := startReq1 0 }] }, 0x11, 3, ⟨0x04001000, 0, 0, 0⟩, by decide +kernel⟩⟩

theorem witness_ObjectCommands :
    (∃ s : State, ∃ u : State, ∃ i : BitVec 3, ∃ ten : TenantId, ∃ o : Obj, ∃ a : Nat, ObjReady s i ∧ isRemoving s ten = false ∧ dryingDown s = false
      ∧ descOf (dataOf s i) ten = o ∧ descBad (dataOf s i) o = false ∧ o.tier = 1 ∧ quotaRoom s ten 1 (ceilDiv o.size 4096) = true ∧ s.obj.tab.length
      < 1048576 ∧ s.obj.nextSerial < 2 ^ 34 ∧ (s.ftl.state ≠ .online ∨ s.obj.nextSerial < serialFloor s) ∧ allocRange s (devId s ++ BitVec.ofNat 34
      s.obj.nextSerial) o.stackMask o.size = some (u, a)) ∧
    (∃ s : State, ∃ u : State, ∃ i : BitVec 3, ∃ ten : TenantId, ∃ o : Obj, ∃ a : Nat, ObjReady s i ∧ isRemoving s ten = false ∧ dryingDown s = false
      ∧ descOf (dataOf s i) ten = o ∧ descBad (dataOf s i) o = false ∧ o.tier = 1 ∧ quotaRoom s ten 1 (ceilDiv o.size 4096) = true ∧ s.obj.tab.length
      < 1048576 ∧ s.obj.nextSerial < 2 ^ 34 ∧ (s.ftl.state ≠ .online ∨ s.obj.nextSerial < serialFloor s) ∧ allocRange s (devId s ++ BitVec.ofNat 34
      s.obj.nextSerial) o.stackMask o.size = some (u, a)) ∧
    (∃ s : State, ∃ i : BitVec 3, ∃ ten : TenantId, ∃ o : Obj, ObjReady s i ∧ isRemoving s ten = false ∧ dryingDown s = false ∧ descOf (dataOf s i)
      ten = o ∧ descBad (dataOf s i) o = false ∧ o.tier = 2 ∧ quotaRoom s ten 2 (ceilDiv o.size (2 ^ 20)) = true ∧ s.obj.tab.length < 1048576 ∧
      s.obj.nextSerial < 2 ^ 34 ∧ (s.ftl.state ≠ .online ∨ s.obj.nextSerial < serialFloor s)) ∧
    (∃ s : State, ∃ i : BitVec 3, ∃ ten : TenantId, ∃ o : Obj, ObjReady s i ∧ isRemoving s ten = false ∧ dryingDown s = false ∧ descOf (dataOf s i)
      ten = o ∧ descBad (dataOf s i) o = false ∧ o.tier = 2 ∧ quotaRoom s ten 2 (ceilDiv o.size (2 ^ 20)) = true ∧ s.obj.tab.length < 1048576 ∧
      s.obj.nextSerial < 2 ^ 34 ∧ s.ftl.state = .online ∧ serialFloor s ≤ s.obj.nextSerial ∧ (∀ r ∈ s.ftl.journal, ∀ k, r.body ≠ .serial k)) ∧
    (∃ s : State, ∃ i : BitVec 3, ∃ ten : TenantId, ∃ o : Obj, ObjReady s i ∧ isRemoving s ten = false ∧ dryingDown s = false ∧ descOf (dataOf s i)
      ten = o ∧ (descBad (dataOf s i) o = true ∨ o.tier = 3)) ∧
    (∃ s : State, ∃ i : BitVec 3, ∃ ten : TenantId, ∃ o : Obj, ObjReady s i ∧ isRemoving s ten = false ∧ dryingDown s = false ∧ descOf (dataOf s i)
      ten = o ∧ descBad (dataOf s i) o = false ∧ o.tier = 1 ∧ quotaRoom s ten 1 (ceilDiv o.size 4096) = false) ∧
    (∃ s : State, ∃ i : BitVec 3, ∃ ten : TenantId, ∃ o : Obj, ObjReady s i ∧ isRemoving s ten = false ∧ dryingDown s = false ∧ descOf (dataOf s i)
      ten = o ∧ descBad (dataOf s i) o = false ∧ o.tier = 1 ∧ quotaRoom s ten 1 (ceilDiv o.size 4096) = true ∧ s.obj.nextSerial < 2 ^ 34 ∧
      (s.ftl.state ≠ .online ∨ s.obj.nextSerial < serialFloor s) ∧ (1048576 ≤ s.obj.tab.length ∨ allocRange s (devId s ++ BitVec.ofNat 34
      s.obj.nextSerial) o.stackMask o.size = none)) ∧
    (∃ s : State, ∃ i : BitVec 3, ∃ ten : TenantId, ∃ oid : Oid, ∃ alt : Oid, ∃ o : Obj, ObjReady s i ∧ isRemoving s ten = false ∧ dryingDown s =
      false ∧ leAt (dataOf s i) 0 8 = oid.toNat ∧ leAt (dataOf s i) 48 8 = alt.toNat ∧ objNamed s oid ten = some o ∧ o.sealing = false ∧ (alt = 0 ∨
      (isAlternate s oid = false ∧ alt ≠ oid ∧ ∃ a, objNamed s alt ten = some a ∧ a.prot = o.prot ∧ a.rows = o.rows ∧ a.zskip = false ∧ a.alt = 0 ∧
      (a.isSealed = true ∨ a.tier = 2)))) ∧
    (∃ s : State, ∃ i : BitVec 3, ∃ ten : TenantId, ∃ oid : Oid, ∃ o : Obj, ObjReady s i ∧ isRemoving s ten = false ∧ dryingDown s = false ∧ leAt
      (dataOf s i) 0 8 = oid.toNat ∧ objNamed s oid ten = some o ∧ isAlternate s oid = false ∧ o.sealing = false ∧ o.t1 ≠ .filling ∧ o.fillsT0 =
      false ∧ fillOf s oid false = none ∧ NoOwnExpand s oid) ∧
    (∃ s : State, ∃ i : BitVec 3, ∃ ten : TenantId, ∃ oid : Oid, ObjReady s i ∧ isRemoving s ten = false ∧ dryingDown s = false ∧ leAt (dataOf s i) 0
      8 = oid.toNat ∧ isAlternate s oid = true) ∧
    (∃ s : State, ∃ i : BitVec 3, ∃ ten : TenantId, ∃ oid : Oid, ∃ o : Obj, ObjReady s i ∧ isRemoving s ten = false ∧ dryingDown s = false ∧ leAt
      (dataOf s i) 0 8 = oid.toNat ∧ objNamed s oid ten = some o) ∧
    (∃ s : State, ∃ i : BitVec 3, ∃ ten : TenantId, ∃ oid : Oid, ∃ c, ObjReady s i ∧ isRemoving s ten = false ∧ dryingDown s = false ∧ leAt (dataOf s
      i) 0 8 = oid.toNat ∧ objNamed s oid ten = none ∧ c ∈ [Instr.place (.session i) ten, .unplace (.session i) ten, .setAlt (.session i) ten,
      .delete (.session i) ten, .query (.session i) ten, .planOpen (.session i) ten]) ∧
    (∃ s : State, ∃ i : BitVec 3, ∃ ten : TenantId, ∃ c, ObjReady s i ∧ isRemoving s ten = true ∧ c ∈ objRows i ten) ∧
    (∃ s : State, ∃ i : BitVec 3, ∃ ten : TenantId, ∃ k, ∃ c, ObjReady s i ∧ isRemoving s ten = false ∧ dryingDown s = true ∧ k < 8 ∧ (objRows i
      ten)[k]? = some c) ∧
    (∃ s : State, ∃ i : BitVec 3, ∃ ten : TenantId, ∃ k, ∃ c, ObjReady s i ∧ isRemoving s ten = false ∧ dryingDown s = true ∧ k < 8 ∧ (objRows i
      ten)[k]? = some c) :=
  ⟨⟨objSet { up with ftl.state := .offline } [0, 0, 0x301, 0xFF, 4096, 0, 16, 0, 256, 0, 0, 0], ((allocRange (objSet
    { up with ftl.state := .offline } [0, 0, 0x301, 0xFF, 4096, 0, 16, 0, 256, 0, 0, 0]) (devId (objSet { up with ftl.state := .offline } [0, 0,
    0x301, 0xFF, 4096, 0, 16, 0, 256, 0, 0, 0]) ++ BitVec.ofNat 34 1) 0xF 4096).getD ((objSet { up with ftl.state := .offline } [0, 0, 0x301, 0xFF,
    4096, 0, 16, 0, 256, 0, 0, 0]), 0)).1, 1, 5, descOf (dataOf (objSet { up with ftl.state := .offline } [0, 0, 0x301, 0xFF, 4096, 0, 16, 0, 256, 0,
    0, 0]) 1) 5, ((allocRange (objSet { up with ftl.state := .offline } [0, 0, 0x301, 0xFF, 4096, 0, 16, 0, 256, 0, 0, 0]) (devId (objSet
    { up with ftl.state := .offline } [0, 0, 0x301, 0xFF, 4096, 0, 16, 0, 256, 0, 0, 0]) ++ BitVec.ofNat 34 1) 0xF 4096).getD ((objSet
    { up with ftl.state := .offline } [0, 0, 0x301, 0xFF, 4096, 0, 16, 0, 256, 0, 0, 0]), 0)).2, by decide +kernel⟩,
   ⟨objSet { up with ftl.media.committed := [(0, .serial 4097)] } [0, 0, 0x301, 0xFF, 4096, 0, 16, 0, 256, 0, 0, 0], ((allocRange (objSet
     { up with ftl.media.committed := [(0, .serial 4097)] } [0, 0, 0x301, 0xFF, 4096, 0, 16, 0, 256, 0, 0, 0]) (devId (objSet
     { up with ftl.media.committed := [(0, .serial 4097)] } [0, 0, 0x301, 0xFF, 4096, 0, 16, 0, 256, 0, 0, 0]) ++ BitVec.ofNat 34 1) 0xF 4096).getD
     ((objSet { up with ftl.media.committed := [(0, .serial 4097)] } [0, 0, 0x301, 0xFF, 4096, 0, 16, 0, 256, 0, 0, 0]), 0)).1, 1, 5, descOf (dataOf
     (objSet { up with ftl.media.committed := [(0, .serial 4097)] } [0, 0, 0x301, 0xFF, 4096, 0, 16, 0, 256, 0, 0, 0]) 1) 5, ((allocRange (objSet
     { up with ftl.media.committed := [(0, .serial 4097)] } [0, 0, 0x301, 0xFF, 4096, 0, 16, 0, 256, 0, 0, 0]) (devId (objSet
     { up with ftl.media.committed := [(0, .serial 4097)] } [0, 0, 0x301, 0xFF, 4096, 0, 16, 0, 256, 0, 0, 0]) ++ BitVec.ofNat 34 1) 0xF 4096).getD
     ((objSet { up with ftl.media.committed := [(0, .serial 4097)] } [0, 0, 0x301, 0xFF, 4096, 0, 16, 0, 256, 0, 0, 0]), 0)).2, by decide +kernel⟩,
   ⟨objSet { up with ftl.state := .offline } [0, 0, 0x302, 0xFF, 4096, 0, 16, 0, 256, 0, 0, 0], 1, 5, descOf (dataOf (objSet
     { up with ftl.state := .offline } [0, 0, 0x302, 0xFF, 4096, 0, 16, 0, 256, 0, 0, 0]) 1) 5, by decide +kernel⟩,
   ⟨objSet up [0, 0, 0x302, 0xFF, 4096, 0, 16, 0, 256, 0, 0, 0], 1, 5, descOf (dataOf (objSet up [0, 0, 0x302, 0xFF, 4096, 0, 16, 0, 256, 0, 0, 0])
     1) 5, by and_intros <;> first | exact (fun r h => by cases h) | decide +kernel⟩,
   ⟨objSet up [0, 0, 0x303, 0xFF, 4096, 0, 16, 0, 256, 0, 0, 0], 1, 5, descOf (dataOf (objSet up [0, 0, 0x303, 0xFF, 4096, 0, 16, 0, 256, 0, 0, 0])
     1) 5, by decide +kernel⟩,
   ⟨{ objSet { up with ftl.state := .offline } [0, 0, 0x301, 0xFF, 4096, 0, 16, 0, 256, 0, 0, 0] with obj.quotaLim := [] }, 1, 5, descOf (dataOf
     (objSet { up with ftl.state := .offline } [0, 0, 0x301, 0xFF, 4096, 0, 16, 0, 256, 0, 0, 0]) 1) 5, by decide +kernel⟩,
   ⟨{ objSet { up with ftl.state := .offline } [0, 0, 0x301, 0xF1, 0, 0x40, 0x40000000, 0, 256, 0, 0, 0] with obj.quotaLim := [((5, 1), 134217728)] },
     1, 5, descOf (dataOf
     ({ objSet { up with ftl.state := .offline } [0, 0, 0x301, 0xF1, 0, 0x40, 0x40000000, 0, 256, 0, 0, 0] with obj.quotaLim := [((5, 1), 134217728)] })
     1) 5, by decide +kernel⟩,
   ⟨objSet ({ stored obj1 with obj.tab := [(oid1, obj1), (oid2, { obj1 with isSealed := true, addr := 0x40000 })] }) [1, 4, 0, 0, 0, 0, 0, 0, 0, 0,
     0, 0, 2, 4], 1, 5, oid1, oid2, obj1,
     by and_intros <;> first | exact Or.inr ⟨by decide +kernel, by decide +kernel, { obj1 with isSealed := true, addr := 0x40000 }, by decide +kernel⟩ | decide +kernel⟩,
   ⟨objSet (stored obj1) [1, 4], 1, 5, oid1, obj1, by decide +kernel⟩,
   ⟨objSet (stored { obj1 with alt := oid1 }) [1, 4], 1, 5, oid1, by decide +kernel⟩,
   ⟨objSet (stored obj1) [1, 4], 1, 5, oid1, obj1, by decide +kernel⟩,
   ⟨objSet up [1, 4], 1, 5, oid1, Instr.place (.session 1) 5, by decide +kernel⟩,
   ⟨{ up with sec.tenants := [(5, ⟨true, none, [], some 1⟩)] }, 1, 5, Instr.create (.session 1) 5, by decide +kernel⟩,
   ⟨{ up with dry.drying := true, dry.image := some ⟨1, 1, [], [], true, false, 0, 0, 0⟩ }, 1, 5, 1, Instr.place (.session 1) 5, by decide +kernel⟩,
   ⟨objSet { stored obj1 with dry.drying := true, dry.image := some ⟨1, 1, [], [], true, false, 0, 0, 0⟩ } [1, 4], 1, 5, 5, Instr.query (.session 1)
     5, by decide +kernel⟩⟩

theorem witness_CopiesAndReplicas :
    (∃ s : State, ∃ u : State, ∃ i : BitVec 3, ∃ ten : TenantId, ∃ oid : Oid, ∃ o : Obj, ∃ m : BitVec 4, ∃ a : Nat, ObjReady s i ∧ isRemoving s ten =
      false ∧ dryingDown s = false ∧ leAt (dataOf s i) 0 8 = oid.toNat ∧ bitsOf (leAt (dataOf s i) 8 1) 0 2 = 1 ∧ (byteAt (dataOf s i)
      12).extractLsb' 0 4 = m ∧ (byteAt (dataOf s i) 8).getLsbD 2 = o.zskip ∧ objNamed s oid ten = some o ∧ o.sealing = false ∧ o.tier = 3 ∧ o.t1 =
      .none ∧ quotaRoom s ten 1 (ceilDiv o.size 4096) = true ∧ allocRange s oid m o.size = some (u, a) ∧ NoFetches s ∧ objUnits o ≤ 16384 ∧ (∀ n, n <
      objUnits o → unitLost s oid o n = false)) ∧
    (∃ s : State, ∃ oid : Oid, ∃ o : Obj, ∃ x : Fill, ∃ n : Nat, ∃ p : Option PageAddr, ∃ c : Nat, ∃ d : Decoded, isUp s = true ∧ tget s.obj.tab oid
      = some o ∧ o.cdense = false ∧ s.obj.fetches = [⟨oid, n, p, false, c⟩] ∧ s.obj.reads = [] ∧ s.obj.plans = [] ∧ s.obj.fills = [x] ∧ x.oid = oid ∧
      x.t0 = false ∧ x.expand = false ∧ x.waits = [n] ∧ cipherCheck s o.tenant o.prot o.fillGen = none ∧ Memory.wf s.mem = true ∧ d.rung = 1 ∧
      d.metaOk = true ∧ d.corrected ≤ s.ftl.refreshBits.toNat ∧ (∀ a, p = some a → (blkOf s a.blk).soft + d.soft < 8) ∧ (pageView s oid o n p).length
      = 16384 ∧ t1Base s ≤ o.addr ∧ (o.addr - t1Base s) % 4096 = 0 ∧ (∀ k, k < o.size → ∃ y, objIn s (o.addr + k) = some (oid, y) ∧ objKey s y =
      objKey s o)) ∧
    (∃ s : State, ∃ oid : Oid, ∃ o : Obj, ∃ x : Fill, isUp s = true ∧ tget s.obj.tab oid = some o ∧ fillOf s oid false = some x ∧ x.waits = [] ∧
      (x.expand = true → x.issued = true) ∧ NoOwnExpand s oid) ∧
    (∃ s : State, ∃ oid : Oid, isUp s = true ∧ (∀ x, fillOf s oid false = some x → x.waits ≠ [])) ∧
    (∃ s : State, ∃ i : BitVec 3, ∃ ten : TenantId, ∃ oid : Oid, ∃ o : Obj, ObjReady s i ∧ isRemoving s ten = false ∧ dryingDown s = false ∧ leAt
      (dataOf s i) 0 8 = oid.toNat ∧ bitsOf (leAt (dataOf s i) 8 1) 0 2 = 1 ∧ objNamed s oid ten = some o ∧ o.sealing = false ∧ o.tier = 3 ∧ o.t1 ≠
      .none ∧ NoOwnExpand s oid) ∧
    (∃ s : State, ∃ oid : Oid, ∃ o : Obj, isUp s = true ∧ tget s.obj.tab oid = some o ∧ o.deleted = false ∧ Unused s oid) ∧
    (∃ s : State, ∃ oid : Oid, ∃ o : Obj, isUp s = true ∧ tget s.obj.tab oid = some o ∧ o.deleted = true ∧ Unused s oid ∧ o.tier = 1 ∧ (∀ r ∈
      s.obj.pages, r.oid = oid → r.gone.isSome = true) ∧ (∀ r ∈ s.obj.reads, r.oid ≠ oid)) ∧
    (∃ s : State, ∃ oid : Oid, ∃ r : PageRun, isUp s = true ∧ r ∈ s.obj.pages ∧ r.oid = oid ∧ r.gone.isSome = true ∧ runInUse s r = true) ∧
    (∃ s : State, ∃ i : BitVec 3, ∃ ten : TenantId, ∃ oid : Oid, ∃ o : Obj, ∃ m : BitVec 4, ∃ n : Nat, ∃ units : Nat, ObjReady s i ∧ isRemoving s ten
      = false ∧ dryingDown s = false ∧ leAt (dataOf s i) 0 8 = oid.toNat ∧ bitsOf (leAt (dataOf s i) 8 1) 0 2 = 0 ∧ (byteAt (dataOf s i)
      12).extractLsb' 4 4 = m ∧ objNamed s oid ten = some o ∧ o.sealing = false ∧ readOnly o = true ∧ o.tier ≠ 2 ∧ (o.tier = 3 → o.t1 = .valid) ∧
      o.t0rep = false ∧ o.fillsT0 = false ∧ (replicaTiles s o m).length = n ∧ 0 < n ∧ ceilDiv (partBytes o n) 65536 = units ∧ (∀ x ∈ replicaTiles s o
      m, units ≤ (t0Free s x).length) ∧ quotaRoom s ten 0 (units * n) = true) ∧
    (∃ s : State, ∃ oid : Oid, ∃ o : Obj, ∃ x : Fill, isUp s = true ∧ tget s.obj.tab oid = some o ∧ fillOf s oid true = some x ∧ x.frames = [] ∧
      o.tier ≠ 2 ∧ rangePoisoned s o.addr (rangeBytes o) = false ∧ (o.t0tiles.map (·.tile)).Nodup ∧ (∀ p ∈ o.t0tiles, p.units.Nodup ∧ partBytes o
      o.t0tiles.length ≤ 65536 * p.units.length ∧ cellsWf (tileOf s p.tile).sram = true)) ∧
    (∃ s : State, ∃ i : BitVec 3, ∃ ten : TenantId, ∃ oid : Oid, ∃ o : Obj, ObjReady s i ∧ isRemoving s ten = false ∧ dryingDown s = false ∧ leAt
      (dataOf s i) 0 8 = oid.toNat ∧ bitsOf (leAt (dataOf s i) 8 1) 0 2 = 0 ∧ objNamed s oid ten = some o ∧ o.sealing = false ∧ (o.t0rep = true ∨
      o.fillsT0 = true)) :=
  ⟨⟨objSet { flash obj3 with obj.pages := [] } [1, 4, 1, 0xF], ((allocRange (objSet { flash obj3 with obj.pages := [] } [1, 4, 1, 0xF]) oid1 0xF
    16384).getD ((objSet { flash obj3 with obj.pages := [] } [1, 4, 1, 0xF]), 0)).1, 1, 5, oid1, obj3, 0xF, ((allocRange (objSet
    { flash obj3 with obj.pages := [] } [1, 4, 1, 0xF]) oid1 0xF 16384).getD ((objSet { flash obj3 with obj.pages := [] } [1, 4, 1, 0xF]), 0)).2, by
    decide +kernel⟩,
   ⟨{ flash obj1f with obj.fetches := [⟨oid1, 0, none, false, 5⟩], obj.fills := [⟨oid1, false, false, false, [0], [], []⟩] }, oid1, obj1f, ⟨oid1,
     false, false, false, [0], [], []⟩, 0, none, 5, decoded 1, by decide +kernel, by decide +kernel, by decide +kernel, by decide +kernel, by
     decide +kernel, by decide +kernel, by decide +kernel, by decide +kernel, by decide +kernel, by decide +kernel, by decide +kernel, by
     decide +kernel, by decide +kernel, by decide +kernel, by decide +kernel, by decide +kernel,
     (fun a h => by cases h), (List.length_replicate : (List.replicate 16384 (0 : Byte)).length = 16384), by decide +kernel, by decide +kernel, fun k h => ⟨obj1f, (by decide +kernel : ∀ k < 128, objIn ({ flash obj1f with obj.fetches := [⟨oid1, 0, none, false, 5⟩], obj.fills := [⟨oid1, false, false, false, [0], [], []⟩] }) (obj1f.addr + k) = some (oid1, obj1f)) k h, rfl⟩⟩,
   ⟨{ stored obj1f with obj.fills := [⟨oid1, false, false, false, [], [], []⟩] }, oid1, obj1f, ⟨oid1, false, false, false, [], [], []⟩, by
     decide +kernel⟩,
   ⟨{ stored obj1f with obj.fills := [⟨oid1, false, false, false, [0], [], []⟩] }, oid1,
     by and_intros <;> first | exact (fun x h => by rcases Option.some.inj ((by decide +kernel : fillOf ({ stored obj1f with obj.fills := [⟨oid1, false, false, false, [0], [], []⟩] }) oid1 false = some ⟨oid1, false, false, false, [0], [], []⟩).symm.trans h) with rfl; decide) | decide +kernel⟩,
   ⟨objSet (stored { obj3 with t1 := .valid, addr := 0x10000 }) [1, 4, 1], 1, 5, oid1, { obj3 with t1 := .valid, addr := 0x10000 }, by
     decide +kernel⟩,
   ⟨{ stored (obj3) with obj.pages := [⟨16, 16, oid1, 0, 0, some 0⟩] }, oid1, obj3, by decide +kernel⟩,
   ⟨{ stored ({ obj1 with deleted := true }) with obj.pages := [⟨16, 16, oid1, 0, 0, some 0⟩] }, oid1, { obj1 with deleted := true }, by
     decide +kernel⟩,
   ⟨{ placing (ereq gatherReq []) with obj.pages := [⟨16, 16, oid1, 0, 0, some 5⟩] }, oid1, ⟨16, 16, oid1, 0, 0, some 5⟩, by decide +kernel⟩,
   ⟨{ objSet { flash { obj3 with t1 := .valid, addr := 0x10000 } with eng.tiles := [(0, { TileRec.blank with gated := false, t0 := 2 }), (1, { TileRec.blank with gated := false, t0 := 2 })] } [1, 4, 0, 0xF0] with obj.quotaLim := [((5, 0), 10)] },
     1, 5, oid1, { obj3 with t1 := .valid, addr := 0x10000 }, 0xF, 2, 1, by decide +kernel⟩,
   ⟨{ flash { obj3 with t1 := .valid, addr := 0x10000, size := 256, rows := 2, rowBytes := 128, fillsT0 := true, t0tiles := [⟨0, [0]⟩, ⟨1, [0]⟩] } with eng.tiles := [(0, { TileRec.blank with gated := false, t0 := 2 }), (1, { TileRec.blank with gated := false, t0 := 2 })], obj.fills := [⟨oid1, true, false, false, [], [], []⟩] },
     oid1, { obj3 with t1 := .valid, addr := 0x10000, size := 256, rows := 2, rowBytes := 128, fillsT0 := true, t0tiles := [⟨0, [0]⟩, ⟨1, [0]⟩] },
     ⟨oid1, true, false, false, [], [], []⟩, by decide +kernel⟩,
   ⟨objSet
     ({ flash { obj3 with t1 := .valid, addr := 0x10000, size := 256, rows := 2, rowBytes := 128, fillsT0 := true, t0tiles := [⟨0, [0]⟩, ⟨1, [0]⟩] } with eng.tiles := [(0, { TileRec.blank with gated := false, t0 := 2 }), (1, { TileRec.blank with gated := false, t0 := 2 })], obj.fills := [⟨oid1, true, false, false, [], [], []⟩] })
     [1, 4, 0], 1, 5, oid1,
     { obj3 with t1 := .valid, addr := 0x10000, size := 256, rows := 2, rowBytes := 128, fillsT0 := true, t0tiles := [⟨0, [0]⟩, ⟨1, [0]⟩] }, by
     decide +kernel⟩⟩

theorem witness_StreamPlans :
    (∃ s : State, ∃ i : BitVec 3, ∃ ten : TenantId, ∃ oid : Oid, ∃ o : Obj, ∃ n : Nat, ∃ stage : Nat, ∃ k : BitVec 8, ∃ fs : List FrameRun, ObjReady
      s i ∧ isRemoving s ten = false ∧ dryingDown s = false ∧ leAt (dataOf s i) 0 8 = oid.toNat ∧ leAt (dataOf s i) 8 4 = n ∧ leAt (dataOf s i) 12 2
      = stage ∧ objNamed s oid ten = some o ∧ (o.tier = 1 ∨ o.t1 = .valid) ∧ o.etype = 3 ∧ o.zskip = false ∧ 0 < n ∧ n ≤ 65536 ∧ 16 * n ≤ o.size ∧ 0
      < stage ∧ stage ≤ 16384 ∧ quotaRoom s ten 1 (16 * stage) = true ∧ freePlan s = some k ∧ takeFrames s 0 (65536 * stage) = some fs ∧
      rangePoisoned s o.addr (16 * n) = false) ∧
    (∃ s : State, ∃ i : BitVec 3, ∃ ten : TenantId, ∃ oid : Oid, ∃ o : Obj, ∃ n : Nat, ∃ stage : Nat, ∃ k : BitVec 8, ∃ fs : List FrameRun, ObjReady
      s i ∧ isRemoving s ten = false ∧ dryingDown s = false ∧ leAt (dataOf s i) 0 8 = oid.toNat ∧ leAt (dataOf s i) 8 4 = n ∧ leAt (dataOf s i) 12 2
      = stage ∧ objNamed s oid ten = some o ∧ o.tier = 3 ∧ o.t1 ≠ .valid ∧ o.etype = 3 ∧ o.zskip = false ∧ 0 < n ∧ n ≤ 65536 ∧ 16 * n ≤ o.size ∧ 0 <
      stage ∧ stage ≤ 16384 ∧ quotaRoom s ten 1 (16 * stage) = true ∧ freePlan s = some k ∧ takeFrames s 0 (65536 * stage) = some fs ∧ NoFetches s ∧
      (∀ u, u < ceilDiv (16 * n) 16384 → unitLost s oid o u = false)) ∧
    (∃ s : State, ∃ k : BitVec 8, ∃ p : Plan, ∃ x : PlanStep, ∃ rest : List PlanStep, ∃ o : Obj, isUp s = true ∧ s.obj.plans = [(k, p)] ∧ p.steps = x
      :: rest ∧ x.over_ = false ∧ x.staged = false ∧ x.need = [] ∧ p.waits = [] ∧ (∀ y ∈ rest, y.need = [] ∧ y.staged = false) ∧ objNamed s x.oid
      p.tenant = some o ∧ o.tier = 3 ∧ x.first + x.rows ≤ o.rows ∧ stepUnits s o x ≠ [] ∧ (∀ u ∈ stepUnits s o x, unitLost s x.oid o u = false) ∧
      16384 * (stepUnits s o x).length ≤ 65536 * p.stage ∧ s.obj.fetches = [] ∧ s.obj.reads = [] ∧ s.obj.fills = [] ∧ (stepUnits s o x).length ≤
      16384) ∧
    (∃ s : State, ∃ k : BitVec 8, ∃ p : Plan, ∃ x : PlanStep, ∃ y : PlanStep, ∃ rest : List PlanStep, isUp s = true ∧ s.obj.plans = [(k, p)] ∧
      p.steps = x :: y :: rest ∧ x.over_ = false ∧ x.staged = false ∧ x.need = [] ∧ y.over_ = false ∧ (objNamed s x.oid p.tenant = none ∨ ∃ o,
      objNamed s x.oid p.tenant = some o ∧ (o.tier ≠ 3 ∨ o.rows < x.first + x.rows ∨ 65536 * p.stage < 16384 * (stepUnits s o x).length ∨ ∃ u ∈
      stepUnits s o x, unitLost s x.oid o u = true))) ∧
    (∃ s : State, ∃ i : BitVec 3, ∃ ten : TenantId, ∃ k : BitVec 8, ∃ p : Plan, ObjReady s i ∧ isRemoving s ten = false ∧ dryingDown s = false ∧ leAt
      (dataOf s i) 0 2 = k.toNat ∧ tget s.obj.plans k = some p ∧ p.tenant = ten) :=
  ⟨⟨objSet (stored obj1) [1, 4, 4, 1], 1, 5, oid1, obj1, 4, 1, 0, (takeFrames (objSet (stored obj1) [1, 4, 4, 1]) 0 65536).getD [], by
    decide +kernel⟩,
   ⟨objSet (flash obj3) [1, 4, 4, 1], 1, 5, oid1, obj3, 4, 1, 0, (takeFrames (objSet (flash obj3) [1, 4, 4, 1]) 0 65536).getD [], by decide +kernel⟩,
   ⟨{ flash obj3 with obj.plans := [(0, plan0)] }, 0, plan0, step0, [], obj3, by decide +kernel⟩,
   ⟨{ flash obj3 with obj.plans := [(0, { plan0 with steps := [{ step0 with oid := oid2 }, step0] })] }, 0,
     { plan0 with steps := [{ step0 with oid := oid2 }, step0] }, { step0 with oid := oid2 }, step0, [],
     by and_intros <;> first | exact Or.inl (by decide +kernel) | decide +kernel⟩,
   ⟨{ objSet up [0] with obj.plans := [(0, plan0)] }, 1, 5, 0, plan0, by decide +kernel⟩⟩

theorem witness_ObjectReads :
    (∃ s : State, ∃ f : Req, ∃ o : Obj, ReadStarts s f o .tier1 ∧ o.zskip = false ∧ objDaddr f = 0 ∧ s.obj.plans = [] ∧ Passes1 s f o ∧ FreshRead s
      f) ∧
    (∃ s : State, ∃ f : Req, ∃ o : Obj, ∃ rows : List Byte, ReadStarts s f o .tier1 ∧ streamed o .tier1 = true ∧ objDaddr f = 0 ∧ s.obj.plans = [] ∧
      Passes1 s f o ∧ FreshRead s f ∧ rdRows (at1 s o) o f true = some rows) ∧
    (∃ s : State, ∃ f : Req, ∃ o : Obj, ReadStarts s f o .tier1 ∧ streamed o .tier1 = true ∧ o.tier = 1 ∧ o.damaged = false ∧ Passes1 s f o ∧
      FreshRead s f ∧ rdRows (at1 s o) o f true = none ∧ s.err.log = []) ∧
    (∃ s : State, ∃ s' : State, ∃ f : Req, ∃ o : Obj, ∃ rows : List Byte, ∃ w : EngReq, ReadStarts s f o .tier1 ∧ objDaddr f ≠ 0 ∧ s.obj.plans = [] ∧
      Passes1 s f o ∧ FreshRead s f ∧ rdRows (at1 s o) o f (streamed o .tier1) = some rows ∧ engWrites s (rdReq s (readOf s f)) [(objDaddr f, rows)]
      = (s', w, none)) ∧
    (∃ s : State, ∃ s' : State, ∃ f : Req, ∃ o : Obj, ∃ rows : List Byte, ∃ w : EngReq, ReadStarts s f o .tier1 ∧ objDaddr f ≠ 0 ∧ s.obj.plans = [] ∧
      Passes1 s f o ∧ FreshRead s f ∧ rdRows (at1 s o) o f (streamed o .tier1) = some rows ∧ engWrites s (rdReq s (readOf s f)) [(objDaddr f, rows)]
      = (s', w, none)) ∧
    (∃ s : State, ∃ f : Req, ∃ o : Obj, ReadStarts s f o .flash ∧ (∀ u ∈ rdUnits s o f, unitLost s (rdOid f) o u = false) ∧ NoFetches s ∧ (rdUnits s
      o f).length ≤ 16384) ∧
    (∃ s : State, ∃ f : Req, ∃ o : Obj, ReadStarts s f o .tray ∧ FreshRead s f) ∧
    (∃ s : State, ∃ f : Req, ∃ o : Obj, ∃ st : Status, isUp s = true ∧ f.opcode = Op.rdObj ∧ objNamed s (rdOid f) f.tenant = some o ∧ rdStatus s o f
      = some st ∧ (localAt s f.src).isSome = true) ∧
    (∃ s : State, ∃ f : Req, isUp s = true ∧ f.opcode = Op.rdObj ∧ objNamed s (rdOid f) f.tenant = none ∧ (localAt s f.src).isSome = true) ∧
    (∃ s : State, ∃ u : Nat, ∃ a : PageAddr, ∃ at_ : Nat, ∃ d : Decoded, ∃ f : Req, ∃ o : Obj, ∃ r : ObjRead, isUp s = true ∧ r =
      { readOf s f with waits := [u] } ∧ s.obj.fetches = [⟨rdOid f, u, some a, false, at_⟩] ∧ s.obj.reads = [r] ∧ s.obj.plans = [] ∧ s.obj.fills = []
      ∧ tget s.obj.tab (rdOid f) = some o ∧ o.deleted = false ∧ o.zskip = false ∧ objDaddr f = 0 ∧ cipherCheck s f.tenant o.prot (genTag s f.tenant)
      = none ∧ (localAt s f.src).isSome = true ∧ d.rung = 1 ∧ d.metaOk = true ∧ d.corrected ≤ s.ftl.refreshBits.toNat ∧ (blkOf s a.blk).soft + d.soft
      < 8) ∧
    (∃ s : State, ∃ oid : Oid, ∃ u : Nat, ∃ a : PageAddr, ∃ at_ : Nat, ∃ o : Obj, ∃ r : ObjRead, isUp s = true ∧ s.obj.fetches = [⟨oid, u, some a,
      false, at_⟩] ∧ s.obj.reads = [r] ∧ r.oid = oid ∧ r.waits.contains u = true ∧ r.useAlt = false ∧ r.retried = false ∧ s.obj.plans = [] ∧
      s.obj.fills = [] ∧ tget s.obj.tab oid = some o ∧ o.deleted = false ∧ o.alt = 0 ∧ s.obj.damagedExt.contains (oid, u) = false ∧
      s.obj.damagedExt.length < 65536 ∧ (blkOf s a.blk).use ≠ .bad ∧ s.ftl.rdonly = true ∧ s.err.log = [] ∧ (localAt s r.f.src).isSome = true) :=
  ⟨⟨stored obj1, rdObjReq, obj1, by decide +kernel⟩,
   ⟨zskObj 3, { rdObjReq with payload := rdObjReq.payload.set 20 1 }, zobj, (rdRows (at1 (zskObj 3) zobj) zobj
     ({ rdObjReq with payload := rdObjReq.payload.set 20 1 }) true).getD [], by decide +kernel⟩,
   ⟨zskObj 0, { rdObjReq with payload := rdObjReq.payload.set 20 1 }, zobj, by decide +kernel⟩,
   ⟨stored obj1, (engWrites (stored obj1) (Sys2Proof.Machine.rdReq (stored obj1) (readOf (stored obj1)
     ({ rdObjReq with payload := leBytes oid1.toNat 8 ++ leBytes 0 8 ++ leBytes 2 4 ++ zeros 4 ++ leBytes 0x18000 8 }))) [(0x18000, zeros 512)]).1,
     { rdObjReq with payload := leBytes oid1.toNat 8 ++ leBytes 0 8 ++ leBytes 2 4 ++ zeros 4 ++ leBytes 0x18000 8 }, obj1, zeros 512, (engWrites
     (stored obj1) (Sys2Proof.Machine.rdReq (stored obj1) (readOf (stored obj1)
     ({ rdObjReq with payload := leBytes oid1.toNat 8 ++ leBytes 0 8 ++ leBytes 2 4 ++ zeros 4 ++ leBytes 0x18000 8 }))) [(0x18000, zeros 512)]).2.1,
     by decide +kernel⟩,
   ⟨stored obj1, (engWrites (stored obj1) (Sys2Proof.Machine.rdReq (stored obj1) (readOf (stored obj1)
     ({ rdObjReq with payload := leBytes oid1.toNat 8 ++ leBytes 0 8 ++ leBytes 2 4 ++ zeros 4 ++ leBytes 0x8000018000 8 }))) [(0x8000018000, zeros
     512)]).1, { rdObjReq with payload := leBytes oid1.toNat 8 ++ leBytes 0 8 ++ leBytes 2 4 ++ zeros 4 ++ leBytes 0x8000018000 8 }, obj1, zeros 512,
     (engWrites (stored obj1) (Sys2Proof.Machine.rdReq (stored obj1) (readOf (stored obj1)
     ({ rdObjReq with payload := leBytes oid1.toNat 8 ++ leBytes 0 8 ++ leBytes 2 4 ++ zeros 4 ++ leBytes 0x8000018000 8 }))) [(0x8000018000, zeros
     512)]).2.1, by decide +kernel⟩,
   ⟨flash obj3, rdObjReq, obj3, by decide +kernel⟩,
   ⟨stored { obj3 with tier := 2, addr := 0x21000 }, rdObjReq, { obj3 with tier := 2, addr := 0x21000 }, by decide +kernel⟩,
   ⟨stored { obj1 with rows := 1 }, rdObjReq, { obj1 with rows := 1 }, .denied, by decide +kernel⟩,
   ⟨up, rdObjReq, by decide +kernel⟩,
   ⟨{ flash obj3 with obj.fetches := [⟨oid1, 0, some page0, false, 0⟩], obj.reads := [{ readOf up rdObjReq with waits := [0] }] }, 0, page0, 0,
     decoded 1, rdObjReq, obj3, { readOf up rdObjReq with waits := [0] }, by decide +kernel⟩,
   ⟨{ flash obj3 with obj.fetches := [⟨oid1, 0, some page0, false, 0⟩], obj.reads := [{ readOf up rdObjReq with waits := [0] }], ftl.rdonly := true },
     oid1, 0, page0, 0, obj3, { readOf up rdObjReq with waits := [0] }, by decide +kernel⟩⟩

theorem witness_SealsAndDiscards :
    (∃ s : State, ∃ u : State, ∃ f : Req, ∃ o : Obj, ∃ runs : List (Nat × Nat), ∃ units : List (Nat × PageAddr), isUp s = true ∧ f.opcode =
      Op.sealObj ∧ f.subop = 0 ∧ objNamed s (sealOid f) f.tenant = some o ∧ sealBad s o f = false ∧ cipherCheck s f.tenant o.prot (genTag s f.tenant)
      = none ∧ gated s (sealOid f) f.src = false ∧ quotaRoom s f.tenant 3 (tier3Units o) = true ∧ s.ftl.state = .online ∧ s.ftl.rdonly = false ∧
      allocRuns s (objUnits o) = some runs ∧ placeUnits .sealOpen false ((List.range (objUnits o)).filter fun n => !unitPoisoned s o n) 0 s = some
      (u, units) ∧ o.sealing = false ∧ dryingDown s = false) ∧
    (∃ s : State, ∃ u : State, ∃ f : Req, ∃ o : Obj, ∃ x : Obj, ∃ runs : List (Nat × Nat), ∃ units : List (Nat × PageAddr), isUp s = true ∧ f.opcode
      = Op.sealObj ∧ f.subop = 1 ∧ objNamed s (sealOid f) f.tenant = some o ∧ objNamed s (sealTarget f) f.tenant = some x ∧ sealBad s o f = false ∧
      cipherCheck s f.tenant o.prot (genTag s f.tenant) = none ∧ gated s (sealOid f) f.src = false ∧ gated s (sealTarget f) f.src = false ∧ quotaRoom
      s f.tenant 3 (tier3Units o) = true ∧ s.ftl.state = .online ∧ s.ftl.rdonly = false ∧ allocRuns s (objUnits o) = some runs ∧ placeUnits .sealOpen
      false ((List.range (objUnits o)).filter fun n => !unitPoisoned s o n) 0 s = some (u, units) ∧ o.sealing = false ∧ x.sealing = false ∧
      dryingDown s = false) ∧
    (∃ s : State, ∃ f : Req, ∃ o : Obj, isUp s = true ∧ f.opcode = Op.sealObj ∧ f.subop.toNat ≤ 1 ∧ objNamed s (sealOid f) f.tenant = some o ∧
      sealBad s o f = true ∧ (localAt s f.src).isSome = true) ∧
    (∃ s : State, ∃ j : JRec, ∃ rest : List JRec, ∃ f : Req, ∃ oid : Oid, ∃ o : Obj, ∃ x : Obj, ∃ ds : List Delta, CommitDue s j rest ∧ j.body =
      .sealRec oid o none ds ∧ j.waiter = some f ∧ (localAt s f.src).isSome = true ∧ tget s.obj.tab oid = some x ∧ (ds.map (·.unit)).Nodup ∧ (∀ d ∈
      ds, mapEnt s d.unit = d.old ∧ d.new ≠ .damaged)) ∧
    (∃ s : State, ∃ j : JRec, ∃ rest : List JRec, ∃ f : Req, ∃ oid : Oid, ∃ tgt : Oid, ∃ o : Obj, ∃ x : Obj, ∃ y : Obj, ∃ ds : List Delta, CommitDue
      s j rest ∧ j.body = .sealRec oid o (some tgt) ds ∧ j.waiter = some f ∧ (localAt s f.src).isSome = true ∧ oid ≠ tgt ∧ tget s.obj.tab oid = some
      x ∧ tget s.obj.tab tgt = some y ∧ NoOwnExpand s tgt ∧ (ds.map (·.unit)).Nodup ∧ (∀ d ∈ ds, mapEnt s d.unit = d.old ∧ d.new ≠ .damaged ∧ ∀ r ∈
      y.runs, ¬ (r.1 ≤ d.unit ∧ d.unit < r.1 + r.2))) ∧
    (∃ s : State, ∃ f : Req, ∃ o : Obj, isUp s = true ∧ f.opcode = Op.discard ∧ objNamed s (discOid f) f.tenant = some o ∧ discBad s o f = false ∧
      cipherCheck s f.tenant o.prot (genTag s f.tenant) = none ∧ gated s (discOid f) f.src = false ∧ o.sealing = false ∧ dryingDown s = false) ∧
    (∃ s : State, ∃ f : Req, ∃ o : Obj, isUp s = true ∧ f.opcode = Op.discard ∧ objNamed s (discOid f) f.tenant = some o ∧ discBad s o f = true ∧
      (localAt s f.src).isSome = true) ∧
    (∃ s : State, ∃ j : JRec, ∃ rest : List JRec, ∃ f : Req, ∃ oid : Oid, ∃ o : Obj, ∃ first : Nat, ∃ n : Nat, CommitDue s j rest ∧ j.body = .discard
      oid first n ∧ j.waiter = some f ∧ isRemoving s f.tenant = false ∧ (localAt s f.src).isSome = true ∧ tget s.obj.tab oid = some o) :=
  ⟨⟨flash { obj1 with size := 16384, rows := 64 }, ((placeUnits .sealOpen false [0] 0 (flash { obj1 with size := 16384, rows := 64 })).getD ((flash
    { obj1 with size := 16384, rows := 64 }), [])).1, sealReq 0 0, { obj1 with size := 16384, rows := 64 }, [(0, 1)], ((placeUnits .sealOpen false
    [0] 0 (flash { obj1 with size := 16384, rows := 64 })).getD ((flash { obj1 with size := 16384, rows := 64 }), [])).2, by decide +kernel⟩,
   ⟨{ flash obj1 with obj.tab := [(oid1, { obj1 with size := 16384, rows := 64 }), (oid2, { obj3 with runs := [(1, 1)] })] }, ((placeUnits .sealOpen
     false [0] 0 ({ flash obj1 with obj.tab := [(oid1, { obj1 with size := 16384, rows := 64 }), (oid2, { obj3 with runs := [(1, 1)] })] })).getD
     (({ flash obj1 with obj.tab := [(oid1, { obj1 with size := 16384, rows := 64 }), (oid2, { obj3 with runs := [(1, 1)] })] }), [])).1, sealReq 1
     oid2, { obj1 with size := 16384, rows := 64 }, { obj3 with runs := [(1, 1)] }, [(0, 1)], ((placeUnits .sealOpen false [0] 0
     ({ flash obj1 with obj.tab := [(oid1, { obj1 with size := 16384, rows := 64 }), (oid2, { obj3 with runs := [(1, 1)] })] })).getD
     (({ flash obj1 with obj.tab := [(oid1, { obj1 with size := 16384, rows := 64 }), (oid2, { obj3 with runs := [(1, 1)] })] }), [])).2, by
     decide +kernel⟩,
   ⟨flash obj3, sealReq 0 0, obj3, by decide +kernel⟩,
   ⟨journaled { obj1 with sealing := true } (jrec (.sealRec oid1 obj3 none [⟨1, .unmapped, .mapped page0⟩]) []), jrec (.sealRec oid1 obj3 none [⟨1,
     .unmapped, .mapped page0⟩]) [], [], rdObjReq, oid1, obj3, { obj1 with sealing := true }, [⟨1, .unmapped, .mapped page0⟩], by decide +kernel⟩,
   ⟨{ journaled { obj1 with sealing := true } (jrec (.sealRec oid1 { obj3 with runs := [(1, 1)] } (some oid2) [⟨1, .unmapped, .mapped page0⟩]) []) with obj.tab := [(oid1, { obj1 with sealing := true }), (oid2, { obj3 with sealing := true, t1 := .valid, addr := 0x20000, t0tiles := [⟨0, [0]⟩] })] },
     jrec (.sealRec oid1 { obj3 with runs := [(1, 1)] } (some oid2) [⟨1, .unmapped, .mapped page0⟩]) [], [], rdObjReq, oid1, oid2,
     { obj3 with runs := [(1, 1)] }, { obj1 with sealing := true },
     { obj3 with sealing := true, t1 := .valid, addr := 0x20000, t0tiles := [⟨0, [0]⟩] }, [⟨1, .unmapped, .mapped page0⟩], by decide +kernel⟩,
   ⟨flash obj3, discReq, obj3, by decide +kernel⟩,
   ⟨flash obj1, discReq, obj1, by decide +kernel⟩,
   ⟨journaled obj3 (jrec (.discard oid1 0 1) []), jrec (.discard oid1 0 1) [], [], rdObjReq, oid1, obj3, 0, 1, by decide +kernel⟩⟩

theorem witness_ProgramsErasesAndCollection :
    (∃ s : State, ∃ a : PageAddr, ∃ r : SealRun, ∃ u : Nat, ∃ o : Obj, Unarmed s ∧ programming s a = true ∧ s.ftl.gc = [] ∧ s.ftl.seals = [r] ∧
      r.units = [(u, a)] ∧ tget s.obj.tab r.oid = some o ∧ cipherCheck s o.tenant o.prot r.gen = none) ∧
    (∃ s : State, ∃ a : PageAddr, Unarmed s ∧ programming s a = true ∧ (blkOf s a.blk).use ≠ .bad ∧ BlocksOnce s ∧ s.ftl.gc = [] ∧ s.ftl.rdonly =
      true ∧ s.err.log = [] ∧ (∀ r ∈ s.ftl.seals, (localAt s r.f.src).isSome = true)) ∧
    (∃ s : State, ∃ v : BlkAddr, ∃ lu : Nat, ∃ a : PageAddr, isUp s = true ∧ s.ftl.state = .online ∧ dryingDown s = false ∧ s.ftl.gc = [] ∧
      s.ftl.refreshQ = [v] ∧ (blkOf s v).use = .closed ∧ (blkOf s v).soft < 8 ∧ unitsIn s v = [(lu, a)] ∧ (tget s.ftl.media.pages a).isSome = true ∧
      s.obj.damagedExt = [] ∧ (placeUnits .relocOpen false [lu] 0 s).isSome = true) ∧
    (∃ s : State, ∃ b : BlkAddr, ∃ c : Cycle, isUp s = true ∧ dryingDown s = false ∧ s.ftl.gc = [c] ∧ c.victim = b ∧ c.committed = true ∧ c.erasing =
      false ∧ unitsIn s b = [] ∧ s.obj.fetches = [] ∧ (blkOf s b).use ≠ .bad) ∧
    (∃ s : State, ∃ b : BlkAddr, ∃ c : Cycle, isUp s = true ∧ s.ftl.gc = [c] ∧ c.victim = b ∧ (c.committed = false ∨ unitsIn s b ≠ [])) ∧
    (∃ s : State, ∃ b : BlkAddr, Unarmed s ∧ (blkOf s b).use = .erasing) ∧
    (∃ s : State, ∃ b : BlkAddr, isUp s = true ∧ (blkOf s b).use = .erasing ∧ s.ftl.rdonly = true ∧ s.err.log = []) :=
  ⟨⟨{ journaled obj1 (jrec (.segment 0) [page0]) with ftl.seals := [⟨sealReq 0 0, oid1, none, 0, 1, [(0, page0)], [(0, 1)], 0⟩] }, page0, ⟨sealReq 0
    0, oid1, none, 0, 1, [(0, page0)], [(0, 1)], 0⟩, 0, obj1, by decide +kernel⟩,
   ⟨{ journaled obj3 (jrec (.segment 0) [page0]) with ftl.rdonly := true }, page0, by decide +kernel⟩,
   ⟨{ flash obj3 with ftl.refreshQ := [blk5] }, blk5, 0, page0, by decide +kernel⟩,
   ⟨{ flash obj3 with ftl.map := [], ftl.gc := [⟨blk5, 1, [], [], true, false⟩] }, blk5, ⟨blk5, 1, [], [], true, false⟩, by decide +kernel⟩,
   ⟨{ flash obj3 with ftl.gc := [⟨blk5, 1, [], [], false, false⟩] }, blk5, ⟨blk5, 1, [], [], false, false⟩, by decide +kernel⟩,
   ⟨{ flash obj3 with ftl.blocks := [(blk5, ⟨.erasing, 9, 64, 0, 0, 0⟩)] }, blk5, by decide +kernel⟩,
   ⟨{ flash obj3 with ftl.blocks := [(blk5, ⟨.erasing, 9, 64, 0, 0, 0⟩)], ftl.rdonly := true }, blk5, by decide +kernel⟩⟩

theorem witness_FlashUpkeep :
    (∃ s : State, ∃ b : BlkAddr, isUp s = true ∧ (blkOf s b).use = .closed) ∧
    (∃ s : State, ∃ b : BlkAddr, ∃ d : Decoded, isUp s = true ∧ (blkOf s b).use = .closed ∧ d.rung = 2 ∧ d.metaOk = true ∧ (blkOf s b).soft + d.soft
      < 8 ∧ s.ftl.refreshQ.contains b = false ∧ s.ftl.refreshQ.length < 4096) ∧
    (∃ s : State, isUp s = true) ∧
    (∃ s : State, isUp s = true) ∧
    (∃ s : State, ∃ i : BitVec 3, ∃ hi : BitVec 10, ∃ lo : BitVec 10, ∃ crit : BitVec 10, Operator s i ∧ crit < lo ∧ lo < hi ∧ hi.toNat ≤ 1000) ∧
    (∃ s : State, ∃ i : BitVec 3, ∃ hi : BitVec 10, ∃ lo : BitVec 10, ∃ crit : BitVec 10, Operator s i ∧ (lo ≤ crit ∨ hi ≤ lo ∨ 1000 < hi.toNat)) ∧
    (∃ s : State, ∃ i : BitVec 3, ∃ d : Discovery, Operator s i ∧ BlockFree s blkFtl ∧ s.ftl.state = .offline ∧ s.dry.image = none ∧ targetsOk d.geom
      = true) ∧
    (∃ s : State, ∃ i : BitVec 3, ∃ d : Discovery, Operator s i ∧ BlockFree s blkFtl ∧ (s.ftl.state ≠ .offline ∨ targetsOk d.geom = false)) ∧
    (∃ s : State, ∃ i : BitVec 3, ∃ d : Discovery, Operator s i ∧ BlockFree s blkFtl ∧ (s.ftl.state ≠ .offline ∨ targetsOk d.geom = false)) :=
  ⟨⟨flash obj3, blk5, by decide +kernel⟩,
   ⟨flash obj3, blk5, { decoded 2 with soft := 7 }, by decide +kernel⟩,
   ⟨up, by decide +kernel⟩,
   ⟨up, by decide +kernel⟩,
   ⟨up, 1, 1000, 2, 1, by decide +kernel⟩,
   ⟨up, 1, 1001, 2, 1, by decide +kernel⟩,
   ⟨{ up with ftl.state := .offline }, 1, bootIn.disc, by decide +kernel⟩,
   ⟨up, 1, bootIn.disc, by decide +kernel⟩,
   ⟨{ up with ftl.state := .offline }, 1, { bootIn.disc with geom := { bootIn.disc.geom with ces := [] } }, by decide +kernel⟩⟩

theorem witness_ShutdownBegins :
    (∃ s : State, ∃ i : BitVec 3, Admin s i ∧ s.boot.ready = true ∧ dryingDown s = false ∧ (∀ x ∈ s.lnk, x.2.st = 0)) ∧
    (∃ s : State, ∃ i : BitVec 3, ∃ p : PortNo, ∃ r : PortRec, Admin s i ∧ s.boot.ready = true ∧ dryingDown s = false ∧ s.lnk = [(p, r)] ∧ r.st = 3 ∧
      Bare s p r) ∧
    (∃ s : State, ∃ i : BitVec 3, Operator s i ∧ s.boot.shutdown = false ∧ (isAdmin s (.session i) = false ∨ s.boot.ready = false)) :=
  ⟨⟨{ up with lnk := [] }, 0, by decide +kernel⟩,
   ⟨ported 0 lane0, 0, 0, lane0, by decide +kernel⟩,
   ⟨up, 1, by decide +kernel⟩⟩

end Sys2Proof.Tests
end

section
/-! The free block that a LUN-plane gives (R382). -/

namespace Sys2Proof.Machine

/-! ### The least element of a list -/

@[simp] theorem leastBy_eq_none_iff {α : Type} {m : α → Nat} {l : List α} : leastBy m l = none ↔ l = [] := by
  cases l with
  | nil => simp [leastBy]
  | cons a l =>
    cases h : leastBy m l with
    | none => simp [leastBy, h]
    | some c => by_cases hac : m a ≤ m c <;> simp [leastBy, h, hac]

/-- What a list's tail gives settles what the list gives: its head, when no element of the tail measures less, or the tail's least. -/
theorem leastBy_cons_cases {α : Type} {m : α → Nat} {a b : α} {l : List α} (h : leastBy m (a :: l) = some b) :
    (b = a ∧ l = []) ∨ ∃ c, leastBy m l = some c ∧ ((b = a ∧ m a ≤ m c) ∨ (b = c ∧ m c < m a)) := by
  cases hl : leastBy m l with
  | none => exact .inl ⟨by simpa [leastBy, hl, eq_comm] using h, leastBy_eq_none_iff.mp hl⟩
  | some c =>
    refine .inr ⟨c, rfl, ?_⟩
    by_cases hac : m a ≤ m c
    · exact .inl ⟨by simpa [leastBy, hl, hac, eq_comm] using h, hac⟩
    · exact .inr ⟨by simpa [leastBy, hl, hac, eq_comm] using h, Nat.lt_of_not_le hac⟩

theorem leastBy_mem {α : Type} {m : α → Nat} {l : List α} {b : α} (h : leastBy m l = some b) : b ∈ l := by
  induction l generalizing b with
  | nil => simp [leastBy] at h
  | cons a l ih =>
    obtain ⟨rfl, -⟩ | ⟨c, hc, ⟨rfl, -⟩ | ⟨rfl, -⟩⟩ := leastBy_cons_cases h
    · exact List.mem_cons_self
    · exact List.mem_cons_self
    · exact List.mem_cons_of_mem a (ih hc)

theorem leastBy_le {α : Type} {m : α → Nat} {l : List α} {b x : α} (h : leastBy m l = some b) (hx : x ∈ l) : m b ≤ m x := by
  induction l generalizing b with
  | nil => simp at hx
  | cons a l ih =>
    obtain ⟨rfl, rfl⟩ | ⟨c, hc, hb⟩ := leastBy_cons_cases h
    · rw [List.mem_singleton.mp hx]
    · have hbac : m b ≤ m a ∧ m b ≤ m c := by
        obtain ⟨rfl, hac⟩ | ⟨rfl, hca⟩ := hb
        · exact ⟨Nat.le_refl _, hac⟩
        · exact ⟨hca.le, Nat.le_refl _⟩
      obtain rfl | hxl := List.mem_cons.mp hx
      · exact hbac.1
      · exact hbac.2.trans (ih hc hxl)

/-! ### A LUN-plane's free blocks and the one that is drawn -/

@[simp] theorem sameLunPlane_blkIn (lp : BlkAddr) (k : Nat) : sameLunPlane (blkIn lp k) lp = true := by simp [sameLunPlane, blkIn]

/-- The free blocks of a LUN-plane, in the order of their numbers. -/
def freeBlocksIn (s : State) (lp : BlkAddr) : List BlkAddr :=
  ((List.range s.ftl.geom.blocks).map (blkIn lp)).filter fun b => decide ((blkOf s b).use = .free)

/-- What the draw takes the least of: the erase count, counted down from the largest of its field for the wear rule's destination. -/
def drawMeasure (s : State) (worn : Bool) (b : BlkAddr) : Nat :=
  if worn then 0xFFFFFFFF - (blkOf s b).erases else (blkOf s b).erases

theorem mem_freeBlocksIn {s : State} {lp b : BlkAddr} :
    b ∈ freeBlocksIn s lp ↔ (∃ k, k < s.ftl.geom.blocks ∧ blkIn lp k = b) ∧ (blkOf s b).use = .free := by
  simp [freeBlocksIn]

theorem drawFree_eq (s : State) (lp : BlkAddr) (worn : Bool) :
    drawFree s lp worn = if freeBlocks s = 0 then none else leastBy (drawMeasure s worn) (freeBlocksIn s lp) := rfl

/-- The block drawn is a free block of the LUN-plane's range, and no free block there has a lower measure. -/
theorem drawFree_spec {s : State} {lp b : BlkAddr} {worn : Bool} (h : drawFree s lp worn = some b) :
    (∃ k, k < s.ftl.geom.blocks ∧ blkIn lp k = b) ∧ (blkOf s b).use = .free ∧
    ∀ k, k < s.ftl.geom.blocks → (blkOf s (blkIn lp k)).use = .free → drawMeasure s worn b ≤ drawMeasure s worn (blkIn lp k) := by
  have hl : leastBy (drawMeasure s worn) (freeBlocksIn s lp) = some b := by
    rw [drawFree_eq] at h
    split at h
    · cases h
    · exact h
  obtain ⟨hin, hfree⟩ := mem_freeBlocksIn.mp (leastBy_mem hl)
  exact ⟨hin, hfree, fun k hk hf => leastBy_le hl (mem_freeBlocksIn.mpr ⟨⟨k, hk, rfl⟩, hf⟩)⟩

/-- A LUN-plane with a free block gives one, as long as the device has free blocks beyond its reserve. -/
theorem drawFree_isSome {s : State} {lp : BlkAddr} (worn : Bool) {k : Nat} (hpool : freeBlocks s ≠ 0)
    (hk : k < s.ftl.geom.blocks) (hf : (blkOf s (blkIn lp k)).use = .free) : (drawFree s lp worn).isSome = true := by
  have hmem : blkIn lp k ∈ freeBlocksIn s lp := mem_freeBlocksIn.mpr ⟨⟨k, hk, rfl⟩, hf⟩
  rw [drawFree_eq, if_neg hpool, Option.isSome_iff_ne_none, ne_eq, leastBy_eq_none_iff]
  exact List.ne_nil_of_mem hmem

/-- Settles O9: the draw takes the least of a measure over the LUN-plane's free blocks. Without the wear rule the measure is the erase
count; for the wear rule it falls as the erase count rises, within the 32 bits of the count. -/
theorem freeBlockDrawnByEraseCount : Obligations.FreeBlockDrawnByEraseCount := by
  refine ⟨fun s lp b h => ?lowest, fun s lp b h hbound => ?highest, fun s lp worn k => drawFree_isSome worn⟩
  case lowest =>
    obtain ⟨⟨j, -, rfl⟩, hfree, hleast⟩ := drawFree_spec h
    exact ⟨hfree, sameLunPlane_blkIn lp j, hleast⟩
  case highest =>
    obtain ⟨⟨j, -, rfl⟩, hfree, hleast⟩ := drawFree_spec h
    refine ⟨hfree, sameLunPlane_blkIn lp j, fun k hk hf => ?_⟩
    have hcount := hleast k hk hf
    have hk32 := hbound k hk
    simp only [drawMeasure, if_true] at hcount
    omega

end Sys2Proof.Machine
end

section
/-! What a write of SWC_CLS_CFG does (R531). -/

namespace Sys2Proof.Machine

/-! ### A class's limits set -/

/-- The limits of one class set, those of the others kept. -/
def withClsLimits (s : State) (c : Cls) (mx mn : BitVec 16) : State :=
  { s with swc := { s.swc with clsMax := tset s.swc.clsMax c mx, clsMin := tset s.swc.clsMin c mn } }

theorem maxCells_withClsLimits (s : State) (c k : Cls) (mx mn : BitVec 16) :
    maxCells (withClsLimits s c mx mn) k = if k = c then mx.toNat * 16 else maxCells s k := by
  by_cases h : k = c
  · subst h; simp [maxCells, withClsLimits]
  · simp [maxCells, withClsLimits, h]

theorem minCells_withClsLimits (s : State) (c k : Cls) (mx mn : BitVec 16) :
    minCells (withClsLimits s c mx mn) k = if k = c then mn.toNat * 16 else minCells s k := by
  by_cases h : k = c
  · subst h; simp [minCells, withClsLimits]
  · simp [minCells, withClsLimits, h]

/-- An answer changes no class's MAX. -/
@[simp] theorem maxCells_respondOne (s : State) (w : Who) (a : Word) (st : Status) (k : Cls) :
    maxCells (respondOne s w a st) k = maxCells s k := rfl

/-- An answer changes no class's MIN. -/
@[simp] theorem minCells_respondOne (s : State) (w : Who) (a : Word) (st : Status) (k : Cls) :
    minCells (respondOne s w a st) k = minCells s k := rfl

/-! ### Which writes are refused -/

/-- What the MINs total once the MIN of one class is written. -/
def minTotal (s : State) (c : Cls) (mn : BitVec 16) : Nat :=
  (allCls.map fun k => if k = c then mn.toNat * 16 else minCells s k).sum

/-- What R531 refuses: MAX below MIN, or a die whose pool the MINs would exceed. -/
def ClsLimitsBreak (s : State) (c : Cls) (mx mn : BitVec 16) : Prop :=
  mx < mn ∨ ∃ d ∈ ([0, 1, 2, 3] : List Quad), poolCells s d < minTotal s c mn

theorem sum_minCells_withClsLimits (s : State) (c : Cls) (mx mn : BitVec 16) :
    (allCls.map fun k => minCells (withClsLimits s c mx mn) k).sum = minTotal s c mn := by
  simp only [minCells_withClsLimits, minTotal]

/-- The model's check, which totals the MINs of the state already written, refuses what R531 refuses. -/
theorem clsLimitsBreak_iff (s : State) (c : Cls) (mx mn : BitVec 16) :
    ClsLimitsBreak s c mx mn ↔ (decide (mx < mn) || ([0, 1, 2, 3] : List Quad).any fun d =>
      decide (poolCells s d < (allCls.map fun k => minCells (withClsLimits s c mx mn) k).sum)) = true := by
  rw [sum_minCells_withClsLimits, Bool.or_eq_true, List.any_eq_true]
  simp only [decide_eq_true_eq, ClsLimitsBreak]

theorem writeClsCfg_denied {s : State} {c : Cls} {v : Word}
    (h : ClsLimitsBreak s c (v.extractLsb' 16 16) (v.extractLsb' 0 16)) : writeClsCfg s c v = (s, .denied) :=
  if_pos ((clsLimitsBreak_iff ..).mp h)

theorem writeClsCfg_ok {s : State} {c : Cls} {v : Word} (h : ¬ ClsLimitsBreak s c (v.extractLsb' 16 16) (v.extractLsb' 0 16)) :
    writeClsCfg s c v = (withClsLimits s c (v.extractLsb' 16 16) (v.extractLsb' 0 16), .ok) :=
  if_neg (mt (clsLimitsBreak_iff ..).mpr h)

/-! ### The command -/

@[simp] theorem blkOfAddr_mgmtAddr (block : BitVec 16) (off : Nat) : blkOfAddr (mgmtAddr block off) = block :=
  BitVec.extractLsb'_append_eq_left

theorem blockKnown_swc (s : State) : blockKnown s blkSwc = true := rfl

/-- An operator's write reaches the register and is answered with the status it gives. -/
theorem exec_swcClsCfgWrite {s : State} {i : BitVec 3} (c : Cls) (v : Word) (h : Claims.Operator s i) :
    exec (.swcClsCfgWrite (.session i) c v) s =
      .next (respondOne (writeClsCfg s c v).1 (.session i) (mgmtAddr blkSwc (0x20 + 4 * c.toNat)) (writeClsCfg s c v).2) := by
  obtain ⟨hup, hcores, hrole⟩ := h
  have hknown : blockKnown s (blkOfAddr (mgmtAddr blkSwc (0x20 + 4 * c.toNat))) = true := by
    rw [blkOfAddr_mgmtAddr, blockKnown_swc]
  calc exec (.swcClsCfgWrite (.session i) c v) s
      = whenUp s fun s => oneWrite s (.session i) (mgmtAddr blkSwc (0x20 + 4 * c.toNat)) v fun s => told (writeClsCfg s c v) := rfl
    _ = _ := by rw [whenUp_up hup, oneWrite_operator hcores hrole hknown]; rfl

/-- Settles O7: the write is what R531 makes of the pair of limits, and the answer to it touches neither limit. -/
theorem classLimitWrites : Obligations.ClassLimitWrites := by
  refine ⟨fun s i c v hop hbreak => ?denied, fun s i c v hop hle htotal => ?ok⟩
  case denied => rw [exec_swcClsCfgWrite c v hop, writeClsCfg_denied hbreak]
  case ok =>
    have hkeeps : ¬ ClsLimitsBreak s c (v.extractLsb' 16 16) (v.extractLsb' 0 16) := by
      rintro (hlt | ⟨d, hd, hexceeds⟩)
      · exact absurd hle (BitVec.not_le.mpr hlt)
      · exact Nat.not_lt.mpr (htotal d hd) hexceeds
    refine ⟨_, exec_swcClsCfgWrite c v hop, ?_⟩
    rw [writeClsCfg_ok hkeeps]
    refine ⟨?max, ?min, fun k hk => ⟨?maxOther, ?minOther⟩, rfl, rfl⟩
    case max => rw [maxCells_respondOne, maxCells_withClsLimits, if_pos rfl]
    case min => rw [minCells_respondOne, minCells_withClsLimits, if_pos rfl]
    case maxOther => rw [maxCells_respondOne, maxCells_withClsLimits, if_neg hk]
    case minOther => rw [minCells_respondOne, minCells_withClsLimits, if_neg hk]

end Sys2Proof.Machine
end

section
/-! When a written power cap takes effect, and what keeps the measurement history (R633). -/

namespace Sys2Proof.Machine

/-! ### The power state under the actuators -/

@[simp] theorem raise_pwr (s : State) (e : Event) : (raise s e).pwr = s.pwr := by rw [raise_only]

@[simp] theorem setLevel_pwr (s : State) (level : BitVec 8) : (setLevel s level).pwr = s.pwr := by
  unfold setLevel
  split <;> rfl

/-- What every step of a fold keeps, the fold keeps. -/
theorem foldl_keeps {α β : Type} {f : State → β} {g : State → α → State} (h : ∀ s a, f (g s a) = f s) (l : List α) (s : State) :
    f (l.foldl g s) = f s :=
  List.foldlRecOn (motive := fun t => f t = f s) l g rfl fun t ht a _ => (h t a).trans ht

@[simp] theorem markTiles_pwr (s : State) : (markTiles s).pwr = s.pwr := foldl_keeps (fun s t => modTile_pwr s t _) _ s

/-! ### The cap and the measurement history -/

/-- What R633 speaks of: the cap in force, the one written that waits, the power of past intervals, and their count HIST. -/
structure CapRecord where
  cap : BitVec 16
  waiting : Option (BitVec 16)
  history : List Nat
  hist : Nat

/-- The cap and the measurement history as a state has them. -/
def capRecord (s : State) : CapRecord := ⟨s.pwr.cap, s.pwr.capNext, s.pwr.history, s.pwr.hist⟩

theorem capRecord_congr {s t : State} (h : t.pwr = s.pwr) : capRecord t = capRecord s := by simp only [capRecord, h]

/-- A ramp that begins writes its own die's record only. -/
theorem startRamp_capRecord (s : State) (e : BitVec 3) : capRecord (startRamp s e) = capRecord s := by
  unfold startRamp
  extract_lets
  split <;> rfl

theorem followNotes_capRecord (s : State) : capRecord (followNotes s) = capRecord s := foldl_keeps startRamp_capRecord _ s

/-- The capping loop moves along the ladder and counts; it writes neither the cap nor the history. -/
theorem capLoop_capRecord (s : State) : capRecord (capLoop s) = capRecord s := by
  unfold capLoop
  extract_lets
  split
  case isTrue =>
    rw [capRecord_congr (setAlert_pwr _ _), capRecord_congr (raise_pwr _ _)]
    rfl
  case isFalse =>
    repeat' split
    all_goals rfl

/-- The thermal loop moves along the ladder, counts, and begins its next interval; it writes neither the cap nor the history. -/
theorem thermLoop_capRecord (s : State) : capRecord (thermLoop s) = capRecord s := by
  unfold thermLoop
  dsimp only
  repeat' split
  all_goals rfl

theorem applyPos_capRecord (s : State) (before : Nat) : capRecord (applyPos s before) = capRecord s := by
  unfold applyPos
  dsimp only
  rw [followNotes_capRecord, capRecord_congr (markTiles_pwr _), capRecord_congr (setLevel_pwr _ _)]
  split <;> rfl

/-- The end of an interval puts the waiting cap in force and adds the interval to the history. -/
theorem intervalEnd_capRecord (s : State) (w : Nat) (doms : List (Nat × Nat)) :
    capRecord (intervalEnd s w doms) =
      ⟨s.pwr.capNext.getD s.pwr.cap, none, (w :: s.pwr.history).take 255, min 64 (s.pwr.hist + 1)⟩ := by
  unfold intervalEnd
  rw [applyPos_capRecord, thermLoop_capRecord, capLoop_capRecord]
  rfl

/-! ### The commands -/

theorem exec_intervalEnd {s : State} (w : Nat) (doms : List (Nat × Nat)) (h : isUp s = true) :
    exec (.intervalEnd w doms) s = .next (intervalEnd s w doms) :=
  calc exec (.intervalEnd w doms) s = whenUp s fun s => intervalEnd s w doms := rfl
    _ = _ := whenUp_up h

theorem blockKnown_pwr (s : State) : blockKnown s blkPwr = true := rfl

/-- An operator's write leaves the cap waiting and is answered OK. -/
theorem exec_pwrCapWrite {s : State} {i : BitVec 3} (v : Word) (h : Claims.Operator s i) :
    exec (.pwrCapWrite (.session i) v) s =
      .next (respondOne { s with pwr := { s.pwr with capNext := some (v.extractLsb' 0 16) } } (.session i) (mgmtAddr blkPwr 0) .ok) := by
  obtain ⟨hup, hcores, hrole⟩ := h
  have hknown : blockKnown s (blkOfAddr (mgmtAddr blkPwr 0)) = true := by rw [blkOfAddr_mgmtAddr, blockKnown_pwr]
  calc exec (.pwrCapWrite (.session i) v) s
      = whenUp s fun s => oneWrite s (.session i) (mgmtAddr blkPwr 0) v fun s => told (writeCap s v) := rfl
    _ = _ := by rw [whenUp_up hup, oneWrite_operator hcores hrole hknown]; rfl

/-- Settles O8: the write only leaves its cap waiting, and the end of an interval, whichever way the loops then move, puts a waiting
cap in force and keeps the history but for the interval it adds. -/
theorem powerCapTakesEffectAtIntervalEnd : Obligations.PowerCapTakesEffectAtIntervalEnd := by
  refine ⟨fun s i v hop => exec_pwrCapWrite v hop, fun s w doms cap hup hwaits => ?written, fun s w doms hup hnone => ?kept⟩
  case written =>
    obtain ⟨hcap, hnext, hhistory, hhist⟩ := CapRecord.mk.inj (intervalEnd_capRecord s w doms)
    exact ⟨_, exec_intervalEnd w doms hup, by rw [hcap, hwaits]; rfl, hnext, hhistory, hhist⟩
  case kept =>
    obtain ⟨hcap, hnext, -⟩ := CapRecord.mk.inj (intervalEnd_capRecord s w doms)
    exact ⟨_, exec_intervalEnd w doms hup, by rw [hcap, hnone]; rfl, hnext⟩

end Sys2Proof.Machine
end
